-- ==== Sys2Proof/Word.lean ====
section
/-! DEFINITION. The word types of GWY-ZD480-A2 and their plainest arithmetic (R4). -/

namespace Sys2Proof

/-- A byte of memory (R4). -/
abbrev Byte := BitVec 8

/-- A 32-bit register value, the value of a uniform register or of one lane (R9). -/
abbrev Word := BitVec 32

/-- A 64-bit value, held in registers as an even/odd pair (R4, R165). -/
abbrev DWord := BitVec 64

/-- A program counter or any other 57-bit address (R9, R167). -/
abbrev Addr := BitVec 57

/-- A mask with one bit per lane (R8). -/
abbrev Mask := BitVec 32

/-- The pair {hi, lo} as one 64-bit value, bits [31:0] in the even register (R4). -/
def pair (hi lo : Word) : DWord := hi ++ lo

/-- Bits [31:0] of a 64-bit value. -/
def loWord (x : DWord) : Word := x.setWidth 32

/-- Bits [63:32] of a 64-bit value. -/
def hiWord (x : DWord) : Word := (x >>> 32).setWidth 32

/-- The field x[hi:lo] of a natural number, as a natural number (R4). -/
def bits (x hi lo : Nat) : Nat := (x >>> lo) % 2 ^ (hi + 1 - lo)

/-- Bit i of a natural number. -/
def bit (x i : Nat) : Bool := (x >>> i) % 2 == 1

end Sys2Proof
end

