-- ==== Sys2Proof/Machine/Store.lean ====
section
/-! DEFINITION. A finite map from natural numbers in one canonical form: keys strictly rising, no entry equal to what
an unlisted key reads as. Register files, memory and tables are held in it, so that equal contents are equal data. -/

namespace Sys2Proof.Machine

/-- Entries (key, value). -/
abbrev Store (α : Type) := List (Nat × α)

/-- The value at a key; an unlisted key reads as `d`. -/
def storeGet {α : Type} (d : α) : Store α → Nat → α
  | [], _ => d
  | (k, v) :: t, a => if k = a then v else storeGet d t a

/-- Drops the entries of one key. -/
def storeErase {α : Type} : Store α → Nat → Store α
  | [], _ => []
  | (k, v) :: t, a => if k = a then storeErase t a else (k, v) :: storeErase t a

/-- Puts an entry before the first larger key. -/
def storeInsert {α : Type} : Store α → Nat → α → Store α
  | [], a, x => [(a, x)]
  | (k, v) :: t, a, x => if a < k then (a, x) :: (k, v) :: t else (k, v) :: storeInsert t a x

/-- Writes one key; writing what an unlisted key reads as removes the entry. -/
def storeSet {α : Type} [DecidableEq α] (d : α) (st : Store α) (a : Nat) (x : α) : Store α :=
  if x = d then storeErase st a else storeInsert (storeErase st a) a x

/-- Drops every entry whose key lies in lo .. lo + n - 1. -/
def storeClear {α : Type} (st : Store α) (lo n : Nat) : Store α :=
  st.filter fun e => e.1 < lo || lo + n ≤ e.1

/-- Every key of the list is above `a`. -/
def storeAbove {α : Type} (a : Nat) : Store α → Bool
  | [] => true
  | (k, _) :: t => decide (a < k) && storeAbove a t

/-- The canonical form. -/
def storeWf {α : Type} [DecidableEq α] (d : α) : Store α → Bool
  | [] => true
  | (k, v) :: t => storeAbove k t && decide (v ≠ d) && storeWf d t

/-- Replaces the n-th element of a list. -/
def setAt {α : Type} : List α → Nat → α → List α
  | [], _, _ => []
  | _ :: t, 0, y => y :: t
  | x :: t, n + 1, y => x :: setAt t n y

/-- Updates every element that meets a test. -/
def mapWhere {α : Type} (p : α → Bool) (f : α → α) (l : List α) : List α :=
  l.map fun x => if p x then f x else x

/-- The numbers 0 .. n - 1, rising. -/
def upto : Nat → List Nat
  | 0 => []
  | n + 1 => upto n ++ [n]

/-- Folds a function over lo, lo + 1, …, n numbers in all. -/
def foldFrom {σ : Type} (f : σ → Nat → σ) : Nat → Nat → σ → σ
  | 0, _, s => s
  | n + 1, lo, s => foldFrom f n (lo + 1) (f s lo)

/-- Lane l is in a mask. -/
def lane (m : Mask) (l : Nat) : Bool := m.getLsbD l

/-- The lanes of a mask, ascending. -/
def lanesOf (m : Mask) : List Nat := (upto 32).filter (lane m)

/-- The mask of the lanes that meet a test. -/
def maskOf (p : Nat → Bool) : Mask := (upto 32).foldl (fun m l => if p l then m ||| (1#32 <<< l) else m) 0

end Sys2Proof.Machine
end

