-- ==== Sys2Proof/Machine/Float.lean ====
section
/-! DEFINITION. Number formats and arithmetic (spec/10): decoding, the one rounding, and the operations every lane,
group and array instruction shares. Values are exact (a natural number times a power of two) until one rounding. -/

namespace Sys2Proof.Machine

/-- A floating-point format of R191. `e4m3` marks the one format without infinity. -/
structure Fmt where
  ebits : Nat
  fbits : Nat
  bias  : Nat
  e4m3  : Bool
  deriving DecidableEq, Repr

/-- FP64 (R191). -/
def f64 : Fmt := { ebits := 11, fbits := 52, bias := 1023, e4m3 := false }
/-- FP32 (R191). -/
def f32 : Fmt := { ebits := 8, fbits := 23, bias := 127, e4m3 := false }
/-- BF16 (R191). -/
def bf16 : Fmt := { ebits := 8, fbits := 7, bias := 127, e4m3 := false }
/-- FP16 (R191). -/
def f16 : Fmt := { ebits := 5, fbits := 10, bias := 15, e4m3 := false }
/-- E5M2 (R191). -/
def e5m2 : Fmt := { ebits := 5, fbits := 2, bias := 15, e4m3 := false }
/-- E4M3 (R191). -/
def e4m3 : Fmt := { ebits := 4, fbits := 3, bias := 7, e4m3 := true }

/-- The width of a format in bits. -/
def fmtWidth (f : Fmt) : Nat := f.ebits + f.fbits + 1

/-- The value of a bit pattern. `fin s m e` is (-1)^s * m * 2^e. -/
inductive FVal where
  | nan
  | inf (s : Bool)
  | fin (s : Bool) (m : Nat) (e : Int)
  deriving DecidableEq, Repr

/-- The rounding modes of R196. -/
inductive Rnd where
  | rne | rtz | rup | rdn
  deriving DecidableEq, Repr

/-- FLAGS.INV (R173). -/
def flInv : Word := 1
/-- FLAGS.DZ (R173). -/
def flDz : Word := 2
/-- FLAGS.OF (R173). -/
def flOf : Word := 4
/-- FLAGS.UF (R173). -/
def flUf : Word := 8
/-- FLAGS.NX (R173). -/
def flNx : Word := 16

/-- The exponent of the smallest subnormal: every finite value is a multiple of 2 to it. -/
def fmtQmin (f : Fmt) : Int := 1 - (f.bias : Int) - (f.fbits : Int)

/-- The sign bit of a format, as a number to add. -/
def fmtSign (f : Fmt) (s : Bool) : Nat := if s then 2 ^ (f.ebits + f.fbits) else 0

/-- The value of a bit pattern (R191). -/
def fDecode (f : Fmt) (x : Nat) : FVal :=
  let s := bit x (f.ebits + f.fbits)
  let e := bits x (f.ebits + f.fbits - 1) f.fbits
  let m := x % 2 ^ f.fbits
  if f.e4m3 then
    if e = 15 ∧ m = 7 then .nan
    else if e = 0 then .fin s m (fmtQmin f)
    else .fin s (m + 2 ^ f.fbits) (fmtQmin f + (e : Int) - 1)
  else if e = 2 ^ f.ebits - 1 then (if m = 0 then .inf s else .nan)
  else if e = 0 then .fin s m (fmtQmin f)
  else .fin s (m + 2 ^ f.fbits) (fmtQmin f + (e : Int) - 1)

/-- The canonical NaN of a format (R191, R192). -/
def fNan (f : Fmt) : Nat :=
  if f.e4m3 then 0x7F else (2 ^ f.ebits - 1) * 2 ^ f.fbits + 2 ^ (f.fbits - 1)

/-- The infinity of a sign; E4M3 has none and gives its NaN (R197). -/
def fInf (f : Fmt) (s : Bool) : Nat :=
  if f.e4m3 then 0x7F else fmtSign f s + (2 ^ f.ebits - 1) * 2 ^ f.fbits

/-- The largest finite value of a sign (R191). -/
def fMaxFin (f : Fmt) (s : Bool) : Nat :=
  if f.e4m3 then fmtSign f s + 0x7E else fmtSign f s + (2 ^ f.ebits - 1) * 2 ^ f.fbits - 1

/-- Rounds m / 2^sh to an integer by a mode; the sign matters for RUP and RDN (R196). -/
def roundShift (mode : Rnd) (s : Bool) (m sh : Nat) : Nat :=
  let hi := m >>> sh
  let lo := m % 2 ^ sh
  let up : Bool :=
    match mode with
    | .rne => decide (2 ^ sh < 2 * lo) || (decide (2 * lo = 2 ^ sh) && hi % 2 == 1)
    | .rtz => false
    | .rup => decide (lo ≠ 0) && !s
    | .rdn => decide (lo ≠ 0) && s
  if up then hi + 1 else hi

/-- m * 2^e rounded to a multiple of 2^q: the multiple, and whether it is exact. -/
def roundAt (mode : Rnd) (s : Bool) (m : Nat) (e q : Int) : Nat × Bool :=
  if q ≤ e then (m <<< (e - q).toNat, true)
  else (roundShift mode s m (q - e).toNat, m % 2 ^ (q - e).toNat = 0)

/-- What an overflowed result becomes (R197). -/
def overflowed (f : Fmt) (mode : Rnd) (sat s : Bool) : Nat :=
  if sat then fMaxFin f s
  else match mode with
    | .rne => fInf f s
    | .rtz => fMaxFin f s
    | .rup => if s then fMaxFin f s else fInf f s
    | .rdn => if s then fInf f s else fMaxFin f s

/-- Is r * 2^q above the largest finite value of the format? -/
def aboveMax (f : Fmt) (r : Nat) (q : Int) : Bool :=
  let top := if f.e4m3 then 14 else 2 ^ (f.fbits + 1) - 1
  let qtop : Int := if f.e4m3 then 5 else (f.bias : Int) - (f.fbits : Int)
  if q ≤ qtop then decide (top <<< (qtop - q).toNat < r) else decide (top < r <<< (q - qtop).toNat)

/-- The one rounding of an exact value (-1)^s * m * 2^e to a format, with the flags of R198 (R193, R196, R197). A zero
keeps the sign given. -/
def fRound (f : Fmt) (mode : Rnd) (sat s : Bool) (m : Nat) (e : Int) : Nat × Word :=
  if m = 0 then (fmtSign f s, 0)
  else
    let top : Int := e + (Nat.log2 m : Int)
    let qu : Int := top - (f.fbits : Int)
    let q := max qu (fmtQmin f)
    let ru := roundAt mode s m e qu
    let rb := roundAt mode s m e q
    let emin : Int := 1 - (f.bias : Int)
    let tiny : Bool := decide ((if ru.1 = 2 ^ (f.fbits + 1) then top + 1 else top) < emin)
    if aboveMax f ru.1 qu then (overflowed f mode sat s, flOf ||| flNx)
    else
      let b := fmtSign f s + ((q - fmtQmin f).toNat <<< f.fbits) + rb.1
      let nx := if rb.2 then 0 else flNx
      let uf := if tiny && !rb.2 then flUf else 0
      (b, nx ||| uf)

/-- The sign of an exact zero sum of operands whose signs differ, by mode (R194). -/
def zeroSign (mode : Rnd) : Bool := mode == .rdn

/-- A sum of two exact finite values, as sign, magnitude and exponent; a zero has the sign of R194. -/
def addExact (mode : Rnd) (s1 : Bool) (m1 : Nat) (e1 : Int) (s2 : Bool) (m2 : Nat) (e2 : Int) : Bool × Nat × Int :=
  let e := min e1 e2
  let a : Int := ((m1 <<< (e1 - e).toNat : Nat) : Int)
  let b : Int := ((m2 <<< (e2 - e).toNat : Nat) : Int)
  let t := (if s1 then -a else a) + (if s2 then -b else b)
  if t = 0 then ((if s1 = s2 then s1 else zeroSign mode), 0, e)
  else (decide (t < 0), t.natAbs, e)

/-- Addition (R196, R198). -/
def fAdd (f : Fmt) (x y : Nat) : Nat × Word :=
  match fDecode f x, fDecode f y with
  | .nan, _ => (fNan f, 0)
  | _, .nan => (fNan f, 0)
  | .inf s, .inf t => if s = t then (fInf f s, 0) else (fNan f, flInv)
  | .inf s, .fin _ _ _ => (fInf f s, 0)
  | .fin _ _ _, .inf t => (fInf f t, 0)
  | .fin s m e, .fin t n d =>
    let r := addExact .rne s m e t n d
    fRound f .rne false r.1 r.2.1 r.2.2

/-- The pattern with the sign bit inverted. -/
def fNegBits (f : Fmt) (x : Nat) : Nat :=
  if bit x (f.ebits + f.fbits) then x - 2 ^ (f.ebits + f.fbits) else x + 2 ^ (f.ebits + f.fbits)

/-- Subtraction (R213). -/
def fSub (f : Fmt) (x y : Nat) : Nat × Word := fAdd f x (fNegBits f y)

/-- Multiplication (R196, R198). -/
def fMul (f : Fmt) (x y : Nat) : Nat × Word :=
  match fDecode f x, fDecode f y with
  | .nan, _ => (fNan f, 0)
  | _, .nan => (fNan f, 0)
  | .inf s, .inf t => (fInf f (s != t), 0)
  | .inf s, .fin t n _ => if n = 0 then (fNan f, flInv) else (fInf f (s != t), 0)
  | .fin s m _, .inf t => if m = 0 then (fNan f, flInv) else (fInf f (s != t), 0)
  | .fin s m e, .fin t n d => fRound f .rne false (s != t) (m * n) (e + d)

/-- Fused multiply-add a * b + c with one rounding; 0 times an infinity sets INV even when c is a NaN (R213). -/
def fFma (f : Fmt) (x y z : Nat) : Nat × Word :=
  match fDecode f x, fDecode f y with
  | .nan, _ => (fNan f, 0)
  | _, .nan => (fNan f, 0)
  | .inf s, .inf t => fAdd f (fInf f (s != t)) z
  | .inf s, .fin t n _ => if n = 0 then (fNan f, flInv) else fAdd f (fInf f (s != t)) z
  | .fin s m _, .inf t => if m = 0 then (fNan f, flInv) else fAdd f (fInf f (s != t)) z
  | .fin s m e, .fin t n d =>
    match fDecode f z with
    | .nan => (fNan f, 0)
    | .inf u => (fInf f u, 0)
    | .fin u k c =>
      let r := addExact .rne (s != t) (m * n) (e + d) u k c
      fRound f .rne false r.1 r.2.1 r.2.2

/-- m / n as a magnitude with a sticky low bit, enough bits for one correct rounding. -/
def divSticky (m n : Nat) (k : Nat) : Nat :=
  let q := (m <<< k) / n
  2 * q + (if (m <<< k) % n = 0 then 0 else 1)

/-- Division, correctly rounded (R203, R280). -/
def fDiv (f : Fmt) (x y : Nat) : Nat × Word :=
  match fDecode f x, fDecode f y with
  | .nan, _ => (fNan f, 0)
  | _, .nan => (fNan f, 0)
  | .inf _, .inf _ => (fNan f, flInv)
  | .inf s, .fin t _ _ => (fInf f (s != t), 0)
  | .fin s _ _, .inf t => (fmtSign f (s != t), 0)
  | .fin s m e, .fin t n d =>
    if n = 0 then (if m = 0 then (fNan f, flInv) else (fInf f (s != t), flDz))
    else
      let k := 2 * f.fbits + 8
      fRound f .rne false (s != t) (divSticky m n k) (e - d - (k : Int) - 1)

/-- Integer square root by bits, `n` of them: the largest r < 2^n, built up from `r`, whose square is at most x. -/
def isqrtFrom : Nat → Nat → Nat → Nat
  | 0, _, r => r
  | n + 1, x, r => isqrtFrom n x (if (r + 2 ^ n) * (r + 2 ^ n) ≤ x then r + 2 ^ n else r)

/-- The integer square root. -/
def isqrt (x : Nat) : Nat := isqrtFrom (Nat.log2 x / 2 + 1) x 0

/-- Square root, correctly rounded (R203). -/
def fSqrt (f : Fmt) (x : Nat) : Nat × Word :=
  match fDecode f x with
  | .nan => (fNan f, 0)
  | .inf s => if s then (fNan f, flInv) else (fInf f false, 0)
  | .fin s m e =>
    if m = 0 then (fmtSign f s, 0)
    else if s then (fNan f, flInv)
    else
      let k := 2 * f.fbits + 8
      let odd := e % 2 = 1
      let m2 := (if odd then 2 * m else m) <<< (2 * k)
      let e2 : Int := if odd then (e - 1) / 2 else e / 2
      let r := isqrt m2
      fRound f .rne false false (2 * r + (if r * r = m2 then 0 else 1)) (e2 - (k : Int) - 1)

/-- An exact finite value compared with another: does the first lie below the second? -0 equals +0. -/
def ltExact (s1 : Bool) (m1 : Nat) (e1 : Int) (s2 : Bool) (m2 : Nat) (e2 : Int) : Bool :=
  let e := min e1 e2
  let a : Int := ((m1 <<< (e1 - e).toNat : Nat) : Int)
  let b : Int := ((m2 <<< (e2 - e).toNat : Nat) : Int)
  decide ((if s1 then -a else a) < (if s2 then -b else b))

/-- The order of two patterns that are no NaN: less, equal by value. -/
def fLt (f : Fmt) (x y : Nat) : Bool :=
  match fDecode f x, fDecode f y with
  | .inf s, .inf t => s && !t
  | .inf s, .fin _ _ _ => s
  | .fin _ _ _, .inf t => !t
  | .fin s m e, .fin t n d => ltExact s m e t n d
  | _, _ => false

/-- Is the pattern a NaN? -/
def fIsNan (f : Fmt) (x : Nat) : Bool := fDecode f x == .nan

/-- Is the pattern a NaN or an infinity of its format (R118)? -/
def fSpecial (f : Fmt) (x : Nat) : Bool :=
  match fDecode f x with
  | .fin _ _ _ => false
  | _ => true

/-- Is the pattern's value zero? -/
def fIsZero (f : Fmt) (x : Nat) : Bool :=
  match fDecode f x with
  | .fin _ m _ => m = 0
  | _ => false

/-- Equal by value; -0 equals +0 (R194). -/
def fEq (f : Fmt) (x y : Nat) : Bool :=
  !fIsNan f x && !fIsNan f y && !fLt f x y && !fLt f y x

/-- Below, with -0 below +0: the order of min and max (R194, R214). -/
def fBelow (f : Fmt) (x y : Nat) : Bool :=
  fLt f x y || (fIsZero f x && fIsZero f y && bit x (f.ebits + f.fbits) && !bit y (f.ebits + f.fbits))

/-- The lesser (R214); no flag. -/
def fMin (f : Fmt) (x y : Nat) : Nat :=
  if fIsNan f x then (if fIsNan f y then fNan f else y)
  else if fIsNan f y then x
  else if fBelow f y x then y else x

/-- The greater (R214); no flag. -/
def fMax (f : Fmt) (x y : Nat) : Nat :=
  if fIsNan f x then (if fIsNan f y then fNan f else y)
  else if fIsNan f y then x
  else if fBelow f x y then y else x

/-- Float to float (R197, R199): the infinite source and the NaN have their own rules. -/
def fToF (src dst : Fmt) (mode : Rnd) (sat : Bool) (x : Nat) : Nat × Word :=
  match fDecode src x with
  | .nan => (fNan dst, 0)
  | .inf s =>
    if sat then (fMaxFin dst s, flOf ||| flNx)
    else if dst.e4m3 then (fNan dst, flInv) else (fInf dst s, 0)
  | .fin s m e => fRound dst mode sat s m e

/-- The exact pairs of the first row of R199 ignore the rounding code, SAT included. -/
def fWiden (src dst : Fmt) (x : Nat) : Nat × Word :=
  match fDecode src x with
  | .nan => (fNan dst, 0)
  | .inf s => (fInf dst s, 0)
  | .fin s m e => fRound dst .rne false s m e

/-- Float to integer of `w` bits (R199). The result is the low w bits. -/
def fToI (src : Fmt) (w : Nat) (signed : Bool) (mode : Rnd) (sat : Bool) (x : Nat) : Nat × Word :=
  let lo : Int := if signed then -(2 ^ (w - 1) : Int) else 0
  let hi : Int := if signed then (2 ^ (w - 1) : Int) - 1 else (2 ^ w : Int) - 1
  let enc (v : Int) : Nat := (v % (2 ^ w : Int)).toNat
  let bad : Nat := enc lo
  match fDecode src x with
  | .nan => (if sat then 0 else bad, flInv)
  | .inf s => (if sat then enc (if s then lo else hi) else bad, flInv)
  | .fin s m e =>
    let r := roundAt mode s m e 0
    let v : Int := if s then -(r.1 : Int) else (r.1 : Int)
    if lo ≤ v ∧ v ≤ hi then (enc v, if r.2 then 0 else flNx)
    else (if sat then enc (if s then lo else hi) else bad, flInv)

/-- The integer value of the low w bits of a pattern. -/
def intVal (w : Nat) (signed : Bool) (x : Nat) : Int :=
  let y := x % 2 ^ w
  if signed && bit y (w - 1) then (y : Int) - (2 ^ w : Int) else (y : Int)

/-- Integer to float (R199). -/
def iToF (w : Nat) (signed : Bool) (dst : Fmt) (mode : Rnd) (sat : Bool) (x : Nat) : Nat × Word :=
  let v := intVal w signed x
  fRound dst mode sat (decide (v < 0)) v.natAbs 0

/-- Integer to a narrower integer, or between signed and natural (R199): clamped with OF under SAT, else the low bits. -/
def iToI (w : Nat) (signed : Bool) (w2 : Nat) (signed2 : Bool) (sat : Bool) (x : Nat) : Nat × Word :=
  let v := intVal w signed x
  let lo : Int := if signed2 then -(2 ^ (w2 - 1) : Int) else 0
  let hi : Int := if signed2 then (2 ^ (w2 - 1) : Int) - 1 else (2 ^ w2 : Int) - 1
  if sat then
    if v < lo then ((lo % (2 ^ w2 : Int)).toNat, flOf)
    else if hi < v then ((hi % (2 ^ w2 : Int)).toNat, flOf)
    else ((v % (2 ^ w2 : Int)).toNat, 0)
  else ((v % (2 ^ w2 : Int)).toNat, 0)

/-- 128 × L(c), the level table of R200. -/
def q4Level (c : Nat) : Int :=
  match c % 16 with
  | 0 => -128 | 1 => -91 | 2 => -69 | 3 => -53 | 4 => -40 | 5 => -28 | 6 => -16 | 7 => -5
  | 8 => 5 | 9 => 16 | 10 => 28 | 11 => 40 | 12 => 53 | 13 => 69 | 14 => 91 | _ => 128

/-- One Q4N element outside the array (R200, R201): L(c) × S × (m + 1) / 256 rounded once to FP32. -/
def q4Decode (c m S : Nat) : Nat × Word :=
  let l := q4Level c
  match fDecode f32 S with
  | .nan => (fNan f32, 0)
  | .inf s => (fInf f32 (s != decide (l < 0)), 0)
  | .fin s k e => fRound f32 .rne false (s != decide (l < 0)) (l.natAbs * k * (m % 256 + 1)) (e - 15)

end Sys2Proof.Machine
end

