-- ==== Sys2Proof/Config.lean ====
section
/-! DEFINITION. What an implementation fixes, and the values the specification leaves open. Every opaque constant
here has no body: nothing can be proved of its value, so a claim holds whatever it is (notes/assumptions/7.md). -/

namespace Sys2Proof.Config

/-- R170: the value that a read inside a lookahead window gives is the old one (true) or the new one, for each lane
independently. Arguments: the free counter, the operand's field position, the register code, the lane. -/
opaque windowOld : Nat → Nat → Nat → Nat → Bool

/-- R74: which of several maximal writes a plain load of one byte returns. Arguments: the free counter, the byte's
key, the lane. -/
opaque plainChoice : Nat → Nat → Nat → Nat

/-- R78, R90: a write that is on its way has not reached its home (true) when a strong access of another agent is performed
there. Arguments: the free counter and the write's event. -/
opaque stillAway : Nat → Nat → Bool

/-- R78, R80: a write that is on its way arrives at its home in this step, as by write-back. Arguments: the free counter and the
write's event. -/
opaque arrivesNow : Nat → Nat → Bool

/-- R5, R77, R128: a byte the manual calls undefined. Arguments: the free counter and the byte's key. -/
opaque undefByte : Nat → Nat → Byte

/-- R297: the byte that a copy with overlapping source and destination takes. Arguments: the free counter and the
offset; true takes the value before the command's own writes. -/
opaque overlapOld : Nat → Nat → Bool

/-- R135, R153: the block that step 2 of a splice takes for x where no step 1 of this group took one. Argument: the
free counter. -/
opaque spliceBlock : Nat → Nat

/-- R269: how many of the steps on key/value structures an instruction that is not ordered with them sees. Arguments: the free counter and
the instruction's progress point. -/
opaque structCut : Nat → Nat → Nat

/-- R135, R128: the REF of a listed block at 0xFFFF after a splice adds 1 (notes/assumptions/107.md). Argument: the free counter; taken
modulo 2^16. -/
opaque refOver : Nat → Nat

/-- R109, R319: a cached translation that differs from the page tables is still held (true) or has been dropped.
Arguments: the free counter and the virtual page. -/
opaque tlbHeld : Nat → Nat → Bool

/-- R398: a plain load is counted at the fabric port (true) or is served by a copy. Arguments: the free counter
and the sector. -/
opaque plainCrosses : Nat → Nat → Bool

/-- R174: the count that SEQCNT holds after a write of one outside its range. Arguments: the value written and the field's
first bit; taken modulo the range. -/
opaque seqCount : Nat → Nat → Nat

/-- R382: the source that the error log gives for a double fault, which is none of the sources that the manual lists. -/
opaque doubleFaultSource : Byte

/-- R383: where the checkpoint puts section i, and the physical base that the manifest gives for it. -/
opaque sectionOffset : Nat → Nat
/-- R383: the physical base of section i. -/
opaque sectionBase : Nat → Nat

/-- R75, R151, R363: the answer of a load is still in flight. Arguments: the free counter, the load's key, the
lane. -/
opaque inFlight : Nat → Nat → Nat → Bool

/-- R377: the credits for which a Sprinvin link loop is trained. Argument: the port. -/
opaque linkCredits : Nat → Nat

/-- R373: how many entries an array class has, less one. -/
opaque arraySize : Nat → Nat

/-- R368, R382: where firmware puts the error log and the self-test's node table, and the log's size (4 to 12). -/
opaque firmwarePage : Nat → Nat

/-- R374: the region that a directory, filter or home-lookup entry covers holds a key. Arguments: the entry's place, the key. -/
opaque covered : Nat → Nat → Bool

/-- How many aclk pass, beyond one, from one step to the next (R7). Argument: the free counter. -/
opaque aclkStep : Nat → Nat

/-- How many nanoseconds of 1588 time pass from one step to the next (R317). Argument: the free counter. -/
opaque nsStep : Nat → Nat

/-- R203: the bits that vrcp returns where the result is not one of the exact cases. Its bound is applied by the
instruction. -/
opaque vrcpBits : Word → Word
/-- R203: the bits of vrsq. -/
opaque vrsqBits : Word → Word
/-- R203: the bits of vexp2. -/
opaque vexp2Bits : Word → Word
/-- R203: the bits of vlog2. -/
opaque vlog2Bits : Word → Word
/-- R203: the bits of vtrig.sinpi. -/
opaque vsinpiBits : Word → Word
/-- R203: the bits of vtrig.cospi. -/
opaque vcospiBits : Word → Word

/-- The digest function SM3, which the manual names and does not define (R370, R371, R383). Bytes in, 32 bytes out as one
number, byte 0 lowest. -/
opaque sm3 : List Byte → Nat

/-- R370: SM2 verification of a 64-byte signature by a 64-byte key over a digest. Arguments: key, digest, signature. -/
opaque sm2Verify : List Byte → Nat → List Byte → Bool

/-- R371: the SM2 signature by the identity key over a digest. Arguments: identity seed, digest. -/
opaque sm2Sign : Nat → Nat → Nat

/-- R371: the SM2 public key, x then y, of the identity seed. -/
opaque identityKey : Nat → Nat

end Sys2Proof.Config
end

