-- ==== Sys2Proof/Syntax.lean ====
section
/-! DEFINITION. The syntax of GWY-ZD480-A2: one constructor for every row of the opcode table. The first 264 are
the encoded words, each holding the fields of its format (R162, R183, R186). The other 88 are the steps of the device
that no word encodes; what they hold comes from outside the machine or says which of several things moves. -/

namespace Sys2Proof

/-- The next-address selector (R12; the code of each is the order in which R160 and R176 list them). -/
inductive Nas
  | seq | loop | bt | bf | jmp | call | ret | stop
deriving DecidableEq, Repr

/-- A register code of six bits (R163). -/
abbrev RegCode := BitVec 6

/-- Formats LR and GR (R162). -/
structure FmtR where
  nas : Nas
  d : RegCode
  a : RegCode
  b : RegCode
  x : BitVec 3
deriving DecidableEq, Repr

/-- Formats LI and GI (R162). -/
structure FmtI where
  nas : Nas
  d : RegCode
  a : RegCode
  imm : BitVec 9
deriving DecidableEq, Repr

/-- Formats LM and GM (R162). -/
structure FmtM where
  nas : Nas
  d : RegCode
  a : RegCode
  la : BitVec 4
  off : BitVec 5
deriving DecidableEq, Repr

/-- Formats LA and GA (R162). -/
structure FmtA where
  nas : Nas
  d : RegCode
  a : RegCode
  la : BitVec 4
  scope : BitVec 3
  ord : BitVec 2
deriving DecidableEq, Repr

/-- Format LX (R162). The first two fields are the A-base and the B-base. -/
structure FmtX where
  nas : Nas
  a : RegCode
  b : RegCode
  tile : BitVec 3
  stream : BitVec 2
  la : BitVec 4
deriving DecidableEq, Repr

/-- Format GE (R162). -/
structure FmtE where
  nas : Nas
  d : RegCode
  a : RegCode
  la : BitVec 4
  c : BitVec 5
deriving DecidableEq, Repr

/-- Format GW (R162). -/
structure FmtW where
  nas : Nas
  d : RegCode
  imm : BitVec 15
deriving DecidableEq, Repr

/-- Format GH (R162): d names a k register directly. -/
structure FmtH where
  nas : Nas
  d : BitVec 4
  imm : BitVec 17
deriving DecidableEq, Repr

/-- Format GT (R162). -/
structure FmtT where
  nas : Nas
  imm : BitVec 21
deriving DecidableEq, Repr

/-- What a start finds of the hardware (R366, R367): the step at which that fails (0: none), how many aclk each unit of the order
takes, once powered, until its rails are in regulation, and the PKGIDs of the peers that the ports find. -/
structure Hardware where
  broken : Nat
  rails : List Nat
  links : List Nat
deriving DecidableEq, Repr

/-- What a coordinator held of its group (R389): the level and since when, in nanoseconds of TNOW, its announcements (level, instant,
number), the latest first, and the members with their requests. -/
structure GroupHeld where
  level : Nat
  since : Nat
  sent : List (Nat × Nat × Nat)
  members : List (Nat × Nat)
deriving DecidableEq, Repr

/-- What the ECC of an array entry shows (R374). -/
inductive ArrayError
  | none
  | correctable
  | uncorrectable
deriving DecidableEq, Repr

/-- An entry of an on-chip array (R373). Whose it is, and whether it is a clean copy, the state says. -/
inductive ArrayEntryAt
  /-- A register of a context. -/
  | register (vf ident : Nat)
  /-- A tile of a context. -/
  | tile (vf ident : Nat)
  /-- A line of an instruction cache. -/
  | code (sector : Nat)
  /-- A line of an L1 (level 1), an L2 (level 2) or the Tundish (level 3), by the number of its 64-byte sector. -/
  | line (level sector : Nat)
  /-- A byte of a vault, by its location key. -/
  | vault (key : Nat)
  /-- The entry of the side logs of this number. -/
  | logged (n : Nat)
  /-- The cached translation of this number. -/
  | translation (n : Nat)
  /-- A byte of a page's duplicate, by its location key. -/
  | copy (key : Nat)
  /-- An entry of a directory, filter or home-lookup table. -/
  | directory (at_ : Nat)
  /-- An entry of the hub's tables or of another array of device state, in a unit. -/
  | device (unit at_ : Nat)
deriving DecidableEq, Repr

/-- Every operation of the part, one constructor for each row of the opcode table, in its order. -/
inductive Instr
  /-- VADD (R208). -/
  | vadd (f : FmtR)
  /-- VSUB (R208). -/
  | vsub (f : FmtR)
  /-- VMUL (R208). -/
  | vmul (f : FmtR)
  /-- VMULHS (R208). -/
  | vmulhs (f : FmtR)
  /-- VMULHN (R208). -/
  | vmulhn (f : FmtR)
  /-- VMINS (R208). -/
  | vmins (f : FmtR)
  /-- VMINN (R208). -/
  | vminn (f : FmtR)
  /-- VMAXS (R208). -/
  | vmaxs (f : FmtR)
  /-- VMAXN (R208). -/
  | vmaxn (f : FmtR)
  /-- VAND (R208). -/
  | vand (f : FmtR)
  /-- VOR (R208). -/
  | vor (f : FmtR)
  /-- VXOR (R208). -/
  | vxor (f : FmtR)
  /-- VSHL (R208). -/
  | vshl (f : FmtR)
  /-- VSHR (R208). -/
  | vshr (f : FmtR)
  /-- VSAR (R208). -/
  | vsar (f : FmtR)
  /-- VSEL (R208). -/
  | vsel (f : FmtR)
  /-- VADD64 (R209). -/
  | vadd64 (f : FmtR)
  /-- VSUB64 (R209). -/
  | vsub64 (f : FmtR)
  /-- VCLZ (R210). -/
  | vclz (f : FmtR)
  /-- VPOPC (R210). -/
  | vpopc (f : FmtR)
  /-- VBFX (R210). -/
  | vbfx (f : FmtR)
  /-- VBFI (R210). -/
  | vbfi (f : FmtR)
  /-- VADDI (R211). -/
  | vaddi (f : FmtI)
  /-- VANDI (R211). -/
  | vandi (f : FmtI)
  /-- VORI (R211). -/
  | vori (f : FmtI)
  /-- VXORI (R211). -/
  | vxori (f : FmtI)
  /-- VSHLI (R211). -/
  | vshli (f : FmtI)
  /-- VSHRI (R211). -/
  | vshri (f : FmtI)
  /-- VSARI (R211). -/
  | vsari (f : FmtI)
  /-- VMOVI (R211). -/
  | vmovi (f : FmtI)
  /-- VCMPS (R212). -/
  | vcmps (f : FmtR)
  /-- VCMPN (R212). -/
  | vcmpn (f : FmtR)
  /-- VFADD (R213). -/
  | vfadd (f : FmtR)
  /-- VFSUB (R213). -/
  | vfsub (f : FmtR)
  /-- VFMUL (R213). -/
  | vfmul (f : FmtR)
  /-- VFMA (R213). -/
  | vfma (f : FmtR)
  /-- VFMIN (R214). -/
  | vfmin (f : FmtR)
  /-- VFMAX (R214). -/
  | vfmax (f : FmtR)
  /-- VFCMP (R215). -/
  | vfcmp (f : FmtR)
  /-- VMOP (R216). -/
  | vmop (f : FmtR)
  /-- VHADD_BF16X2 (R217). -/
  | vhaddBf16x2 (f : FmtR)
  /-- VHADD_F16X2 (R217). -/
  | vhaddF16x2 (f : FmtR)
  /-- VHMUL_BF16X2 (R217). -/
  | vhmulBf16x2 (f : FmtR)
  /-- VHMUL_F16X2 (R217). -/
  | vhmulF16x2 (f : FmtR)
  /-- VHFMA_BF16X2 (R217). -/
  | vhfmaBf16x2 (f : FmtR)
  /-- VHFMA_F16X2 (R217). -/
  | vhfmaF16x2 (f : FmtR)
  /-- VFSGN_BF16X2 (R217). -/
  | vfsgnBf16x2 (f : FmtR)
  /-- VFSGN_F16X2 (R217). -/
  | vfsgnF16x2 (f : FmtR)
  /-- VRCP (R218). -/
  | vrcp (f : FmtR)
  /-- VRSQ (R218). -/
  | vrsq (f : FmtR)
  /-- VSQRT (R218). -/
  | vsqrt (f : FmtR)
  /-- VEXP2 (R218). -/
  | vexp2 (f : FmtR)
  /-- VLOG2 (R218). -/
  | vlog2 (f : FmtR)
  /-- VTRIG_SINPI (R218). -/
  | vtrigSinpi (f : FmtR)
  /-- VTRIG_COSPI (R218). -/
  | vtrigCospi (f : FmtR)
  /-- VCVT (R219). -/
  | vcvt (f : FmtR)
  /-- VPK (R220). -/
  | vpk (f : FmtR)
  /-- VQ4DEC (R221). -/
  | vq4dec (f : FmtR)
  /-- VSHFL (R222). -/
  | vshfl (f : FmtR)
  /-- VSHFLX (R222). -/
  | vshflx (f : FmtR)
  /-- VLANE (R222). -/
  | vlane (f : FmtR)
  /-- VRED (R223). -/
  | vred (f : FmtR)
  /-- VSCAN (R224). -/
  | vscan (f : FmtR)
  /-- VVOTE (R225). -/
  | vvote (f : FmtR)
  /-- VLD_GL_S8 (R232). -/
  | vldGlS8 (f : FmtM)
  /-- VLD_GL_N8 (R232). -/
  | vldGlN8 (f : FmtM)
  /-- VLD_GL_S16 (R232). -/
  | vldGlS16 (f : FmtM)
  /-- VLD_GL_N16 (R232). -/
  | vldGlN16 (f : FmtM)
  /-- VLD_GL_N32 (R232). -/
  | vldGlN32 (f : FmtM)
  /-- VLD_GL_N64 (R232). -/
  | vldGlN64 (f : FmtM)
  /-- VLD_GL_N128 (R232). -/
  | vldGlN128 (f : FmtM)
  /-- VPRF (R239). -/
  | vprf (f : FmtM)
  /-- VLD_VT_N8 (R232). -/
  | vldVtN8 (f : FmtM)
  /-- VLD_VT_N16 (R232). -/
  | vldVtN16 (f : FmtM)
  /-- VLD_VT_N32 (R232). -/
  | vldVtN32 (f : FmtM)
  /-- VLD_VT_N64 (R232). -/
  | vldVtN64 (f : FmtM)
  /-- VLD_VT_N128 (R232). -/
  | vldVtN128 (f : FmtM)
  /-- VKVLD (R258). -/
  | vkvld (f : FmtM)
  /-- VDEV (R256). -/
  | vdev (f : FmtR)
  /-- VST_GL_N8 (R232). -/
  | vstGlN8 (f : FmtM)
  /-- VST_GL_N16 (R232). -/
  | vstGlN16 (f : FmtM)
  /-- VST_GL_N32 (R232). -/
  | vstGlN32 (f : FmtM)
  /-- VST_GL_N64 (R232). -/
  | vstGlN64 (f : FmtM)
  /-- VST_GL_N128 (R232). -/
  | vstGlN128 (f : FmtM)
  /-- VST_VT_N8 (R232). -/
  | vstVtN8 (f : FmtM)
  /-- VST_VT_N16 (R232). -/
  | vstVtN16 (f : FmtM)
  /-- VST_VT_N32 (R232). -/
  | vstVtN32 (f : FmtM)
  /-- VST_VT_N64 (R232). -/
  | vstVtN64 (f : FmtM)
  /-- VST_VT_N128 (R232). -/
  | vstVtN128 (f : FmtM)
  /-- VLDS_GL_N8 (R233). -/
  | vldsGlN8 (f : FmtA)
  /-- VLDS_GL_N16 (R233). -/
  | vldsGlN16 (f : FmtA)
  /-- VLDS_GL_N32 (R233). -/
  | vldsGlN32 (f : FmtA)
  /-- VLDS_GL_N64 (R233). -/
  | vldsGlN64 (f : FmtA)
  /-- VLDS_GL_N128 (R233). -/
  | vldsGlN128 (f : FmtA)
  /-- VLDS_VT_N32 (R233). -/
  | vldsVtN32 (f : FmtA)
  /-- VSTS_GL_N8 (R233). -/
  | vstsGlN8 (f : FmtA)
  /-- VSTS_GL_N16 (R233). -/
  | vstsGlN16 (f : FmtA)
  /-- VSTS_GL_N32 (R233). -/
  | vstsGlN32 (f : FmtA)
  /-- VSTS_GL_N64 (R233). -/
  | vstsGlN64 (f : FmtA)
  /-- VSTS_GL_N128 (R233). -/
  | vstsGlN128 (f : FmtA)
  /-- VSTS_VT_N32 (R233). -/
  | vstsVtN32 (f : FmtA)
  /-- VXCHG_N32 (R235). -/
  | vxchgN32 (f : FmtA)
  /-- VXCHG_N64 (R235). -/
  | vxchgN64 (f : FmtA)
  /-- VCAS_N32 (R235). -/
  | vcasN32 (f : FmtA)
  /-- VCAS_N64 (R235). -/
  | vcasN64 (f : FmtA)
  /-- VATOM_ADD_N32 (R235). -/
  | vatomAddN32 (f : FmtA)
  /-- VATOM_ADD_N64 (R235). -/
  | vatomAddN64 (f : FmtA)
  /-- VATOM_ADD_F32 (R237). -/
  | vatomAddF32 (f : FmtA)
  /-- VATOM_AND_N32 (R235). -/
  | vatomAndN32 (f : FmtA)
  /-- VATOM_OR_N32 (R235). -/
  | vatomOrN32 (f : FmtA)
  /-- VATOM_XOR_N32 (R235). -/
  | vatomXorN32 (f : FmtA)
  /-- VATOM_MIN_S32 (R235). -/
  | vatomMinS32 (f : FmtA)
  /-- VATOM_MIN_N32 (R235). -/
  | vatomMinN32 (f : FmtA)
  /-- VATOM_MAX_S32 (R235). -/
  | vatomMaxS32 (f : FmtA)
  /-- VATOM_MAX_N32 (R235). -/
  | vatomMaxN32 (f : FmtA)
  /-- VRED_M_ADD_N32 (R236). -/
  | vredMAddN32 (f : FmtA)
  /-- VRED_M_ADD_N64 (R236). -/
  | vredMAddN64 (f : FmtA)
  /-- VRED_M_ADD_F32 (R236). -/
  | vredMAddF32 (f : FmtA)
  /-- VRED_M_MIN_S32 (R236). -/
  | vredMMinS32 (f : FmtA)
  /-- VRED_M_MAX_S32 (R236). -/
  | vredMMaxS32 (f : FmtA)
  /-- VMMQ (R251). -/
  | vmmq (f : FmtX)
  /-- VWLD (R253). -/
  | vwld (f : FmtR)
  /-- VACCRD (R254). -/
  | vaccrd (f : FmtX)
  /-- VACCWR (R255). -/
  | vaccwr (f : FmtX)
  /-- VACCZ (R255). -/
  | vaccz (f : FmtX)
  /-- VWMARK (R254). -/
  | vwmark (f : FmtX)
  /-- GADD (R276). -/
  | gadd (f : FmtR)
  /-- GSUB (R276). -/
  | gsub (f : FmtR)
  /-- GMUL (R276). -/
  | gmul (f : FmtR)
  /-- GMULH (R276). -/
  | gmulh (f : FmtR)
  /-- GDIV (R276). -/
  | gdiv (f : FmtR)
  /-- GREM (R276). -/
  | grem (f : FmtR)
  /-- GMIN (R276). -/
  | gmin (f : FmtR)
  /-- GMAX (R276). -/
  | gmax (f : FmtR)
  /-- GAND (R276). -/
  | gand (f : FmtR)
  /-- GOR (R276). -/
  | gor (f : FmtR)
  /-- GXOR (R276). -/
  | gxor (f : FmtR)
  /-- GSHL (R276). -/
  | gshl (f : FmtR)
  /-- GSHR (R276). -/
  | gshr (f : FmtR)
  /-- GSAR (R276). -/
  | gsar (f : FmtR)
  /-- GCLZ (R276). -/
  | gclz (f : FmtR)
  /-- GPOPC (R276). -/
  | gpopc (f : FmtR)
  /-- GBFX (R276). -/
  | gbfx (f : FmtR)
  /-- GBFI (R276). -/
  | gbfi (f : FmtR)
  /-- GADD64 (R277). -/
  | gadd64 (f : FmtR)
  /-- GSUB64 (R277). -/
  | gsub64 (f : FmtR)
  /-- GMUL64 (R277). -/
  | gmul64 (f : FmtR)
  /-- GCMP (R278). -/
  | gcmp (f : FmtR)
  /-- GSEL (R278). -/
  | gsel (f : FmtR)
  /-- GADDI (R279). -/
  | gaddi (f : FmtI)
  /-- GANDI (R279). -/
  | gandi (f : FmtI)
  /-- GORI (R279). -/
  | gori (f : FmtI)
  /-- GXORI (R279). -/
  | gxori (f : FmtI)
  /-- GSHLI (R279). -/
  | gshli (f : FmtI)
  /-- GSHRI (R279). -/
  | gshri (f : FmtI)
  /-- GSARI (R279). -/
  | gsari (f : FmtI)
  /-- GMOVI (R279). -/
  | gmovi (f : FmtW)
  /-- GMOVHI (R279). -/
  | gmovhi (f : FmtH)
  /-- GADDPC (R279). -/
  | gaddpc (f : FmtH)
  /-- GFADD (R280). -/
  | gfadd (f : FmtR)
  /-- GFSUB (R280). -/
  | gfsub (f : FmtR)
  /-- GFMUL (R280). -/
  | gfmul (f : FmtR)
  /-- GFMA (R280). -/
  | gfma (f : FmtR)
  /-- GFDIV (R280). -/
  | gfdiv (f : FmtR)
  /-- GFSQRT (R280). -/
  | gfsqrt (f : FmtR)
  /-- GFMNX (R281). -/
  | gfmnx (f : FmtR)
  /-- GFCVT (R282). -/
  | gfcvt (f : FmtR)
  /-- GFCMP (R281). -/
  | gfcmp (f : FmtR)
  /-- GTGT (R283). -/
  | gtgt (f : FmtT)
  /-- GTGTR (R283). -/
  | gtgtr (f : FmtR)
  /-- GLOOP (R284). -/
  | gloop (f : FmtR)
  /-- GLOOPI (R284). -/
  | gloopi (f : FmtH)
  /-- GBRK (R284). -/
  | gbrk (f : FmtR)
  /-- GLD_GL_N32 (R287). -/
  | gldGlN32 (f : FmtM)
  /-- GLD_GL_N64 (R287). -/
  | gldGlN64 (f : FmtM)
  /-- GLD_VT_N32 (R287). -/
  | gldVtN32 (f : FmtM)
  /-- GLD_VT_N64 (R287). -/
  | gldVtN64 (f : FmtM)
  /-- GST_GL_N32 (R287). -/
  | gstGlN32 (f : FmtM)
  /-- GST_GL_N64 (R287). -/
  | gstGlN64 (f : FmtM)
  /-- GST_VT_N32 (R287). -/
  | gstVtN32 (f : FmtM)
  /-- GST_VT_N64 (R287). -/
  | gstVtN64 (f : FmtM)
  /-- GLDS_GL_N32 (R287). -/
  | gldsGlN32 (f : FmtA)
  /-- GLDS_GL_N64 (R287). -/
  | gldsGlN64 (f : FmtA)
  /-- GLDS_VT_N32 (R287). -/
  | gldsVtN32 (f : FmtA)
  /-- GSTS_GL_N32 (R287). -/
  | gstsGlN32 (f : FmtA)
  /-- GSTS_GL_N64 (R287). -/
  | gstsGlN64 (f : FmtA)
  /-- GSTS_VT_N32 (R287). -/
  | gstsVtN32 (f : FmtA)
  /-- GFENCE (R288). -/
  | gfence (f : FmtA)
  /-- GPRF (R289). -/
  | gprf (f : FmtM)
  /-- GATOM_ADD_N32 (R287). -/
  | gatomAddN32 (f : FmtA)
  /-- GATOM_ADD_N64 (R287). -/
  | gatomAddN64 (f : FmtA)
  /-- GATOM_AND_N32 (R287). -/
  | gatomAndN32 (f : FmtA)
  /-- GATOM_OR_N32 (R287). -/
  | gatomOrN32 (f : FmtA)
  /-- GATOM_XOR_N32 (R287). -/
  | gatomXorN32 (f : FmtA)
  /-- GATOM_MIN_S32 (R287). -/
  | gatomMinS32 (f : FmtA)
  /-- GATOM_MIN_N32 (R287). -/
  | gatomMinN32 (f : FmtA)
  /-- GATOM_MAX_S32 (R287). -/
  | gatomMaxS32 (f : FmtA)
  /-- GATOM_MAX_N32 (R287). -/
  | gatomMaxN32 (f : FmtA)
  /-- GCAS_N32 (R287). -/
  | gcasN32 (f : FmtA)
  /-- GCAS_N64 (R287). -/
  | gcasN64 (f : FmtA)
  /-- GQPUSH (R294). -/
  | gqpush (f : FmtE)
  /-- GQPOP (R294). -/
  | gqpop (f : FmtE)
  /-- GQTRY_POP (R294). -/
  | gqtryPop (f : FmtE)
  /-- GQTRY_PUSH (R294). -/
  | gqtryPush (f : FmtE)
  /-- GBAR (R295). -/
  | gbar (f : FmtE)
  /-- GBARM (R296). -/
  | gbarm (f : FmtE)
  /-- GBWAIT (R296). -/
  | gbwait (f : FmtE)
  /-- GBADD (R296). -/
  | gbadd (f : FmtE)
  /-- GCOPY (R297). -/
  | gcopy (f : FmtE)
  /-- GCOPY_FILL (R297). -/
  | gcopyFill (f : FmtE)
  /-- GGATHER (R298). -/
  | ggather (f : FmtE)
  /-- GSCATTER (R298). -/
  | gscatter (f : FmtE)
  /-- GSCATTER_ADDF (R298). -/
  | gscatterAddf (f : FmtE)
  /-- GSCATTER_ADDN (R298). -/
  | gscatterAddn (f : FmtE)
  /-- GCOLL_ALLREDUCE (R299). -/
  | gcollAllreduce (f : FmtE)
  /-- GCOLL_ALLGATHER (R299). -/
  | gcollAllgather (f : FmtE)
  /-- GCOLL_REDUCESCATTER (R299). -/
  | gcollReducescatter (f : FmtE)
  /-- GCOLL_BROADCAST (R299). -/
  | gcollBroadcast (f : FmtE)
  /-- GMFENCE (R301). -/
  | gmfence (f : FmtR)
  /-- GMWAIT (R301). -/
  | gmwait (f : FmtI)
  /-- GEWAIT (R302). -/
  | gewait (f : FmtE)
  /-- GEVPOST (R302). -/
  | gevpost (f : FmtE)
  /-- GPIN (R303). -/
  | gpin (f : FmtR)
  /-- GUNPIN (R303). -/
  | gunpin (f : FmtR)
  /-- GHINT (R303). -/
  | ghint (f : FmtR)
  /-- GWHERE (R303). -/
  | gwhere (f : FmtR)
  /-- GDUP (R303). -/
  | gdup (f : FmtR)
  /-- GSPAWN (R304). -/
  | gspawn (f : FmtR)
  /-- GCPUSH (R305). -/
  | gcpush (f : FmtR)
  /-- GCJOIN (R306). -/
  | gcjoin (f : FmtR)
  /-- GLAUNCH (R305). -/
  | glaunch (f : FmtR)
  /-- GAPON (R307). -/
  | gapon (f : FmtR)
  /-- GAPOFF (R307). -/
  | gapoff (f : FmtR)
  /-- GID (R308). -/
  | gid (f : FmtI)
  /-- GYIELD (R309). -/
  | gyield (f : FmtR)
  /-- GSPLICE (R264). -/
  | gsplice (f : FmtE)
  /-- GKVWALK (R261). -/
  | gkvwalk (f : FmtE)
  /-- GKVWALK_NODE (R261). -/
  | gkvwalkNode (f : FmtE)
  /-- GKVREF (R262). -/
  | gkvref (f : FmtE)
  /-- GKVNEW (R263). -/
  | gkvnew (f : FmtE)
  /-- GREPAIR (R265). -/
  | grepair (f : FmtE)
  /-- GREPWM (R266). -/
  | grepwm (f : FmtE)
  /-- GREPWM_ABORT (R266). -/
  | grepwmAbort (f : FmtE)
  /-- GPROV (R267). -/
  | gprov (f : FmtE)
  /-- GPROV_ENT (R267). -/
  | gprovEnt (f : FmtE)
  /-- GRING (R268). -/
  | gring (f : FmtE)
  /-- GTRAP (R313). -/
  | gtrap (f : FmtI)
  /-- GTFENCE (R152). -/
  | gtfence (f : FmtR)
  /-- GTRET (R150). -/
  | gtret (f : FmtR)
  /-- GSRR (R315). -/
  | gsrr (f : FmtI)
  /-- GSRW (R315). -/
  | gsrw (f : FmtI)
  /-- GSRX_SET (R315). -/
  | gsrxSet (f : FmtI)
  /-- GSRX_CLR (R315). -/
  | gsrxClr (f : FmtI)
  /-- GTINV (R319). -/
  | gtinv (f : FmtR)
  /-- GTSYNC (R320). -/
  | gtsync (f : FmtR)
  /-- GWAITT (R318). -/
  | gwaitt (f : FmtR)
  /-- GTIME (R318). -/
  | gtime (f : FmtI)
  /-- GSLEEP (R318). -/
  | gsleep (f : FmtI)
  /-- GECALL (R313). -/
  | gecall (f : FmtI)
  /-- GHCALL (R313). -/
  | ghcall (f : FmtI)
  /-- GCTXSV (R321). -/
  | gctxsv (f : FmtE)
  /-- GCTXSV_TARGET (R321). -/
  | gctxsvTarget (f : FmtE)
  /-- GCTXLD (R322). -/
  | gctxld (f : FmtE)
  /-- GHALT (R323). -/
  | ghalt (f : FmtR)
  /-- RESULT_RETURN (R240). -/
  | resultReturn (vf ident win : Nat)
  /-- TRAP_ENTRY (R148). -/
  | trapEntry (vf ident : Nat)
  /-- GROUP_END (R16). -/
  | groupEnd (vf ident : Nat)
  /-- RECORD_DISPATCH (R46). -/
  | recordDispatch (vf cluster : Nat)
  /-- HOLD_REACHED (R47). -/
  | holdReached (vf cluster : Nat)
  /-- GANG_ADMISSION (R50). -/
  | gangAdmission (vf cluster : Nat)
  /-- OVERFLOW_RETRY (R54). -/
  | overflowRetry (n : Nat)
  /-- GRAPH_NODE_LAUNCH (R64). -/
  | graphNodeLaunch (vf node : Nat)
  /-- DIE_LINK_LOSS (R65). -/
  | dieLinkLoss (die : Nat)
  /-- QUEUE_WAITER_SERVED (R57). -/
  | queueWaiterServed (vf ident : Nat) (other : Bool)
  /-- BARRIER_WAIT_END (R62). -/
  | barrierWaitEnd (vf ident : Nat) (other : Bool)
  /-- BYTE_BARRIER_WAIT_END (R85). -/
  | byteBarrierWaitEnd (vf ident : Nat) (other : Bool)
  /-- EVENT_WAIT_END (R302). -/
  | eventWaitEnd (vf ident : Nat) (other : Bool)
  /-- TIMED_WAIT_EXPIRY (R86). -/
  | timedWaitExpiry (vf ident : Nat) (other : Bool)
  /-- SLEEP_END (R318). -/
  | sleepEnd (vf ident : Nat) (other : Bool)
  /-- DEADLINE_REACHED (R318). -/
  | deadlineReached (vf ident : Nat) (other : Bool)
  /-- ASSAY_AUDIT (R377). -/
  | assayAudit (links : List (Nat × Nat × Nat × Nat))
  /-- LEASE_RENEWAL (R80). -/
  | leaseRenewal (sector : Nat)
  /-- ENGINE_CHUNK_COMPLETE (R85). -/
  | engineChunkComplete (cmd chunk : Nat) (peers : List (List Byte))
  /-- ARRAY_ENTRY_BEGIN (R116). -/
  | arrayEntryBegin (part : Nat)
  /-- ARRAY_ROW_WRITE (R117). -/
  | arrayRowWrite (part : Nat)
  /-- TILE_WRITE_APPLY (R255). -/
  | tileWriteApply (vf ident : Nat)
  /-- SIDE_LOG_REPLAY (R101). -/
  | sideLogReplay (core : Nat)
  /-- EPOCH_END (R96). -/
  | epochEnd (vf : Nat)
  /-- LADLE_MOVE_BEGIN (R102). -/
  | ladleMoveBegin (vf va : Nat)
  /-- MOVE_COPY_COMPLETE (R102). -/
  | moveCopyComplete (vf va : Nat)
  /-- MOVE_RETIRE (R102). -/
  | moveRetire (vf va : Nat)
  /-- DUPLICATE_CREATE (R104). -/
  | duplicateCreate (vf va : Nat)
  /-- DUP_COLLAPSE (R105). -/
  | dupCollapse (vf va : Nat)
  /-- COLLAPSE_END (R105). -/
  | collapseEnd (vf va : Nat)
  /-- LADLE_RING_ACTION (R360). -/
  | ladleRingAction (vf : Nat)
  /-- INVALIDATION_COMPLETE (R109). -/
  | invalidationComplete (n : Nat) (cut : Bool)
  /-- LAYER_JOIN_COMPLETE (R140). -/
  | layerJoinComplete (n : Nat)
  /-- QUANTUM_ROW_BOUNDARY (R355). -/
  | quantumRowBoundary
  /-- QUANTUM_TABLE_TAKE (R354). -/
  | quantumTableTake
  /-- QCTL_LOAD (R351). -/
  | qctlLoad (x : DWord)
  /-- VFCTL_WRITE (R351). -/
  | vfctlWrite (vf : Nat) (x : DWord)
  /-- SLDISC_WRITE (R101). -/
  | sldiscWrite (core vf : Nat) (x : DWord)
  /-- ADDRESS_RANGE_ENABLE (R357). -/
  | addressRangeEnable (i : Nat) (x : DWord)
  /-- POOL_RELEASE (R361). -/
  | poolRelease (win page : Nat)
  /-- POOL_RELEASE_DONE (R361). -/
  | poolReleaseDone
  /-- POOL_TAKE (R361). -/
  | poolTake (win page : Nat)
  /-- POOL_QUERY (R361). -/
  | poolQuery (win page : Nat)
  /-- EXTENT_ACTIVATE (R362). -/
  | extentActivate (i : Nat)
  /-- EXTENT_ORDERLY_RELEASE (R362). -/
  | extentOrderlyRelease (i : Nat)
  /-- EXTENT_RELEASE_ACK (R362). -/
  | extentReleaseAck (i : Nat)
  /-- FORCED_WITHDRAWAL (R108). -/
  | forcedWithdrawal (i : Nat) (dropped : List Nat)
  /-- EXTENT_FREE (R362). -/
  | extentFree (i : Nat)
  /-- PEER_DOWN (R363). -/
  | peerDown (q : Nat) (dropped : List Nat)
  /-- PEER_UP (R363). -/
  | peerUp (q pkg inc : Nat)
  /-- COLD_START (R366). -/
  | coldStart (primary backup : List Byte) (images : List (List Byte)) (hw : Hardware) (selftest : List Byte)
  /-- WARM_START (R366). -/
  | warmStart (primary backup : List Byte) (images : List (List Byte)) (hw : Hardware) (keptL : Bool) (keptH : BitVec 8) (selftest : List Byte)
  /-- UNIT_POWER_UP (R367). -/
  | unitPowerUp
  /-- ATTESTATION_REQUEST (R371). -/
  | attestationRequest (x : DWord)
  /-- ATTESTATION_REPORT (R371). -/
  | attestationReport
  /-- PCAP_WRITE (R372). -/
  | pcapWrite (x : DWord)
  /-- POWER_CAP_SAMPLE (R372). -/
  | powerCapSample (watts : Nat)
  /-- POWER_CAP_FALLBACK (R372). -/
  | powerCapFallback
  /-- THERMAL_TRIP (R372). -/
  | thermalTrip (unit temp : Nat)
  /-- SCRUB_READ (R373). -/
  | scrubRead (turn : Bool) (err : ArrayError) (at_ : ArrayEntryAt)
  /-- LINK_PACKET_CORRUPT (R375). -/
  | linkPacketCorrupt (port tries vf ident win : Nat) (lanes : Mask)
  /-- HEARTBEAT_SAMPLE (R379). -/
  | heartbeatSample
  /-- MCMD_RESUME (R381). -/
  | mcmdResume (unit : Nat)
  /-- MCMD_DISCARD (R381). -/
  | mcmdDiscard (unit : Nat)
  /-- CHECKPOINT_START (R383). -/
  | checkpointStart (finish : Bool)
  /-- RESTORE (R384). -/
  | restore
  /-- SERVO_LOCK (R317). -/
  | servoLock (t : DWord)
  /-- SENSOR_SAMPLE (R386). -/
  | sensorSample (inlet outlet : Nat) (temps0 temps1 : List Nat)
  /-- TG_REGISTER (R389). -/
  | tgRegister (die pkg mdie : Nat)
  /-- TG_REGISTER_ACK (R389). -/
  | tgRegisterAck (die pkg cdie nmem : Nat) (held : GroupHeld)
  /-- TG_WITHDRAW (R389). -/
  | tgWithdraw (die pkg mdie : Nat)
  /-- TG_REQUEST (R390). -/
  | tgRequest (die pkg mdie req : Nat)
  /-- TG_DWELL_EXPIRY (R390). -/
  | tgDwellExpiry (die : Nat)
  /-- TG_ACK_TIMEOUT (R390). -/
  | tgAckTimeout (die : Nat) (acked : List Nat)
  /-- TG_ANNOUNCEMENT (R390). -/
  | tgAnnouncement (die level at_ seq nmem : Nat)
  /-- TG_STEP_APPLY (R390). -/
  | tgStepApply (die : Nat)
  /-- TG_DETACH (R392). -/
  | tgDetach (die : Nat) (path : Bool)
  /-- TG_LOCAL_STEP (R392). -/
  | tgLocalStep (die : Nat)
  /-- TG_REGISTER_RETRY (R392). -/
  | tgRegisterRetry (die : Nat)
  /-- COUNTER_COPY (R394). -/
  | counterCopy
  /-- COUNTER_CLEAR (R394). -/
  | counterClear
  /-- REGISTER_WRITE (R173). -/
  | registerWrite (n : Nat) (x : DWord)
  /-- WORD_NOT_INSTRUCTION (R397). -/
  | wordNotInstruction (w : Word)
  /-- FETCH_TRANSLATION_FAULT (R159). -/
  | fetchTranslationFault
  /-- GRANDMASTER_LOSS (R317). -/
  | grandmasterLoss
  /-- TNOW_AGREEMENT (R317). -/
  | tnowAgreement
  /-- COLLECTIVE_MISMATCH (R299). -/
  | collectiveMismatch (cmd : Nat)
  /-- SIGNED_FUSE_COMMAND (R372). -/
  | signedFuseCommand (raise : Bool) (value : Nat) (key sig : List Byte)
deriving DecidableEq, Repr

end Sys2Proof
end

