-- ==== Sys2Proof/Machine/State.lean ====
section
/-! DEFINITION. The state of the part: plain data, one home for every register. A group context is the table of R9
with what R147 to R158 save beside it; the rest is what the other chapters of the manual hold outside the groups. -/

namespace Sys2Proof.Machine

/-! ## What stops the model -/

/-- The machine stops. -/
inductive Fault
  /-- An instruction is executed while no group issues; `word` is the cause of the first row of R154 that its word raises here.
  Raised by every encoded instruction; no step of the machine ends with it, because a step executes one only for a live group.
  Safe: it is no behaviour of the part. -/
  | noGroup (word : Option Nat)
deriving DecidableEq, Repr

/-- No meaning is given. -/
inductive Refusal
  /-- The instruction has no meaning in this model yet. Safe: the model stops. -/
  | notModelled (mnemonic : String)
deriving DecidableEq, Repr

/-! ## A group context -/

/-- The privilege modes, in rising order (00, vocabulary). -/
inductive Mode
  | usr | sup | hyp | mch
deriving DecidableEq, Repr

/-- The origin of a group (R38). -/
inductive Origin
  | record | gang | spawn | graph
deriving DecidableEq, Repr

/-- Where a context runs. Die 0 and 1 are CD0 and CD1, 2 is the scalar die. On the scalar die `core` is the scalar
core 0..47 and `num` the context number 0..95; on a compute die `num` is the context number 0..11 in its partition. -/
structure Loc where
  die : Nat
  cluster : Nat
  core : Nat
  part : Nat
  num : Nat
deriving DecidableEq, Repr

/-- Who performs an event, as far as scopes tell agents apart (R69): the group by its `uid`, 0 for an agent of the device. -/
structure Agent where
  vf : Nat
  uid : Nat
  team : Nat
  die : Nat
  cluster : Nat
deriving DecidableEq, Repr

/-- What a slot waits for; `held` is a form that is not issued and tries again (R23, R157). The others keep the word
that waits. -/
inductive Wait
  | none
  | held
  /-- A push (true) or pop at a queue home, in arrival order (R57). -/
  | queue (push : Bool) (f : FmtE)
  /-- For the flip of the team barrier word with a key after the arrival in that phase (R62, R295). -/
  | barrier (f : FmtE) (key : Nat) (phase : Bool)
  /-- For a byte barrier (R85), which had flipped `since` times when the wait began; the limit of a timed wait in aclk (R86). -/
  | flip (f : FmtE) (expiry : Option Nat) (since : Nat)
  /-- For an event word (R302). -/
  | event (f : FmtE) (expiry : Option Nat)
  /-- Until the aclk counter reaches a value (R318). -/
  | sleep (f : FmtI) (until_ : Nat)
  /-- Until TNOW reaches a deadline (R318). -/
  | deadline (f : FmtR) (t : Nat)
deriving DecidableEq, Repr

/-- A program-counter slot (R9), and what its next instruction waits for. -/
structure Slot where
  valid : Bool
  pc : Addr
  mask : Mask
  wait : Wait
deriving DecidableEq, Repr

/-- The sequencing state (R167, R168, R169): fixed entries and counts. Entry 0 is the oldest target, the bottom loop
and the oldest return address; `css` is the spilled count. -/
structure Seq where
  tq : List Addr
  tqn : Nat
  loops : List (Addr × Word)
  lsn : Nat
  calls : List Addr
  csn : Nat
  css : Nat
deriving DecidableEq, Repr

/-- An open lookahead window (R170): how many further issues it covers, the access that opened it, the registers
its results go to (register codes, 64 + i for mask mi), the values that those had (R170: a read sees the old or the
new one), the lanes that complete with 0x30 (R151), and for a load of global memory the key and the address that each lane reads; lane 32
stands for a load of the whole group. An entry of `srcs` is dropped once its load has returned (R75). `slot` is the slot that issued it,
`path` the active mask that it had and `since` the last event before it. -/
structure Window where
  left : Nat
  pc : Addr
  regs : List Nat
  old : Store Word
  gone : Mask
  goneAddr : DWord
  srcs : List (Nat × Nat × Nat)
  slot : Bool
  path : Mask
  since : Nat
deriving DecidableEq, Repr

/-- What a write publishes to an acquire that reads it (R72). -/
structure Rel where
  ids : List Nat
  scope : Nat
  agent : Agent
deriving DecidableEq, Repr

/-- What an earlier strong load read, which a later acquire fence acquires (R72). -/
structure Seen where
  rels : List Rel
  lanes : Mask
deriving DecidableEq, Repr

/-- An entry of an access queue (R32), with the writes that happen before its append (R34) and what the slice's strong loads before
it read, which an acquire fence of the group after the pop acquires (R72). -/
structure AqEntry where
  val : Word
  ids : List Nat
  seen : List Seen
deriving DecidableEq, Repr

/-- What an access processor does (R35). -/
inductive ApRun
  | running
  | ended
  | faulted (cause : Nat) (addr : DWord) (delivered : Bool)
deriving DecidableEq, Repr

/-- An attached access processor (R30, R32, R36), number 0 or 1 of its partition, 2 while the group waits for one (R36): its registers, sequencing state and queues, its own open windows (R170), and
what its strong loads read, for its acquire fences (R72). -/
structure Ap where
  num : Nat
  pc : Addr
  k : Store Word
  seq : Seq
  run : ApRun
  aq : List (List AqEntry)
  ids : List Nat
  wins : List Window
  seen : List Seen
deriving DecidableEq, Repr

/-- A cause already decided and not yet taken (R155, R158). -/
structure Pend where
  cause : Nat
  fate : Nat
  pc : Addr
  lanes : Mask
  addr : DWord
deriving DecidableEq, Repr

/-- The trap-state registers of a context (R147). TCAUSE holds HMODE in bit 14. -/
structure Trap where
  tcause : Word
  tepc0 : DWord
  tepc1 : DWord
  tmsk0 : Mask
  tmsk1 : Mask
  taddr : DWord
  tlanes : Mask
  trpc : DWord
  tscr : List Word
deriving DecidableEq, Repr

/-- A release fence before a strong write (R72): the writes it orders, its scope, the lanes it covers. -/
structure FenceRec where
  ids : List Nat
  scope : Nat
  lanes : Mask
deriving DecidableEq, Repr

/-- The weights that a group last loaded (R115): format code, and for Q4N the m and the S word of each lane. -/
structure Weights where
  fmt : Nat
  m : List Word
  s : List Word
deriving DecidableEq, Repr

/-- A tile write that waits for its conditions (R255): its place among the group's entries, its batch, whether it zeroes
the whole tile, and else the elements (row, column, value) that it writes. -/
structure TileWrite where
  tile : Nat
  seq : Nat
  batch : Nat
  zero : Bool
  elems : List (Nat × Nat × Word)
deriving DecidableEq, Repr

/-- Which context this is and to what it belongs: its VF and identifier (R349), place, origin (R38), whether it may
block (R59), its gang, its team's index in the gang, the number that tells teams apart, its index in the team, and the JOIN
of the record that it came from, 0 for none (R41, R156). `uid` tells the group apart from every other that ever ran, also when a
save and a restore give it another identifier. -/
structure Who where
  vf : Nat
  ident : Nat
  loc : Loc
  origin : Origin
  recClass : Bool
  gang : Option Nat
  team : Option Nat
  teamId : Nat
  gidx : Nat
  join : Nat
  uid : Nat
deriving DecidableEq, Repr

/-- Who accesses: VF and identifier name the page-table root, the mode the permissions. -/
structure Acc where
  vf : Nat
  ident : Nat
  mode : Mode
  die : Nat
deriving DecidableEq, Repr

/-- What orders the group's memory events (R71 to R73): write events known to lanes, and fences. -/
structure Order where
  know : List (Nat × Mask)
  relFences : List FenceRec
  seen : List Seen
deriving DecidableEq, Repr

/-- The group's part of the matrix engine: tiles held (R119) with tile t, row r, column c at 1024 t + 32 r + c; tile
writes not yet applied (R255); the current weights (R115); how many batches have closed, so that the open one is that
number modulo 16 (R87). -/
structure Matrix where
  held : Nat
  tiles : Store Word
  writes : List TileWrite
  weights : Option Weights
  batch : Nat
deriving DecidableEq, Repr

/-- A group or scalar context (R9, R27). `live` is false in a context that holds no group. -/
structure Ctx where
  live : Bool
  who : Who
  prio : Nat
  mode : Mode
  s0 : Slot
  s1 : Slot
  /-- The slot whose instruction issues: false slot 0, true slot 1. -/
  iss : Bool
  /-- v, k and m registers: lane l of vi at 32 i + l, ki at 1536 + i, mi at 1552 + i. -/
  regs : Store Word
  seq : Seq
  /-- The handler's own target queue, loop stack and call stack (R148, R149). -/
  hseq : Seq
  flags : Word
  flmask : Word
  pidx : Word
  rth : Word
  akv : Word
  dsp : DWord
  dsh : DWord
  /-- The cached top entry of the active divergence region (R18). -/
  top : Option (Addr × Mask)
  waitCnt : Nat
  /-- The aclk of the last issue; none if the group has never issued (R24). -/
  stamp : Option Nat
  trap : Trap
  pend : Option Pend
  replays : List Pend
  /-- The group's own PIDX while a handler of an engine fault sees the command's, and that command (R153). -/
  cmdFault : Option (Word × Nat)
  wins : List Window
  ap : Option Ap
  ord : Order
  /-- A side-log entry of the group was declared unresolvable (R81). -/
  unres : Bool
  mx : Matrix
  /-- The cause of fate E with which the context ends (R156). -/
  endCause : Option Nat
  /-- An access that gtret issues once more before anything else, with its lanes (R150 step 4). -/
  redo : Option (Addr × Mask)
deriving DecidableEq, Repr

/-! ## Shared state -/

/-- Where a strong store was issued, for a lane whose access may still complete with 0x30 (R151): the instruction's number and pc, its slot
and active mask, the lane, its address. -/
structure Sent where
  grp : Nat
  pc : Addr
  slot : Bool
  path : Mask
  lane : Nat
  va : Nat
deriving DecidableEq, Repr

/-- A write of one byte (R74): its event, the byte's key, its value, the events ordered before it among the writes of
the byte, when it arrived at its home if that is known (R80), its footprint if strong (first key, size; R77), who made
it at which scope, what it releases (R72), the lanes that made it after a load which has still to return (R75), how many steps on
key/value structures had been made before it (R269), and where a strong store on its way was issued. Event 0 is the initial write. Of the records of a byte that have arrived, the last is the
latest in home order. -/
structure WriteRec where
  ev : Nat
  key : Nat
  val : Byte
  preds : List Nat
  arrived : Option Nat
  strong : Option (Nat × Nat)
  agent : Option Agent
  scope : Nat
  rels : List Rel
  quiet : Mask
  turn : Nat
  sent : Option Sent
deriving DecidableEq, Repr

/-- A 64-byte sector that a plain write left to be written back across a fabric port (R96, R244): its first byte's key, who wrote
it (`uid`) with what access rights by which lanes, and the address and translation used. -/
structure DirtySector where
  sector : Nat
  uid : Nat
  vf : Nat
  ident : Nat
  mode : Mode
  die : Nat
  lanes : Mask
  va : Nat
  pa : Nat
  level : Nat
  pte : Nat
deriving DecidableEq, Repr

/-- A cached translation (R109, R231): virtual page number of a 4 KiB page and the leaf it was given, the page-table root of the walk,
and the context whose access made it while that lives. -/
structure TlbEntry where
  vf : Nat
  ident : Option Nat
  root : Nat
  vpn : Nat
  level : Nat
  pte : DWord
deriving DecidableEq, Repr

/-- How a held store is performed when it is replayed. -/
inductive LogKind
  | plain
  | strong
  /-- A reduction without return (R236), by its code. -/
  | reduce (op : Nat)
deriving DecidableEq, Repr

/-- What one event put into a side-log entry (R100): the core, its context, the unit's virtual address, bytes, mask, kind and scope,
the instruction's number, what one instruction holds of one unit being one entry (R243), and the lanes that made it after a load
which has still to return (R75); what is before it and, for a strong write, what it releases (R72). `waits` says that the page had no translation and that no gtinv of it has completed
since (R101). -/
structure LogEntry where
  core : Nat
  vf : Nat
  ident : Nat
  va : Nat
  data : List Byte
  bmask : Nat
  kind : LogKind
  scope : Nat
  grp : Nat
  quiet : Mask
  ev : Nat
  known : List Nat
  rels : List Rel
  mode : Mode
  waits : Bool
deriving DecidableEq, Repr

/-- A move of the Ladle (R102): whose page, the table entry's physical address and the value the Ladle last read or wrote there, the frames
(each of `pages` 4 KiB frames), the stack that gave the new one, and whether the withdrawal of an extent or a link loss has abandoned it
(R103). `phase` is 0 after step 1, 1 after step 2, 2 when the invalidation of step 3 is complete, 3 after step 5, and 4 when the invalidation
of step 7 is complete; `inv` numbers the invalidation under way. -/
structure Move where
  vf : Nat
  root : Nat
  va : Nat
  pteAt : Nat
  pte : DWord
  oldPfn : Nat
  newPfn : Nat
  pages : Nat
  stack : Nat
  phase : Nat
  inv : Nat
  abandoned : Bool
deriving DecidableEq, Repr

/-- The duplicates of a page of a page-table root (R104): the home frame, where its table entry is, each copy's die (2 for LPDDR-6) and
frame, and whether a collapse has begun (R105). -/
structure Dup where
  vf : Nat
  root : Nat
  va : Nat
  pteAt : Nat
  pfn : Nat
  pages : Nat
  copies : List (Nat × Nat)
  collapsing : Bool
deriving DecidableEq, Repr

/-- A proposal outstanding for a page (R97, R360): the action 1 move or 2 duplicate, tier and die of the destination; `root` is the
page-table root of the page, `asked` says that gdup or the supervisor named the action, and `ring` that the supervisor decides it by an entry of the
VF's ring. -/
structure Proposal where
  vf : Nat
  root : Nat
  va : Nat
  large : Bool
  ident : Nat
  src : Nat
  act : Nat
  tier : Nat
  die : Nat
  asked : Bool
  ring : Bool
deriving DecidableEq, Repr

/-- The footprint of the last strong access to a 64-byte sector (R77). -/
structure LastStrong where
  sector : Nat
  first : Nat
  size : Nat
  time : Nat
deriving DecidableEq, Repr

/-- What can happen next, as plain data: an issue of a context (VF and identifier) from its other slot or by its
access processor, or a step of the device. -/
inductive Act
  | issue (vf ident : Nat) (other : Bool)
  | issueAp (vf ident : Nat)
  | event (i : Instr)
deriving DecidableEq, Repr

/-- Memory and what its model needs: bytes by location key (`locKey`), the write sets (R74), cached translations
(R109), the side logs in entry order (R100), what homes remember for the check of R77, sectors to be written back across
a port, bytes that are undefined until they are written (R128), and how many steps on key/value structures have been made (R269). -/
structure MemSys where
  mem : List Host.Cell
  hist : List WriteRec
  tlb : List TlbEntry
  log : List LogEntry
  strongs : List LastStrong
  dirty : List DirtySector
  undef : List Nat
  turn : Nat
deriving DecidableEq, Repr

/-- The Ladle: moves after their first step, duplicates, forwarding entries (old frame, new frame) (R102 to R105),
proposals outstanding (R97), hotness counts (R96, key `hotKey`), and how many entries of each VF's proposal ring it has
acted on (R360). -/
structure Ladle where
  moves : List Move
  dups : List Dup
  forwards : List (Nat × Nat)
  proposals : List Proposal
  hot : Store Nat
  ring : Store Nat
deriving DecidableEq, Repr

/-- A request of some lanes of a context whose link packet no retry has brought through (R375): the next one that crosses a link, while the
free counter has this value. -/
structure LostLink where
  vf : Nat
  ident : Nat
  lanes : Mask
  at_ : Nat
deriving DecidableEq, Repr

/-- What the hub holds beside its registers: PEERST of each peer (R363), and DCXB, DCXL, DCXS of extent i at 3 i,
3 i + 1, 3 i + 2 (R362), and the request whose link fails it (R375). -/
structure Hub where
  peers : Store DWord
  extents : Store DWord
  lost : Option LostLink
deriving DecidableEq, Repr

/-! ## The matrix arrays -/

/-- An entry of an array queue (R111): a reload, or a quarter operation with the registers of the lanes that act (row,
values). `codes` are the 16 B registers, each of 32 lanes; `clean` says that no register of the latched range has been
written since (R250); `seq` is its place among all entries and tile writes. -/
structure ArrayEntry where
  vf : Nat
  ident : Nat
  seq : Nat
  batch : Nat
  reload : Bool
  base : Nat
  codes : List (List Word)
  clean : Bool
  weights : Weights
  tile : Nat
  afmt : Nat
  acts : List (Nat × List Word)
deriving DecidableEq, Repr

/-- A row that the array has taken and not yet written (R116): its flag of R118, and the exact sum of each column as a
multiple of a power of two (R117). -/
structure ArrayRow where
  vf : Nat
  ident : Nat
  seq : Nat
  batch : Nat
  tile : Nat
  row : Nat
  flagged : Bool
  sums : List (Int × Int)
deriving DecidableEq, Repr

/-- The latch of an array: its tag and the weights it holds (R115). -/
structure Latch where
  vf : Nat
  ident : Nat
  base : Nat
  valid : Bool
  codes : List (List Word)
  weights : Weights
deriving DecidableEq, Repr

/-- The array of one partition (R111); `part` is 4 times the core's number plus the partition. -/
structure ArrayUnit where
  part : Nat
  queue : List ArrayEntry
  rows : List ArrayRow
  latch : Option Latch
deriving DecidableEq, Repr

/-! ## Work -/

/-- A team entry of a gang descriptor (R48). -/
structure TeamEntry where
  code : Nat
  frame : Nat
  groups : Nat
  tiles : Nat
  vault : Nat
deriving DecidableEq, Repr

/-- A resident team (R50): its entry, the core's number, the vault address of its region. -/
structure Team where
  entry : TeamEntry
  core : Nat
  base : Nat
deriving DecidableEq, Repr

/-- An admitted gang (R50, R51): the request it came from with the cluster that issued it, its teams in index order, the cause of a
group that ended by one, if any, what is before the request's push (R43) and before the ends of its groups (R55). `saved` marks a
gang that is pre-empted. -/
structure Gang where
  num : Nat
  vf : Nat
  cluster : Nat
  prio : Nat
  join : Nat
  span : Bool
  restart : Bool
  teams : List Team
  fail : Option Nat
  saved : Bool
  pusher : Nat
  issuer : Nat
  ids : List Nat
  ended : List Nat
deriving DecidableEq, Repr

/-- A gang that waits for admission at the head of its queue without a record there: a relaunch (R65). -/
structure Requeue where
  num : Nat
  vf : Nat
  cluster : Nat
  prio : Nat
  join : Nat
  restart : Bool
  span : Bool
  entries : List TeamEntry
  pusher : Nat
  issuer : Nat
  ids : List Nat
  ended : List Nat
deriving DecidableEq, Repr

/-- A push into a record queue (R43): the header, the record's count, who pushed it, the issuing cluster, and what is before the
push. -/
structure PushNote where
  header : Nat
  count : Nat
  ident : Nat
  issuer : Nat
  ids : List Nat
deriving DecidableEq, Repr

/-- A record in a home agent's overflow buffer (R54, R140): its queue, its 32 bytes, the pusher, its cluster, and what is before
it. -/
structure Overflow where
  vf : Nat
  cluster : Nat
  data : Nat
  ident : Nat
  issuer : Nat
  ids : List Nat
deriving DecidableEq, Repr

/-- The head wait of a gang request (R47), by queue set and record count (2 ^ 32 plus its number for a relaunch), and once it has
reached HOLD the core chosen for each team, with what the team needs. -/
structure HeadWait where
  vf : Nat
  cluster : Nat
  prio : Nat
  count : Nat
  waited : Nat
  held : Bool
  cores : List (Nat × TeamEntry)
deriving DecidableEq, Repr

/-- A waiter at a queue home, in arrival order (R57), with the slot size that its group read before (R293). -/
structure Waiter where
  key : Nat
  vf : Nat
  ident : Nat
  other : Bool
  push : Bool
  producer : Nat
  size : Nat
deriving DecidableEq, Repr

/-- What the device keeps of a byte barrier (R85): the group that armed it (its `uid`), the writes and the releases counted in the current phase,
and those of each phase that has flipped, with its PHASE bit. -/
structure BarRec where
  key : Nat
  armer : Option Nat
  ids : List Nat
  rels : List Rel
  flips : List (Bool × List Nat × List Rel)
deriving DecidableEq, Repr

/-- An object in a vault's audit table (R377): the VF that operates on it, and a queue, or a barrier with the arrivals of its
phase. -/
structure Audit where
  key : Nat
  vf : Nat
  barrier : Bool
  arrivals : Nat
deriving DecidableEq, Repr

/-- Work and what synchronises it. `marked` are the objects that the Assay marked, each with its VF (R60). -/
structure Work where
  gangs : List Gang
  requeue : List Requeue
  notes : List PushNote
  overflow : List Overflow
  heads : List HeadWait
  waiters : List Waiter
  bars : List BarRec
  audits : List Audit
  marked : List (Nat × Nat)
deriving DecidableEq, Repr

/-! ## Engines -/

/-- What an engine command does (R297 to R299). -/
inductive CmdKind
  | copy | fill | gather | scatter | scatterAddF | scatterAddN | allReduce | allGather | reduceScatter | broadcast
deriving DecidableEq, Repr

/-- An engine command (R297 to R300): the group that started it (`uid`) with what access rights, its 64-byte descriptor, the byte barrier it
counts into, the chunks accepted and those of them still to run, the block it pins (R132), a fault not yet delivered (R153),
and what is before it (R83). `halted` marks a command stopped by pre-emption (R157). -/
structure Cmd where
  num : Nat
  vf : Nat
  ident : Nat
  uid : Nat
  mode : Mode
  die : Nat
  kind : CmdKind
  desc : Nat
  bar : Option Nat
  barVault : Bool
  chunks : Nat
  accepted : Nat
  todo : List Nat
  pin : Option Nat
  fault : Option (Nat × Nat)
  halted : Bool
  ids : List Nat
deriving DecidableEq, Repr

/-- The stages of a repair (R140): grepair measures, Anneal runs the layers, and its final join waits for a page; of an abandoned one the
layer's join block is still Anneal's (R142). -/
inductive RepairStage
  | measure | layers | ending | gone
deriving DecidableEq, Repr

/-- A repair (R140): the issuing context, its rights and its cluster; what grepair read from the descriptors and the root;
the selected positions and the marked blocks; the layer that runs, with its join block's address; what Anneal has
acquired; an abort that met it before grepair completed (R142). -/
structure Repair where
  num : Nat
  vf : Nat
  ident : Nat
  mode : Mode
  die : Nat
  cluster : Nat
  seqAt : Nat
  desc : Nat
  prio : Nat
  cp : Nat
  layers : Nat
  kcode : Nat
  scr : Nat
  join : Nat
  tbl : Nat
  range : Nat
  picked : List Nat
  blocks : List Nat
  stage : RepairStage
  layer : Nat
  joinAt : Nat
  abort : Bool
  ids : List Nat
deriving DecidableEq, Repr

/-- The block x that step 1 of a splice (R135) took, until a later step links it: the group (`uid`), its descriptor, x. -/
structure Splice where
  uid : Nat
  desc : Nat
  block : Nat
deriving DecidableEq, Repr

/-- A translation invalidation under way (R319): its number, the group (`uid`) that waits for it, and what it covers, in
the VF `tvf`; `size` is the page's in bits of address. -/
structure Inval where
  num : Nat
  uid : Nat
  kind : Nat
  ctx : Nat
  va : Nat
  size : Nat
  tvf : Nat
deriving DecidableEq, Repr

/-- A context saved by the device or by gctxsv (R88, R158): where its area is, what the area does not hold, and what its
restore acquires; `apAddr` is the address of its access processor's fault; `pend` is its pending cause and `unres` the mark of an
entry declared unresolvable (R81, R155); `faulted` are lanes whose accesses are still to be issued once more (R151); `fences` and
`seen` are what its later accesses still pair with (R72), `apSeen` what those of its access processor do; `late` are bits of FLAGS
set while it is saved (R85); `log` are its side-log entries (R88). `by_` is 0 for gctxsv (`area` is then the key of its first byte), else `area` is a physical address: 1 for
a quantum switch, 2 for a halted unit, 3 for a changed shape (R356). -/
structure Saved where
  area : Nat
  by_ : Nat
  who : Who
  mode : Mode
  apNum : Option Nat
  ids : List Nat
  unit : Nat
  cmdFault : Option (Word × Nat)
  apAddr : DWord
  pend : Option Pend
  unres : Bool
  faulted : Mask
  fences : List FenceRec
  seen : List Seen
  apSeen : List Seen
  late : Word
  log : List LogEntry
deriving DecidableEq, Repr

/-- A join that the device performs (R54): with whose rights, the joining cluster, the priority of what it is made for, the block,
FAIL and CAUSE, and what is before it. -/
structure Join where
  acc : Acc
  cluster : Nat
  prio : Nat
  addr : Nat
  fail : Bool
  cause : Nat
  ids : List Nat
deriving DecidableEq, Repr

/-- What the device has still to do in memory, where it waits for a page that is moving or has duplicates (R100). -/
inductive Chore
  | join (j : Join)
  /-- The end of an abandoned repair (R142): the entries at these addresses, the watermark that they get first, if any (R270), and
  the join that follows. -/
  | abandon (acc : Acc) (entries : List Nat) (rwm : Option Nat) (ids : List Nat) (last : Option Join)
  /-- The unpin of a block by an engine that has finished with it (R132), after the loads of a group's window, named by `uid` and `since`,
  have returned (R258). -/
  | unpin (acc : Acc) (block : Nat) (ids : List Nat) (after : Option (Nat × Nat))
deriving DecidableEq, Repr

/-- Engines, repairs, invalidations, saved contexts and chores. `cut` lists the groups (`uid`) that wait for an invalidation which ended
without a reply from some agent (R320), `resting` those that a gctxsv holds at rest while it saves them, each with the group that does (R321). -/
structure Engines where
  cmds : List Cmd
  repairs : List Repair
  splices : List Splice
  invals : List Inval
  cut : List Nat
  saved : List Saved
  chores : List Chore
  resting : List (Nat × Nat)
deriving DecidableEq, Repr

/-! ## The package -/

/-- A row of the running quantum table (R353): its length in microseconds and its 176 bytes of units and scalar cores. -/
structure QRow where
  dur : Nat
  units : List Nat
deriving DecidableEq, Repr

/-- The running quantum table and the aclk at which its row began (R354, R355). -/
structure Quantum where
  rows : List QRow
  since : Nat
deriving DecidableEq, Repr

/-- What is fused (R366, R370, R372): the digests of four key slots, their revocation, SVNMIN, the identity seed. -/
structure Fuses where
  slots : List Nat
  revoked : Nat
  svnmin : Nat
  seed : Nat
deriving DecidableEq, Repr

/-- A start under way (R366): cold (1) or warm (2), the firmware's SVN, what it finds of the hardware, the tiers whose contents are kept,
the tiers trained (bit 0 LPDDR-6, bit 1 HBM4E), the images that firmware loads, PEERST as the start found it, and the bytes that the
self-test leaves in its result area. -/
structure Boot where
  kind : Nat
  svn : Nat
  hw : Hardware
  keptL : Bool
  keptH : Nat
  trained : Nat
  images : List (List Byte)
  peers : Store DWord
  selftest : List Byte
deriving DecidableEq, Repr

/-- The management core's own state: units halted (R379) and cores halted by ghalt (R323), the heartbeats last sampled
and their misses (R379), the periodic happenings' last times, the last unit powered (R367), a pool release under
way (R361), an attestation request under way (R371), the samples of package power (R372, R386), newest first, the thermal trip, the fused
values, the counts of array errors by class (R374), by how much TNOW leads the grandmaster (R317), the start under way, the
aclk at which each compute die left its reset (R317), the Fettler's place in each array class and when its pass began (R373), and the contexts
and gangs that the last checkpoint saved (R383). -/
structure Mgmt where
  halted : List Nat
  cores : List Nat
  beats : Store Nat
  misses : Store Nat
  last : Store Nat
  powered : Nat
  poolPage : Option (Nat × Nat)
  attest : Option Nat
  watts : List Nat
  tripped : Bool
  fuses : Fuses
  counts : Store Nat
  slew : Option Nat
  boot : Option Boot
  clocks : Store Nat
  scrub : Store Nat
  ckSaved : List Saved
  ckGangs : List Gang
deriving DecidableEq, Repr

/-- An announcement of a throttle level (R390): level, instant in nanoseconds of TNOW, sequence number. -/
structure Announce where
  level : Nat
  at_ : Nat
  seq : Nat
deriving DecidableEq, Repr

/-- A compute die's part in its throttle group (R389 to R392): the step pending, its own latest request and when it was
raised, since when the lock has been lost, when it last tried to register. As coordinator: the latest request of each
member (package and die), the group level and since when it has been in force, the announcements made, the latest first, and who has
acknowledged that. `ask` is the level that the power cap comparator asks for and since when (R372). -/
structure Throttle where
  pend : Option Announce
  request : Nat
  raisedAt : Option Nat
  unlockedAt : Option Nat
  tried : Nat
  members : Store Nat
  level : Nat
  since : Nat
  sent : List Announce
  acks : List Nat
  ask : Option (Nat × Nat)
deriving DecidableEq, Repr

/-- The fleet window (21) by offset, and the throttle state of CD0 and CD1; `below` counts, per stack, consecutive samples
that let REFM or HOT fall (R393). -/
structure Fleet where
  win : Store DWord
  d0 : Throttle
  d1 : Throttle
  below : Store Nat
deriving DecidableEq, Repr

/-- The state of the part. -/
structure State where
  /-- The context that issues. -/
  g : Ctx
  /-- Every other live context. -/
  others : List Ctx
  /-- The access processor of `g` issues. -/
  onAp : Bool
  /-- What happens next; when empty the next issue is chosen by R11, R24 and R25. Not the manual's. -/
  agenda : List Act
  /-- The contexts (VF, identifier) and slots that the ports have chosen in the current aclk and that have still to issue in it
  (R24). -/
  round : List (Nat × Nat × Bool)
  /-- The counter behind the values that the manual leaves open. Not the manual's. -/
  free : Nat
  /-- Fresh numbers for events, gangs, commands and teams. Not the manual's. -/
  fresh : Nat
  ms : MemSys
  ld : Ladle
  hub : Hub
  arrays : List ArrayUnit
  wk : Work
  en : Engines
  qt : Quantum
  mg : Mgmt
  fl : Fleet
  /-- Registers of VF scope at 512 vf + number, registers of device scope at their number. -/
  vfr : Store DWord
  dev : Store DWord
  /-- aclk since the hub's reset (R317). -/
  acnt : DWord
  tnow : DWord
deriving DecidableEq, Repr

/-! ## Reset -/

/-- A context that holds no group. -/
def noCtx : Ctx :=
  let slot : Slot := ⟨false, 0, 0, .none⟩
  let seq : Seq := ⟨List.replicate 4 0, 0, List.replicate 4 (0, 0), 0, List.replicate 8 0, 0, 0⟩
  { live := false, who := ⟨0, 0, ⟨0, 0, 0, 0, 0⟩, .record, false, none, none, 0, 0, 0, 0⟩, prio := 0, mode := .usr, s0 := slot
    s1 := slot, iss := false, regs := [], seq := seq, hseq := seq, flags := 0, flmask := 0, pidx := 0, rth := 0x7F800000
    akv := 0, dsp := 0, dsh := 0, top := none, waitCnt := 0, stamp := none, trap := ⟨0, 0, 0, 0, 0, 0, 0, 0, [0, 0, 0, 0]⟩
    pend := none, replays := [], cmdFault := none, wins := [], ap := none, ord := ⟨[], [], []⟩, unres := false
    mx := ⟨0, [], [], none, 0⟩, endCause := none, redo := none }

/-- A compute die in no throttle group; TSTAT.LOCK has been 0 since the start (R317). -/
def noThrottle : Throttle := ⟨none, 0, none, some 0, 0, [], 0, 0, [], [], none⟩

/-- The machine right after reset, before a start (R366): no group is live, memory lists nothing, registers hold what
`regReset` and this definition give (notes/assumptions/5.md, 6.md). TGCFG0 and TGCFG1 hold LEAD = 10 (R389). -/
def State.reset : State :=
  { g := noCtx, others := [], onAp := false, agenda := [], round := [], free := 0, fresh := 0
    ms := ⟨[], [], [], [], [], [], [], 0⟩, ld := ⟨[], [], [], [], [], []⟩, hub := ⟨[], [], none⟩, arrays := []
    wk := ⟨[], [], [], [], [], [], [], [], []⟩, en := ⟨[], [], [], [], [], [], [], []⟩, qt := ⟨[], 0⟩
    mg := ⟨[], [], [], [], [], 1, none, none, [], false, ⟨[0, 0, 0, 0], 0, 0, 0⟩, [], none, none, [], [], [], []⟩
    fl := ⟨[(0x100, 0xA0000), (0x120, 0xA0000)], noThrottle, noThrottle, []⟩
    vfr := [], dev := [], acnt := 0, tnow := 0 }

end Sys2Proof.Machine
end

