-- ==== Sys2Proof/Machine/Mem.lean ====
section
/-! DEFINITION. Memory: the places of physical addresses (R357, R358), the write sets and the value of a load (R71 to
R80), translation (R350, R352), and the checks of an access (R230, R100). -/

namespace Sys2Proof.Machine

/-! ## Registers of VF and of device scope -/

/-- The value of a register of VF or device scope that nothing has written since reset. -/
def regReset (n : Nat) : DWord :=
  if n = 0x003 then 0x3210
  else if n = 0x104 then 1
  else if n = 0x105 then 0xFFFF
  else if 0x140 ≤ n ∧ n < 0x180 ∧ n % 4 = 2 then 0xFE000000
  else if n = 0x180 then 0xFFFF
  else if n = 0x1C4 then 10
  else if n = 0x1C5 then 24
  else if n = 0x1C9 then 2800
  else if n = 0x1CA then 1000000000
  else if n = 0x1CB then 256000000
  else if n = 0x0F0 then 0xB9712E5C
  else if n = 0x0F1 then 0x6FE34D0A
  else if n = 0x0F2 then 0x074FD182
  else if n = 0x0F3 then 0x589E3AB6
  else if n = 0x0F4 then 0xA0D2741C
  else if n = 0x0F5 then 0x8EF5396B
  else if n = 0x0F6 then 0xABC4170E
  else if n = 0x0F7 then 0x607F923D
  else 0

/-- A register of VF scope. -/
def vfReg (s : State) (vf n : Nat) : DWord := storeGet (regReset n) s.vfr (512 * vf + n)

/-- Writes a register of VF scope. -/
def setVfReg (s : State) (vf n : Nat) (x : DWord) : State :=
  { s with vfr := storeSet (regReset n) s.vfr (512 * vf + n) x }

/-- A register of device scope. -/
def devReg (s : State) (n : Nat) : DWord := storeGet (regReset n) s.dev n

/-- Writes a register of device scope. -/
def setDevReg (s : State) (n : Nat) (x : DWord) : State :=
  { s with dev := storeSet (regReset n) s.dev n x }

/-! ## Places -/

/-- Where a physical address is: tier (R92), home die (2 the hub), member, member address, the peer that homes it. -/
structure Place where
  tier : Nat
  die : Nat
  member : Nat
  addr : Nat
  peer : Option Nat
deriving DecidableEq, Repr

/-- A location key: what kind of memory, and an address in it. -/
def locKey (tag addr : Nat) : Nat := tag * 2 ^ 58 + addr

/-- The key of a vault byte (R171). -/
def vaultKey (die a : Nat) : Nat := locKey 1 (die * 2 ^ 29 + a % 2 ^ 29)

/-- The key of a place. -/
def Place.key (p : Place) : Nat :=
  match p.peer with
  | some q => locKey (64 + q) p.addr
  | none => locKey (16 * p.tier + p.member) p.addr

/-- Range i of the address map is enabled, well formed and holds an address (R357). -/
def rangeHas (s : State) (pa i : Nat) : Bool :=
  let b := (devReg s (0x140 + 4 * i)).toNat
  bit b 63 && !(bit (devReg s (0x142 + 4 * i)).toNat 24) &&
    decide (bits b 55 21 ≤ pa >>> 21) && decide (pa >>> 21 ≤ bits (devReg s (0x141 + 4 * i)).toNat 55 21)

/-- The lowest-numbered range that holds an address (R357). -/
def rangeOf (s : State) (pa : Nat) : Option Nat := (upto 16).find? (rangeHas s pa)

/-- The number of ones of a value below 2 ^ n. -/
def ones (x n : Nat) : Nat := ((upto n).filter (bit x)).length

/-- The m-th set bit, from bit 0, of a 16-bit set. -/
def nthMember (set m : Nat) : Nat := ((upto 16).filter (bit set)).getD m 0

/-- The hash of R358: the exclusive or of the k-bit pieces from bit `lo` upward. -/
def foldHash (x lo k : Nat) : Nat :=
  if k = 0 then 0 else foldFrom (fun h j => h ^^^ ((x >>> (lo + k * j)) % 2 ^ k)) 56 0 0

/-- The place of a physical address (R357, R358); none if no range decides it. The manual does not say what lies behind member
addresses past the capacity that R3 gives a member; here each has bytes of its own (DESIGN CHOICE, notes/assumptions/74.md). -/
def placeOf (s : State) (pa : Nat) : Option Place :=
  match rangeOf s pa with
  | none => none
  | some i =>
    let c := (devReg s (0x142 + 4 * i)).toNat
    let o := pa - (bits (devReg s (0x140 + 4 * i)).toNat 55 21 <<< 21)
    let moff := bits c 63 32 <<< 21
    let tier := bits c 1 0
    let peer := bits c 31 25
    if peer ≠ 0x7F then some ⟨tier, 2, 0, o + moff, some peer⟩
    else
      let g := 8 + bits c 5 2
      let set := bits c 23 8
      let k := Nat.log2 (ones set 16)
      let u := o >>> g
      let h := foldHash (o &&& bits (devReg s (0x143 + 4 * i)).toNat 55 0) (g + k) k
      let m := nthMember set ((u % 2 ^ k) ^^^ h)
      some ⟨tier, if tier = 1 then m / 4 else 2, m, ((u >>> k) <<< g) + o % 2 ^ g + moff, none⟩

/-- The key of a physical address; an unmapped address, which only the device's own walks name, has a key of its
own. -/
def physKey (s : State) (pa : Nat) : Nat :=
  match placeOf s pa with
  | some p => p.key
  | none => locKey 0 pa

/-- The keys of n bytes at a physical address: within 256 bytes a range keeps them together. -/
def physKeys (s : State) (pa n : Nat) : List Nat :=
  if pa % 256 + n ≤ 256 then
    let k := physKey s pa
    (upto n).map (k + ·)
  else (upto n).map fun i => physKey s (pa + i)

/-! ## Bytes at the home -/

/-- What a byte that nothing has written reads as (R366 steps 7 and 8). -/
def emptyByte : Byte := 0

/-- The write of a byte latest in home order. -/
def homeByte (s : State) (key : Nat) : Byte := storeGet emptyByte s.ms.mem key

/-- A little-endian value of bytes (R4). -/
def natOfBytes : List Byte → Nat
  | [] => 0
  | b :: t => b.toNat + 256 * natOfBytes t

/-- The n low bytes of a value, lowest first (R4). -/
def bytesOfNat : Nat → Nat → List Byte
  | 0, _ => []
  | n + 1, x => BitVec.ofNat 8 x :: bytesOfNat n (x / 256)

/-- A little-endian value at the home. -/
def homeNat (s : State) (keys : List Nat) : Nat := natOfBytes (keys.map (homeByte s))

/-- n bytes at a physical address, as the device reads them at their home. -/
def physNat (s : State) (pa n : Nat) : Nat := homeNat s (physKeys s pa n)

/-- The write records of one byte, in home order. -/
def recsOf (s : State) (key : Nat) : List WriteRec := s.ms.hist.filter fun w => w.key == key

/-- Performs a write of one byte: it joins the byte's write set as the last of its records. Before one that arrives at once, those of the
byte that are before it have arrived (R78), after whatever arrived earlier (R79). -/
def putRec (s : State) (w : WriteRec) : State :=
  let init : List WriteRec :=
    if (recsOf s w.key).isEmpty then [⟨0, w.key, homeByte s w.key, [], some 0, none, none, 7, [], 0, 0, none⟩] else []
  let first (x : WriteRec) : Bool := w.arrived.isSome && x.key == w.key && x.arrived.isNone && w.preds.contains x.ev
  { s with ms := { s.ms with
      mem := storeSet emptyByte s.ms.mem w.key w.val
      hist := (s.ms.hist.filter fun x => !first x) ++ init ++
        ((s.ms.hist.filter first).map fun x => { x with arrived := w.arrived }) ++ [w]
      undef := s.ms.undef.filter (· != w.key) } }

/-- The records of a byte that follow an event are later in home order than that event's, however late that was performed (R81). -/
def followed (s : State) (ev : Nat) (keys : List Nat) : State :=
  keys.foldl (fun s k =>
    let after (x : WriteRec) : Bool := x.key == k && x.preds.contains ev
    match (s.ms.hist.filter after).getLast? with
    | none => s
    | some w =>
      { s with ms := { s.ms with
          mem := storeSet emptyByte s.ms.mem k w.val
          hist := (s.ms.hist.filter fun x => !after x) ++ s.ms.hist.filter after } }) s

/-- The number of aclk so far. -/
def now (s : State) : Nat := s.acnt.toNat

/-- ACNT as a die reads it: aclk since its reset, on the scalar die the hub's count (R317). -/
def dieCount (s : State) (die : Nat) : DWord := if die = 2 then s.acnt else s.acnt - BitVec.ofNat 64 (storeGet 0 s.mg.clocks die)

/-- A fresh number. -/
def takeFresh (s : State) : Nat × State := (s.fresh + 1, { s with fresh := s.fresh + 1 })

/-- A write by the device at the home, ordered with no other agent's events. Bytes without a write set of their own
stay without one. -/
def devPutKeys (s : State) (keys : List Nat) (bytes : List Byte) : State :=
  let (ev, s) := takeFresh s
  (keys.zip bytes).foldl (fun s kb =>
    if (recsOf s kb.1).isEmpty then
      { s with ms := { s.ms with mem := storeSet emptyByte s.ms.mem kb.1 kb.2, undef := s.ms.undef.filter (· != kb.1) } }
    else putRec s ⟨ev, kb.1, kb.2, [0], some (now s), none, none, 7, [], 0, s.ms.turn, none⟩) s

/-- A little-endian value of n bytes written by the device at a physical address. -/
def physPut (s : State) (pa n x : Nat) : State := devPutKeys s (physKeys s pa n) (bytesOfNat n x)

/-! ## The error log -/

/-- Appends an entry to the error log (R382): cause, source, context identifier (0xFFFF for none), unit or array class,
address, count. A full ring, or one whose capacity is not 2^4 to 2^12, discards it and counts it in LOST. -/
def logError (s : State) (cause source ident unit addr count : Nat) : State :=
  let p := (devReg s 0x1C7).toNat
  let tail := bits p 31 16
  let lost := bits p 47 32
  let lg := bits p 51 48
  if lg < 4 || 12 < lg || (tail + 2 ^ 16 - bits p 15 0) % 2 ^ 16 == 2 ^ lg then
    setDevReg s 0x1C7 (BitVec.ofNat 64 (p - lost * 2 ^ 32 + min (lost + 1) 0xFFFF * 2 ^ 32))
  else
    let entry := s.tnow.toNat + 2 ^ 64 * (cause % 256) + 2 ^ 72 * (source % 256) + 2 ^ 80 * (ident % 2 ^ 16) +
      2 ^ 96 * (unit % 2 ^ 32) + 2 ^ 128 * (addr % 2 ^ 64) + 2 ^ 192 * (count % 2 ^ 64)
    let s := physPut s (bits (devReg s 0x1C6).toNat 55 12 * 4096 + 32 * (tail % 2 ^ lg)) 32 entry
    setDevReg s 0x1C7 (BitVec.ofNat 64 (p - tail * 2 ^ 16 + (tail + 1) % 2 ^ 16 * 2 ^ 16))

/-! ## Ordering and the value of a load -/

/-- The lanes with this event before them include one of `lanes`. -/
def knows (o : Order) (lanes : Mask) (ev : Nat) : Bool :=
  ev == 0 || o.know.any fun e => e.1 == ev && (e.2 &&& lanes) != 0

/-- The events that one of `lanes` has before it. -/
def knownIds (o : Order) (lanes : Mask) : List Nat :=
  (o.know.filter fun e => (e.2 &&& lanes) != 0).map (·.1)

/-- Adds one event to what `lanes` know. -/
def learnOne (know : List (Nat × Mask)) (ev : Nat) (lanes : Mask) : List (Nat × Mask) :=
  if know.any (·.1 == ev) then mapWhere (·.1 == ev) (fun e => (e.1, e.2 ||| lanes)) know
  else know ++ [(ev, lanes)]

/-- Adds events to what `lanes` know. -/
def learn (o : Order) (ids : List Nat) (lanes : Mask) : Order :=
  { o with know := ids.foldl (fun k i => learnOne k i lanes) o.know }

/-- A group-set event covers every active lane, so that what one of them has before it the others have too (R71). -/
def unite (o : Order) (lanes : Mask) : Order :=
  { o with know := o.know.map fun e => if (e.2 &&& lanes) != 0 then (e.1, e.2 ||| lanes) else e }

/-- Agent `b` is a member of the scope of agent `a` (R69). -/
def inScope (scope : Nat) (a b : Agent) : Bool :=
  if scope = 0 then a.vf == b.vf && a.uid == b.uid
  else if scope = 1 then
    if a.die = 2 then a.vf == b.vf && a.uid == b.uid else a.vf == b.vf && a.team == b.team
  else if scope = 2 then a.die == b.die && a.cluster == b.cluster
  else if scope = 3 then a.vf == b.vf
  else if scope = 4 then a.die == b.die
  else true

/-- Λ of R80, in aclk. -/
def lambda : Nat := 24000

/-- A write is pruned for a load by these lanes (R74, R80). -/
def prunedFor (s : State) (o : Order) (lanes : Mask) (ag : Agent) (rs : List WriteRec) (w : WriteRec) : Bool :=
  rs.any fun w' => w'.preds.contains w.ev &&
    (knows o lanes w'.ev ||
      (match w'.arrived with
       | some t => decide (t + lambda < now s) &&
         (match w'.agent with | some a => inScope w'.scope a ag | none => true)
       | none => false))

/-- The lanes of a context some of whose accesses have completed with 0x30 and are still to be issued once more (R75, R151). -/
def faulted (c : Ctx) : Mask :=
  c.wins.foldl (fun m w => m ||| w.gone) 0 ||| c.replays.foldl (fun m p => m ||| p.lanes) 0 |||
    (match c.redo with | some (_, m) => m | none => 0) |||
    (if c.trap.tcause.getLsbD 14 && c.trap.tcause.getLsbD 15 then c.trap.tlanes else 0)

/-- The lanes whose load of global memory is still in flight in a window. -/
def Window.flying (w : Window) : Mask := maskOf fun l => w.srcs.any (·.1 == l)

/-- The lanes of a context that had a load before an event which has still to return: in flight, or to be issued once more (R75, R151). -/
def owing (c : Ctx) (ev : Nat) : Mask :=
  (c.wins.filter fun w => decide (w.since < ev)).foldl (fun m w => m ||| w.gone ||| w.flying) 0 ||| faulted { c with wins := [] }

/-- What of the writes of the acting group's lanes no other agent can read yet (R75, R151). -/
def quietLanes (s : State) (m : Mask) : Mask := if s.onAp then 0 else owing s.g (s.fresh + 1) &&& m

/-- The loads of some lanes in flight in a window have returned; one of the whole group returns whole. -/
def Window.land (m : Mask) (w : Window) : Window :=
  if (w.flying &&& m) = 0 then w
  else if w.srcs.any (·.1 == 32) then { w with srcs := [] }
  else { w with srcs := w.srcs.filter fun x => !lane m x.1 }

/-- The earlier loads of some lanes of who acts have returned: what these do next is readable at once, or waits for that (R75, R78). -/
def landed (s : State) (m : Mask) : State :=
  match s.onAp, s.g.ap with
  | true, some a => { s with g := { s.g with ap := some { a with wins := a.wins.map (Window.land m) } } }
  | _, _ => { s with g := { s.g with wins := s.g.wins.map (Window.land m) } }

/-- A write that follows, in its lane, a load which has still to return: no agent but its own lane can read it (R75, R151). -/
def unreadable (s : State) (w : WriteRec) : Bool :=
  w.quiet != 0 &&
    match w.agent with
    | none => false
    | some a =>
      ((s.g :: s.others).any fun c => c.live && c.who.uid == a.uid && (owing c w.ev &&& w.quiet) != 0) ||
        s.en.saved.any fun x => x.who.uid == a.uid && (x.faulted &&& w.quiet) != 0

/-- A write that follows one which the side log still holds: it arrives after that (R78, R81). -/
def early (s : State) (w : WriteRec) : Bool := s.ms.log.any fun e => w.preds.contains e.ev

/-- The maximal writes of a byte for a load (R74), among those that it may read (R75). -/
def maximal (s : State) (o : Order) (lanes : Mask) (ag : Agent) (key : Nat) : List WriteRec :=
  let rs := recsOf s key
  rs.filter fun w => !prunedFor s o lanes ag rs w && (knows o lanes w.ev || !unreadable s w)

/-- The value that a plain load of a byte returns: some maximal write's (R74). -/
def plainByte (s : State) (o : Order) (lanes : Mask) (ag : Agent) (lane key : Nat) : Byte :=
  if s.ms.undef.contains key then Config.undefByte s.free key
  else
  match maximal s o lanes ag key with
  | [] => homeByte s key
  | [w] => w.val
  | w :: t => ((w :: t).getD (Config.plainChoice s.free key lane % (t.length + 1)) w).val

/-- Records in home order: those that have arrived as they arrived, then those on their way. -/
def inHomeOrder (l : List WriteRec) : List WriteRec := l.filter (·.arrived.isSome) ++ l.filter (·.arrived.isNone)

/-- How many steps on key/value structures an instruction sees at least: those of which it must read some write (R80), and an open number of
others (R269). It is one number for all that the instruction reads. -/
def structTurn (s : State) : Nat :=
  let old := s.ms.hist.filter fun w => match w.arrived with | some t => decide (t + lambda < now s) | none => false
  old.foldl (fun n w => max n (w.turn + 1)) (Config.structCut s.free s.g.pidx.toNat)

/-- The value of a byte of a key/value structure, for an instruction that sees the first `cut` steps on them: the latest write of those, and of what
is before it, that it may read (R74, R75, R269). -/
def stepByte (s : State) (o : Order) (lanes : Mask) (cut key : Nat) : Byte :=
  if s.ms.undef.contains key then Config.undefByte s.free key
  else
  match ((inHomeOrder (recsOf s key)).filter fun w =>
    knows o lanes w.ev || (decide (w.turn < cut) && !unreadable s w)).getLast? with
  | some w => w.val
  | none => homeByte s key

/-- A write on its way that a strong access of these lanes does not meet at the home (R78): none that is before it. -/
def away (s : State) (o : Order) (lanes : Mask) (w : WriteRec) : Bool :=
  w.arrived.isNone && !knows o lanes w.ev && (unreadable s w || early s w || Config.stillAway s.free w.ev)

/-- The writes of a byte that a strong access of these lanes meets at the home, the latest last (R78, R79). -/
def homeRecs (s : State) (o : Order) (lanes : Mask) (key : Nat) : List WriteRec :=
  inHomeOrder ((recsOf s key).filter fun w => !away s o lanes w)

/-- The value that a strong access of these lanes meets at the home. -/
def metByte (s : State) (o : Order) (lanes : Mask) (key : Nat) : Byte :=
  if s.ms.undef.contains key then Config.undefByte s.free key
  else
  match (homeRecs s o lanes key).getLast? with
  | some w => w.val
  | none => homeByte s key

/-- The value of a byte for a strong load or RMW of the footprint (first, size): the write latest in home order (R78,
R79), undefined where it meets a maximal strong write of another footprint (R77). -/
def strongByte (s : State) (o : Order) (lanes : Mask) (ag : Agent) (first size key : Nat) : Byte :=
  if (maximal s o lanes ag key).any fun w => match w.strong with | some f => f != (first, size) | none => false
  then Config.undefByte s.free key else metByte s o lanes key

/-- What the write latest in home order releases (R72). -/
def homeRels (s : State) (key : Nat) : List Rel :=
  match (inHomeOrder (recsOf s key)).getLast? with
  | some w => w.rels
  | none => []

/-- What the write that a strong access of these lanes meets releases (R72). -/
def metRels (s : State) (o : Order) (lanes : Mask) (key : Nat) : List Rel :=
  match (homeRecs s o lanes key).getLast? with
  | some w => w.rels
  | none => []

/-- Writes on their way that meet a test arrive at their homes, next in home order; those of the same byte that are before one arrive
before it (R78, R79). -/
def arriveWhere (s : State) (pick : WriteRec → Bool) : State :=
  let due (w : WriteRec) : Bool := w.arrived.isNone && pick w
  let go (w : WriteRec) : Bool :=
    due w || (w.arrived.isNone && s.ms.hist.any fun x => x.key == w.key && due x && x.preds.contains w.ev)
  { s with ms := { s.ms with
      hist := (s.ms.hist.filter fun w => !go w) ++ (s.ms.hist.filter go).map fun w => { w with arrived := some (now s) } } }

/-- Writes on their way that meet a test have arrived at their homes, but for those that no agent can read yet (R75) and those that follow
an entry of the side log (R81). -/
def arriveIf (s : State) (p : WriteRec → Bool) : State := arriveWhere s fun w => !unreadable s w && !early s w && p w

/-- The writes that a strong access met at the home had arrived there (R78). -/
def meet (s : State) (o : Order) (lanes : Mask) (keys : List Nat) : State :=
  arriveIf s fun w => keys.contains w.key && !away s o lanes w

/-- The strong writes of the lanes have completed (R78 items 1 and 4). -/
def completeStrong (s : State) (o : Order) (lanes : Mask) : State :=
  arriveIf s fun w => w.strong.isSome && knows o lanes w.ev

/-- Before a strong load without a role of acquire: the strong writes of the lanes to its bytes have completed, of others any may be on its
way still, as the store-buffering test without a fence allows (R78, R90; DEDUCED, notes/assumptions/98.md). -/
def completeFor (s : State) (o : Order) (lanes : Mask) (keys : List Nat) : State :=
  arriveIf s fun w => w.strong.isSome && knows o lanes w.ev && (keys.contains w.key || !Config.stillAway s.free w.ev)

/-- Writes on their way arrive (R78, R80). A byte all of whose writes have arrived holds the one latest in home order. -/
def evict (s : State) : State :=
  let t := arriveIf s fun w => Config.arrivesNow s.free w.ev
  let rest := t.ms.hist.filter fun w => t.ms.hist.all fun x => x.key != w.key || x.arrived.isSome
  { t with ms := { t.ms with mem := rest.foldl (fun m w => storeSet emptyByte m w.key w.val) t.ms.mem } }

/-- The events that an acquire at `scope` by `ag` gains from what it read (R72). -/
def acquired (rels : List Rel) (scope : Nat) (ag : Agent) : List Nat :=
  (rels.filter fun r => inScope r.scope r.agent ag && inScope scope ag r.agent).flatMap (·.ids)

/-- The releases that a strong write of `lanes` carries: itself if it is one, and earlier release fences (R72). -/
def relsOf (o : Order) (lanes : Mask) (release : Bool) (scope : Nat) (ag : Agent) (self : Nat) : List Rel :=
  (if release then [⟨self :: knownIds o lanes, scope, ag⟩] else []) ++
    (o.relFences.filter fun f => (f.lanes &&& lanes) != 0).map fun f => ⟨self :: f.ids, f.scope, ag⟩

/-- The records of a byte that are before a write by these lanes. -/
def predsOf (s : State) (o : Order) (lanes : Mask) (key : Nat) : List Nat :=
  0 :: ((recsOf s key).filter fun w => knows o lanes w.ev).map (·.ev)

/-- Who reads or writes: agent, the lanes of the event, and the order the lanes are in. -/
structure Party where
  ag : Agent
  lanes : Mask
  ord : Order
deriving DecidableEq, Repr

/-- Writes of bytes: plain, or strong with their footprint and what they release; on their way, or arriving at once. -/
def putBytes (s : State) (p : Party) (ev : Nat) (arrived : Option Nat) (strong : Bool) (scope : Nat) (rels : List Rel)
    (keys : List Nat) (bytes : List Byte) : State :=
  let foot := if strong then some (keys.headD 0, keys.length) else none
  (keys.zip bytes).foldl (fun s kb =>
    putRec s ⟨ev, kb.1, kb.2, predsOf s p.ord p.lanes kb.1, arrived, foot, some p.ag, scope, rels, 0, s.ms.turn, none⟩) s

/-- A plain write of bytes at group scope (R18), on its way until its sectors are written back. -/
def groupPut (s : State) (p : Party) (ev : Nat) (keys : List Nat) (bytes : List Byte) : State :=
  putBytes s p ev none false 0 [] keys bytes

/-- A plain write of bytes, which is on its way until its sectors are written back (R78). -/
def plainPut (s : State) (p : Party) (ev : Nat) (keys : List Nat) (bytes : List Byte) : State :=
  putBytes s p ev none false 7 [] keys bytes

/-- A plain write of bytes that arrives at their homes: an engine's (R83), or one that the side log replays (R81). -/
def arrivedPut (s : State) (p : Party) (ev : Nat) (keys : List Nat) (bytes : List Byte) : State :=
  putBytes s p ev (some (now s)) false 7 [] keys bytes

/-- A strong write of bytes, which arrives at the home (R78); `rels` is what it releases. -/
def strongPut (s : State) (p : Party) (ev scope : Nat) (rels : List Rel) (keys : List Nat) (bytes : List Byte) :
    State := putBytes s p ev (some (now s)) true scope rels keys bytes

/-- A strong write of bytes without a role of release, on its way to the home (R78, R90). -/
def strongSend (s : State) (p : Party) (ev scope : Nat) (rels : List Rel) (keys : List Nat) (bytes : List Byte) :
    State := putBytes s p ev none true scope rels keys bytes

/-- The writes of an event remember where they were issued. -/
def sentFrom (s : State) (ev : Nat) (x : Sent) : State :=
  { s with ms := { s.ms with hist := mapWhere (fun w => w.ev == ev) (fun w => { w with sent := some x }) s.ms.hist } }

/-- The writes of an event are quiet for some lanes (R75). -/
def quieten (s : State) (ev : Nat) (m : Mask) : State :=
  if m = 0 then s else { s with ms := { s.ms with hist := mapWhere (fun w => w.ev == ev) (fun w => { w with quiet := m }) s.ms.hist } }

/-- Writes of the lanes count as arrived at their homes: a release or full fence waits for that, and for the loads before them (R75, R78,
R80). -/
def arriveAll (s : State) (o : Order) (lanes : Mask) : State := arriveIf (landed s lanes) fun w => knows o lanes w.ev

/-! ## Page tables -/

/-- A page-table walk: the leaf's level, where its entry is, and the entry; or the cause it stops with. -/
inductive Walk
  | leaf (level pteAt : Nat) (pte : Nat)
  | stop (cause : Nat)
deriving DecidableEq, Repr

/-- The part of an address that indexes a level, 1 to 5 (R352). -/
def tableIndex (va level : Nat) : Nat := (va >>> (57 - 9 * level)) % 512

/-- The frame address of an entry (R352). -/
def ptePa (pte : Nat) : Nat := bits pte 59 16 * 4096

/-- The peer that homes a physical address has its link down (R151, R363). -/
def peerGone (s : State) (pa : Nat) : Bool :=
  match placeOf s pa with
  | some p => (match p.peer with | some q => !bit (storeGet 0 s.hub.peers q).toNat 48 | none => false)
  | none => false

/-- An access by a die to a place crosses a fabric port (R92): every one of the scalar die to HBM4E does. -/
def remote (die : Nat) (p : Place) : Bool := die != p.die || (die == 2 && p.tier == 1)

/-- The link between a lane of a context and an address has failed its request (R375). -/
def linkLost (s : State) (vf ident die l pa : Nat) : Bool :=
  match s.hub.lost, placeOf s pa with
  | some x, some p => x.vf == vf && x.ident == ident && lane x.lanes l && x.at_ == s.free && (remote die p || p.peer.isSome)
  | _, _ => false

/-- Walks the levels from 6 - n on (R352); an entry whose home is a peer that is down stops the walk with 0x30 (R245). -/
def walkFrom (s : State) (va : Nat) : Nat → Nat → Walk
  | 0, _ => .stop 0x28
  | n + 1, table =>
    let level := 5 - n
    let at_ := table + 8 * tableIndex va level
    if (rangeOf s at_).isNone then .stop 0x29
    else if peerGone s at_ then .stop 0x30
    else
      let pte := physNat s at_ 8
      let ty := bits pte 62 60
      if !bit pte 0 then .stop 0x21
      else if bit pte 15 || (ty ≠ 0 && ty ≠ 1 && ty ≠ 2 && ty ≠ 7) || (bit pte 63 && level ≠ 5) then .stop 0x28
      else if ty = 7 then (if level = 5 then .stop 0x28 else walkFrom s va n (ptePa pte))
      else if level ≤ 2 then .stop 0x28
      else .leaf level at_ pte

/-- The context-table entry of an identifier (R350). -/
def ctxEntryAt (s : State) (vf ident : Nat) : Nat :=
  bits (vfReg s vf 0x108).toNat 55 12 * 4096 + 16 * (ident - bits (vfReg s vf 0x107).toNat 11 0)

/-- What an access does to a page. -/
inductive Use
  | load | store | fetch
deriving DecidableEq, Repr

/-- The walk from the root of a context (R350, R352); the context's entry is read as part of it (R245). -/
def walk (s : State) (a : Acc) (va : Nat) : Walk :=
  let at_ := ctxEntryAt s a.vf a.ident
  let e := physNat s at_ 8
  if peerGone s at_ then .stop 0x30
  else if bit e 0 then walkFrom s va 5 (bits e 55 12 * 4096) else .stop 0x21

/-- The root that a context's entry names. -/
def rootOf (s : State) (a : Acc) : Nat := physNat s (ctxEntryAt s a.vf a.ident) 8

/-- The size of the page of a leaf, in bits of address. -/
def leafBits (level : Nat) : Nat := 57 - 9 * level

/-- The physical address of an address within a leaf's page, past any forwarding entry (R102, R352). -/
def leafPa (s : State) (va level pte : Nat) : Nat :=
  let pa := ptePa pte + va % 2 ^ leafBits level
  match s.ld.forwards.find? fun f => f.1 == pa / 4096 with
  | some f => f.2 * 4096 + pa % 4096
  | none => pa

/-- The mode may use the page so (R352). -/
def permitted (m : Mode) (u : Use) (pte : Nat) : Bool :=
  (m != .usr || bit pte 3) &&
    (match u with | .load => true | .store => bit pte 1 | .fetch => bit pte 2)

/-- The page bypasses the caches: uncached, or a device's (R352). -/
def directPage (pte : Nat) : Bool := bits pte 62 60 == 1 || bits pte 62 60 == 2

/-- A physical address lies in a poisoned extent (R108, R362). -/
def poisoned (s : State) (pa : Nat) : Bool :=
  (upto 64).any fun i =>
    let b := bits (storeGet 0 s.hub.extents (3 * i)).toNat 55 21
    let l := bits (storeGet 0 s.hub.extents (3 * i + 1)).toNat 55 21
    bits (storeGet 0 s.hub.extents (3 * i + 2)).toNat 2 0 == 3 && decide (b ≤ pa >>> 21) && decide (pa >>> 21 < b + l)

/-- The pool window that holds a physical address (R361). -/
def poolWindow (s : State) (pa : Nat) : Option Nat :=
  (upto 4).find? fun w =>
    let b := bits (devReg s (0x184 + 4 * w)).toNat 55 21
    let l := bits (devReg s (0x185 + 4 * w)).toNat 55 21
    decide (b ≤ pa >>> 21) && decide (pa >>> 21 < b + l)

/-- The owned bit of a page of a pool window (R361). -/
def ownedBit (s : State) (w page : Nat) : Bool :=
  bit (physNat s ((devReg s (0x187 + 4 * w)).toNat + page / 8) 1) (page % 8)

/-- A pool page in a window whose owned bit is clear (R107). -/
def notOwned (s : State) (pa : Nat) : Bool :=
  match poolWindow s pa with
  | none => false
  | some w => !ownedBit s w ((pa - (bits (devReg s (0x184 + 4 * w)).toNat 55 21 <<< 21)) / 4096)

/-- A translated 4 KiB page: its physical address, leaf level, entry and where the entry is. -/
structure Page where
  pa : Nat
  level : Nat
  pte : Nat
  pteAt : Nat
deriving DecidableEq, Repr

/-- A translation, or the causes that stop it. -/
inductive Xl
  | ok (p : Page)
  | bad (causes : List Nat)
deriving DecidableEq, Repr

/-- An entry is one of those of a page of 1 or of 16 frames whose first entry is at `first` (R352). -/
def ofEntries (first pages at_ : Nat) : Bool := if pages = 16 then first / 128 == at_ / 128 else first == at_

/-- A frame is one of the 1 or 16 home frames of a duplicated page (R104, R352). -/
def Dup.homes (d : Dup) (pfn : Nat) : Bool := if d.pages = 16 then d.pfn / 16 == pfn / 16 else d.pfn == pfn

/-- The causes that a use of a leaf meets (R94, R107, R108, R352). -/
def leafCauses (s : State) (a : Acc) (u : Use) (va level pteAt pte : Nat) : List Nat :=
  let pa := leafPa s va level pte
  (if permitted a.mode u pte then [] else [0x22]) ++
    (if (rangeOf s pa).isNone then [0x29] else []) ++
    (if bit pte 12 && !(s.ld.moves.any fun m => ofEntries m.pteAt m.pages pteAt) then [0x43] else []) ++
    (if bit pte 13 && !(s.ld.dups.any fun d => d.homes (bits pte 59 16)) then [0x43] else []) ++
    (if poisoned s pa then [0x48] else []) ++ (if notOwned s pa then [0x4A] else [])

/-- A cached translation of the page that differs from the page tables and is still held (R109): one under the context's root, or made
for the context under a root that its entry named before (R350). -/
def heldEntry (s : State) (a : Acc) (va : Nat) (w : Walk) : Option TlbEntry :=
  s.ms.tlb.find? fun e =>
    e.vf == a.vf && (e.root == rootOf s a || e.ident == some a.ident) && e.vpn == va / 4096 &&
      (match w with | .leaf _ _ pte => e.pte.toNat != pte || e.root != rootOf s a | .stop _ => true) &&
      Config.tlbHeld s.free (e.vpn + 2 ^ 45 * e.pte.toNat)

/-- The translation of one address (R231, R352), by the page tables or by a cached translation still held. -/
def translate (s : State) (a : Acc) (u : Use) (va : Nat) : Xl :=
  if 2 ^ 57 ≤ va then .bad [0x21]
  else
    let w := walk s a va
    let fresh : Xl :=
      match w with
      | .stop c => .bad [c]
      | .leaf level pteAt pte =>
        match leafCauses s a u va level pteAt pte with
        | [] => .ok ⟨leafPa s va level pte / 4096 * 4096, level, pte, pteAt⟩
        | cs => .bad cs
    match heldEntry s a va w with
    | some e =>
      let pa := leafPa s va e.level e.pte.toNat
      if permitted a.mode u e.pte.toNat && (rangeOf s pa).isSome && !poisoned s pa && !notOwned s pa
      then .ok ⟨pa / 4096 * 4096, e.level, e.pte.toNat, 0⟩ else fresh
    | none => fresh

/-- A page lies within a frame whose home is a peer that is down; no translation of it is kept (R363). -/
def Page.gone (s : State) (p : Page) : Bool := peerGone s p.pa

/-- Sets bits in a table entry, and in all sixteen of a page of 64 KiB, which must agree (R352). -/
def markEntry (s : State) (p : Page) (marks : Nat) : State :=
  if bit p.pte 63 && p.level = 5 then
    (upto 16).foldl (fun s i =>
      let at_ := p.pteAt / 128 * 128 + 8 * i
      let x := physNat s at_ 8
      if x ||| marks = x then s else physPut s at_ 8 (x ||| marks)) s
  else if p.pte ||| marks = p.pte then s else physPut s p.pteAt 8 (p.pte ||| marks)

/-- The walker's marks on the entry it used (R352: A on first access, D on first write), and the cached copy. A translation to another
frame that was cached before stays until it is invalidated (R109). -/
def noteWalk (s : State) (a : Acc) (u : Use) (va : Nat) (p : Page) : State :=
  if p.pteAt = 0 then s
  else
    let marks := 32 ||| (if u = .store then 64 else 0)
    let s := markEntry s p marks
    let e : TlbEntry := ⟨a.vf, some a.ident, rootOf s a, va / 4096, p.level, BitVec.ofNat 64 (p.pte ||| marks)⟩
    if s.ms.tlb.contains e || p.gone s then s
    else
      let old (x : TlbEntry) : Bool := x.vf == e.vf && x.root == e.root && x.vpn == e.vpn && x.ident == e.ident &&
        ptePa x.pte.toNat == ptePa e.pte.toNat && x.pte.toNat / 2 ^ 12 % 2 == e.pte.toNat / 2 ^ 12 % 2
      { s with ms := { s.ms with tlb := s.ms.tlb.filter (fun x => !old x) ++ [e] } }

end Sys2Proof.Machine
end

