-- ==== Sys2Proof/Machine/Operands.lean ====
section
/-! DEFINITION. Register operands: register codes (R163), operand kinds (R164), pairs and quadruples (R165), access
queue ports (R32, R33), predicates (R10), immediates (R166), and reads inside lookahead windows (R170). -/

namespace Sys2Proof.Machine

/-! ## Keys and raw registers -/

/-- The key of lane l of vi. -/
def vKey (i l : Nat) : Nat := 32 * i + l
/-- The key of ki. -/
def kKey (i : Nat) : Nat := 1536 + i
/-- The key of mi. -/
def mKey (i : Nat) : Nat := 1552 + i

/-- The lanes a group has: 32, and one in a scalar context (R8, R27). -/
def lanes (c : Ctx) : Nat := if c.who.loc.die = 2 then 1 else 32

/-- The mask with all of a context's lanes. -/
def allLanes (c : Ctx) : Mask := if c.who.loc.die = 2 then 1 else 0xFFFFFFFF

/-- Lane l of vi, whatever window is open. -/
def vAt (c : Ctx) (i l : Nat) : Word := storeGet 0 c.regs (vKey i l)
/-- ki of the group. -/
def kAt (c : Ctx) (i : Nat) : Word := storeGet 0 c.regs (kKey i)
/-- mi; m0 reads as all ones (R163). -/
def mAt (c : Ctx) (i : Nat) : Word := if i = 0 then 0xFFFFFFFF else storeGet 0 c.regs (mKey i)

/-- Replaces the issuing context. -/
def setG (s : State) (c : Ctx) : State := { s with g := c }

/-- Writes a register by its key. -/
def putReg (s : State) (key : Nat) (x : Word) : State :=
  { s with g := { s.g with regs := storeSet 0 s.g.regs key x } }

/-! ## Windows -/

/-- The value that a register had before the instruction of an open window (R170). -/
def oldIn (wins : List Window) (reg key : Nat) : Option Word :=
  wins.findSome? fun w =>
    if w.regs.contains reg then (w.old.find? fun e => e.1 == key).map (·.2) else none

/-- The value that a register of the group had before an open window's instruction (R170). -/
def oldValue (c : Ctx) (reg key : Nat) : Option Word := oldIn c.wins reg key

/-- A read of a register: inside a window each lane gives the old or the new value (R170). `pos` is the operand's
place in the word. -/
def readReg (s : State) (pos reg key l : Nat) : Word :=
  match oldValue s.g reg key with
  | some o => if Config.windowOld s.free pos reg l then o else storeGet 0 s.g.regs key
  | none => storeGet 0 s.g.regs key

/-- A mask register as an operand: each lane's bit is old or new inside a window (R170). -/
def readMask (s : State) (pos i : Nat) : Mask :=
  if i = 0 then 0xFFFFFFFF
  else
    match oldValue s.g (64 + i) (mKey i) with
    | some o => maskOf fun l =>
        if Config.windowOld s.free pos (64 + i) l then lane o l else lane (storeGet 0 s.g.regs (mKey i)) l
    | none => storeGet 0 s.g.regs (mKey i)

/-- A register lies in the results of an open window. -/
def inWindow (wins : List Window) (regs : List Nat) : Bool := wins.any fun w => w.regs.any regs.contains

/-- The open windows of who issues: the access processor's own (R30, R170), or the group's. -/
def winsOf (s : State) : List Window :=
  match s.onAp, s.g.ap with
  | true, some a => a.wins
  | _, _ => s.g.wins

/-- Replaces the open windows of who issues. -/
def setWins (s : State) (wins : List Window) : State :=
  match s.onAp, s.g.ap with
  | true, some a => { s with g := { s.g with ap := some { a with wins := wins } } }
  | _, _ => { s with g := { s.g with wins := wins } }

/-- The value of the register with a key, for who issues. -/
def regAt (s : State) (key : Nat) : Word :=
  match s.onAp, s.g.ap with
  | true, some a => if 1536 ≤ key ∧ key < 1552 then storeGet 0 a.k (key - 1536) else storeGet 0 s.g.regs key
  | _, _ => storeGet 0 s.g.regs key

/-! ## Kinds -/

/-- A code names a v register (R163). -/
def isV (c : RegCode) : Bool := decide (c.toNat < 48)
/-- A code names a k register (R163). -/
def isK (c : RegCode) : Bool := !isV c

/-- The registers of `w` consecutive codes. -/
def codes (c : RegCode) (w : Nat) : List Nat := (upto w).map (c.toNat + ·)

/-- 0x03 unless a code is aligned to its width, 1, 2, 4 or 8 (R165). -/
def alignBad (c : RegCode) (w : Nat) : List Nat := if c.toNat % w = 0 then [] else [0x03]

/-- 0x03 unless a code names a k register aligned to its width. -/
def kBad (c : RegCode) (w : Nat) : List Nat := (if isK c then [] else [0x03]) ++ alignBad c w

/-- 0x03 unless a code names a v register aligned to its width. -/
def vBad (c : RegCode) (w : Nat) : List Nat := (if isV c then [] else [0x03]) ++ alignBad c w

/-- 0x03 unless a six-bit field names a mask (R163). -/
def maskBad (c : RegCode) : List Nat := if c.toNat < 8 then [] else [0x03]

/-! ## Sources -/

/-- A source operand read at issue: a v register, by the operand's place in the word and its code, or the values of k
registers or ports. -/
inductive Opnd
  | v (pos base : Nat)
  | k (vals : List Word)
deriving DecidableEq, Repr

/-- Word i of an operand in lane l. -/
def Opnd.word (o : Opnd) (s : State) (i l : Nat) : Word :=
  match o with
  | .v pos base => readReg s pos (base + i) (vKey (base + i) l) l
  | .k vals => vals.getD i 0

/-- The pair i, i + 1 of an operand in lane l. -/
def Opnd.pair (o : Opnd) (s : State) (i l : Nat) : DWord := Sys2Proof.pair (o.word s (i + 1) l) (o.word s i l)

/-- k register i of who issues: the access processor's own, or the group's (R30, R33), old or new inside a window
(R170). -/
def readK (s : State) (pos i : Nat) : Word :=
  match s.onAp, s.g.ap with
  | true, some a =>
    match oldIn a.wins (48 + i) (kKey i) with
    | some o => if Config.windowOld s.free pos (48 + i) 0 then o else storeGet 0 a.k i
    | none => storeGet 0 a.k i
  | _, _ => readReg s pos (48 + i) (kKey i) 0

/-- Handler mode (R147). -/
def hmode (c : Ctx) : Bool := c.trap.tcause.getLsbD 14

/-- Codes k12 to k15 of the group act as access-queue ports (R33, R149). -/
def portsOn (s : State) : Bool := !s.onAp && s.g.ap.isSome && !hmode s.g

/-- What reading ports comes to: not ready, drained or faulted (R35). -/
inductive PortStop
  | notReady
  | drained
  | fault (cause : Nat) (addr : DWord)
deriving DecidableEq, Repr

/-- What an empty port means (R35). -/
def emptyPort (a : Ap) : PortStop :=
  match a.run with
  | .running => .notReady
  | .faulted c addr false => .fault c addr
  | _ => .drained

/-- Pops one port (R33): what is before the entry's append is before the group's instruction (R34). -/
def popPort (s : State) (port : Nat) : Except PortStop (Word × State) :=
  match s.g.ap with
  | none => .error .drained
  | some a =>
    match a.aq.getD port [] with
    | [] => .error (emptyPort a)
    | e :: t =>
      let m := (if s.g.iss then s.g.s1 else s.g.s0).mask
      .ok (e.val, { s with g := { s.g with
        ap := some { a with aq := setAt a.aq port t }
        ord := { learn s.g.ord e.ids m with seen := s.g.ord.seen ++ e.seen.map fun x => { x with lanes := m } } } })

/-- Reads `n` consecutive k codes from `i` on, popping ports in ascending order (R165). -/
def takeK (pos : Nat) : Nat → Nat → State → Except PortStop (List Word × State)
  | 0, _, s => .ok ([], s)
  | n + 1, i, s =>
    if portsOn s && decide (12 ≤ i) then
      match popPort s (i - 12) with
      | .error e => .error e
      | .ok (x, s) =>
        match takeK pos n (i + 1) s with
        | .error e => .error e
        | .ok (xs, s) => .ok (x :: xs, s)
    else
      match takeK pos n (i + 1) s with
      | .error e => .error e
      | .ok (xs, s') => .ok (readK s pos i :: xs, s')

/-- Reads the source operands of an instruction in the order of their fields from bit 20 downward (R33); each is its
place in the word, its code and its width in registers. -/
def takeAll : List (Nat × RegCode × Nat) → State → Except PortStop (List Opnd × State)
  | [], s => .ok ([], s)
  | (pos, c, w) :: t, s =>
    if isV c then
      match takeAll t s with
      | .error e => .error e
      | .ok (os, s') => .ok (.v pos c.toNat :: os, s')
    else
      match takeK pos w (c.toNat - 48) s with
      | .error e => .error e
      | .ok (xs, s) =>
        match takeAll t s with
        | .error e => .error e
        | .ok (os, s') => .ok (.k xs :: os, s')

/-! ## Results -/

/-- Writes lane l of vi. -/
def putV (s : State) (i l : Nat) (x : Word) : State := putReg s (vKey i l) x

/-- Writes vi in each lane of a mask. -/
def putLanes (s : State) (i : Nat) (act : Mask) (f : Nat → Word) : State :=
  (lanesOf act).foldl (fun s l => putV s i l (f l)) s

/-- Writes a mask register of the group; m0 discards it (R163). -/
def putMask (s : State) (i : Nat) (x : Mask) : State := if i = 0 then s else putReg s (mKey i) x

/-- The k-register write of who issues; the access processor's k12 to k15 also append to its queues (R32). -/
def putK (s : State) (i : Nat) (x : Word) : State :=
  match s.onAp, s.g.ap with
  | true, some a =>
    let a := { a with k := storeSet 0 a.k i x }
    let a := if 12 ≤ i then { a with aq := setAt a.aq (i - 12) (a.aq.getD (i - 12) [] ++ [⟨x, a.ids, a.seen⟩]) } else a
    { s with g := { s.g with ap := some a } }
  | _, _ => putReg s (kKey i) x

/-- The access queues have room for a slice's results in these k registers (R32). -/
def apRoom (s : State) (ks : List Nat) : Bool :=
  match s.onAp, s.g.ap with
  | true, some a => ks.all fun i => decide (i < 12) || decide ((a.aq.getD (i - 12) []).length < 16)
  | _, _ => true

/-- A uniform result of a group-set instruction: a k register, or every lane of a v register whatever the mask
(R164). An access processor has no v registers: there the manual does not say whose the destination is, and the model takes
the attached group's (DESIGN CHOICE, notes/assumptions/20.md). -/
def putUniform (s : State) (c : Nat) (x : Word) : State :=
  if c < 48 then putLanes s c (allLanes s.g) fun _ => x else putK s (c - 48) x

/-- A uniform result of several words in consecutive registers. -/
def putUniforms (s : State) (c : Nat) : List Word → State
  | [] => s
  | x :: t => putUniforms (putUniform s c x) (c + 1) t

/-! ## Immediates -/

/-- A 9-bit immediate, sign-extended (R166). -/
def simm9 (i : BitVec 9) : Word := i.signExtend 32
/-- A 9-bit immediate, zero-extended (R166). -/
def zimm9 (i : BitVec 9) : Word := i.setWidth 32

end Sys2Proof.Machine
end

