-- ==== Sys2Proof/Machine/Ops.lean ====
section
/-! DEFINITION. What every instruction shares: program-counter slots and the divergence stack (R11 to R20), the
next-address selector (R12, R167 to R169), lookahead windows (R170), taking a trap (R148) and returning from one
(R150), and the frame in which an instruction issues (R23, R154, R397). -/

namespace Sys2Proof.Machine

/-! ## Slots and sequencing state -/

/-- An empty slot. -/
def emptySlot : Slot := ⟨false, 0, 0, .none⟩

/-- Empty sequencing state. -/
def emptySeq : Seq := ⟨List.replicate 4 0, 0, List.replicate 4 (0, 0), 0, List.replicate 8 0, 0, 0⟩

/-- The slot that issues. -/
def curSlot (c : Ctx) : Slot := if c.iss then c.s1 else c.s0

/-- The other slot. -/
def otherSlot (c : Ctx) : Slot := if c.iss then c.s0 else c.s1

/-- Replaces the slot that issues. -/
def setCur (c : Ctx) (x : Slot) : Ctx := if c.iss then { c with s1 := x } else { c with s0 := x }

/-- Replaces the other slot. -/
def setOther (c : Ctx) (x : Slot) : Ctx := if c.iss then { c with s0 := x } else { c with s1 := x }

/-- The active mask of the instruction that issues (R10). An access processor's instructions count as covering every
lane of its group. -/
def active (s : State) : Mask := if s.onAp then allLanes s.g else (curSlot s.g).mask &&& allLanes s.g

/-- The program counter of the instruction that issues. -/
def curPc (s : State) : Addr :=
  match s.onAp, s.g.ap with
  | true, some a => a.pc
  | _, _ => (curSlot s.g).pc

/-- Moves the path that issues. -/
def setPc (s : State) (pc : Addr) : State :=
  match s.onAp, s.g.ap with
  | true, some a => { s with g := { s.g with ap := some { a with pc := pc } } }
  | _, _ => setG s (setCur s.g { curSlot s.g with pc := pc, wait := .none })

/-- The sequencing state that selectors use: the access processor's, the handler's, or the group's (R30, R149). -/
def seqOf (s : State) : Seq :=
  match s.onAp, s.g.ap with
  | true, some a => a.seq
  | _, _ => if hmode s.g then s.g.hseq else s.g.seq

/-- Replaces the sequencing state that selectors use. -/
def setSeq (s : State) (q : Seq) : State :=
  match s.onAp, s.g.ap with
  | true, some a => { s with g := { s.g with ap := some { a with seq := q } } }
  | _, _ => if hmode s.g then { s with g := { s.g with hseq := q } } else { s with g := { s.g with seq := q } }

/-- ORs bits into the group's FLAGS (R173). -/
def orFlags (s : State) (f : Word) : State := { s with g := { s.g with flags := s.g.flags ||| f } }

/-- FLAGS.SQO (R167, R168). -/
def sqo : Word := 64

/-- Appends a target (R167). -/
def pushTarget (s : State) (t : Addr) : State :=
  let q := seqOf s
  if q.tqn < 4 then setSeq s { q with tq := setAt q.tq q.tqn t, tqn := q.tqn + 1 }
  else orFlags (setSeq s { q with tq := q.tq.drop 1 ++ [t] }) sqo

/-- Pops the oldest target; none when the queue is empty. -/
def popTarget (s : State) : Option (Addr × State) :=
  let q := seqOf s
  if q.tqn = 0 then none
  else some (q.tq.headD 0, setSeq s { q with tq := q.tq.drop 1 ++ [0], tqn := q.tqn - 1 })

/-- Pushes a loop entry (R168). -/
def pushLoop (s : State) (start : Addr) (count : Word) : State :=
  let q := seqOf s
  if q.lsn < 4 then setSeq s { q with loops := setAt q.loops q.lsn (start, count), lsn := q.lsn + 1 }
  else orFlags (setSeq s { q with loops := q.loops.drop 1 ++ [(start, count)] }) sqo

/-- Pops the top loop entry, if there is one. -/
def popLoop (s : State) : State :=
  let q := seqOf s
  if q.lsn = 0 then s else setSeq s { q with loops := setAt q.loops (q.lsn - 1) (0, 0), lsn := q.lsn - 1 }

/-! ## Who accesses memory -/

/-- Mode encodings of TCAUSE.PM (R147). -/
def modeCode : Mode → Nat
  | .usr => 0 | .sup => 1 | .hyp => 2 | .mch => 3

/-- The mode that a code names. -/
def modeOf (n : Nat) : Mode :=
  if n % 4 = 0 then .usr else if n % 4 = 1 then .sup else if n % 4 = 2 then .hyp else .mch

/-- The access rights of a context. -/
def accOf (c : Ctx) : Acc := ⟨c.who.vf, c.who.ident, c.mode, c.who.loc.die⟩

/-- The agent that a context is (R69). -/
def agentOf (c : Ctx) : Agent := ⟨c.who.vf, c.who.uid, c.who.teamId, c.who.loc.die, c.who.loc.cluster⟩

/-- The issuing group as a party to memory events of some lanes. -/
def partyOf (s : State) (m : Mask) : Party := ⟨agentOf s.g, m, s.g.ord⟩

/-- What stops a device access made for the group: a cause and its faulting address (0 for none), or a hold until a move
or collapse ends, with the entry of the page (0 for none). -/
inductive Halt
  | cause (c addr : Nat)
  | hold (pte : Nat)
deriving DecidableEq, Repr

/-- The collapse of a page's duplicates begins (R105). -/
def beginCollapse (s : State) (pte : Nat) : State :=
  let mark (d : Dup) : Dup := if d.homes (bits pte 59 16) then { d with collapsing := true } else d
  { s with ld := { s.ld with dups := s.ld.dups.map mark } }

/-- The collapse that a halted write begins, if its page has duplicates. -/
def collapseAt (s : State) (pte : Nat) : State := if bit pte 13 then beginCollapse s pte else s

/-- The side-log entries of the issuing group. -/
def ownLog (s : State) : List LogEntry :=
  s.ms.log.filter fun e => e.vf == s.g.who.vf && e.ident == s.g.who.ident

/-- Who issues has an event of some of its lanes before it (R71, R34). -/
def isKnown (s : State) (m : Mask) (ev : Nat) : Bool :=
  match s.onAp, s.g.ap with
  | true, some a => a.ids.contains ev
  | _, _ => knows s.g.ord m ev

/-- An entry of the group is before an event of some lanes (R71); a handler sees every one (R149). -/
def ownEntry (s : State) (m : Mask) (e : LogEntry) : Bool := (hmode s.g && !s.onAp) || isKnown s m e.ev

/-- An entry holds the byte at an address. -/
def LogEntry.holds (e : LogEntry) (va : Nat) : Bool :=
  decide (e.va ≤ va) && decide (va < e.va + e.data.length) && bit e.bmask (va - e.va)

/-- A byte that a pending entry before an event of these lanes holds (R81), unless a newer write of theirs has reached its place. -/
def forwarded (s : State) (m : Mask) (va key : Nat) : Option Byte :=
  match (ownLog s).reverse.find? fun e => ownEntry s m e && e.holds va with
  | none => none
  | some e =>
    if (recsOf s key).any fun w => w.preds.contains e.ev && isKnown s m w.ev then none
    else some (e.data.getD (va - e.va) 0)

/-- The writes of an event from an address on, each at a distance and a key, follow the pending entries of the same bytes that are before
them (R81). -/
def followLog (s : State) (m : Mask) (ev va : Nat) (keys : List (Nat × Nat)) : State :=
  if (ownLog s).isEmpty then s
  else
    keys.foldl (fun s x =>
      let older := ((ownLog s).filter fun e => ownEntry s m e && e.holds (va + x.1)).map (·.ev)
      { s with ms := { s.ms with
          hist := mapWhere (fun w => w.ev == ev && w.key == x.2) (fun w => { w with preds := w.preds ++ older }) s.ms.hist } }) s

/-- A plain store of n bytes that the device makes on the group's behalf at group scope, with an instruction of the lanes `m` (R18, R71); any
fault of translation is cause `c` (R20, R169). It is counted at no port and leaves no sector to be counted, which R398 leaves open (DESIGN
CHOICE, notes/assumptions/101.md). -/
def groupStore (s : State) (m : Mask) (c va n x : Nat) : Except Halt State :=
  match translate s (accOf s.g) .store va with
  | .bad _ => .error (.cause c va)
  | .ok p =>
    if bit p.pte 12 || bit p.pte 13 then .error (.hold p.pte)
    else
      let s := noteWalk s (accOf s.g) .store va p
      let (ev, s) := takeFresh s
      let keys := physKeys s (p.pa + va % 4096) n
      let s := quieten (followLog (groupPut s (partyOf s m) ev keys (bytesOfNat n x)) m ev va ((upto n).zip keys)) ev (quietLanes s m)
      .ok { s with g := { s.g with ord := learn s.g.ord [ev] m } }

/-- A plain load of n bytes that the device makes on the group's behalf at group scope: what any lane of the group wrote is before it
(R18, R34), and it reads pending entries of the side log as the group does (R81). -/
def groupLoad (s : State) (c va n : Nat) : Except Halt (Nat × State) :=
  match translate s (accOf s.g) .load va with
  | .bad _ => .error (.cause c va)
  | .ok p =>
    let s := noteWalk s (accOf s.g) .load va p
    let o := partyOf s 0xFFFFFFFF
    let byte (x : Nat × Nat) : Byte := (forwarded s o.lanes (va + x.1) x.2).getD (plainByte s o.ord o.lanes o.ag 0 x.2)
    .ok (natOfBytes (((upto n).zip (physKeys s (p.pa + va % 4096) n)).map byte), s)

/-! ## The divergence stack -/

/-- The pointer of the active divergence region (R19). -/
def activeDs (c : Ctx) : DWord := if hmode c then c.dsh else c.dsp

/-- Replaces the pointer of the active divergence region. -/
def setActiveDs (c : Ctx) (x : DWord) : Ctx := if hmode c then { c with dsh := x } else { c with dsp := x }

/-- DEPTH of a pointer (R19). -/
def depthOf (d : DWord) : Nat := bits d.toNat 11 4

/-- The same pointer with another DEPTH. -/
def withDepth (d : DWord) (n : Nat) : DWord := (d &&& ~~~(0xFF0 : DWord)) ||| BitVec.ofNat 64 (n * 16)

/-- The address of entry i of a region (R19). -/
def entryAt (d : DWord) (i : Nat) : Nat := bits d.toNat 56 12 * 4096 + 16 * i

/-- Pushes a path, with an instruction of the lanes `own` (R18, R19, R20). -/
def pushPath (s : State) (own : Mask) (pc : Addr) (m : Mask) : Except Halt State :=
  let d := activeDs s.g
  let n := depthOf d
  if n = 255 then .error (.cause 0x08 0)
  else
    match groupStore s own 0x09 (entryAt d n) 16 (pc.toNat + m.toNat * 2 ^ 64) with
    | .error e => .error e
    | .ok s => .ok { s with g := { setActiveDs s.g (withDepth d (n + 1)) with top := some (pc, m) } }

/-- The top entry of the active region, from the cache or from memory (R18). -/
def loadTop (s : State) : Except Halt State :=
  let d := activeDs s.g
  if depthOf d = 0 then .ok { s with g := { s.g with top := none } }
  else if s.g.top.isSome then .ok s
  else
    match groupLoad s 0x09 (entryAt d (depthOf d - 1)) 16 with
    | .error e => .error e
    | .ok (x, s) =>
      .ok { s with g := { s.g with top := some (BitVec.ofNat 57 (x / 4 % 2 ^ 55 * 4), BitVec.ofNat 32 (x / 2 ^ 64)) } }

/-- Drops the top entry and reads the next (R19). -/
def popTop (s : State) : Except Halt State :=
  let d := activeDs s.g
  loadTop { s with g := { setActiveDs s.g (withDepth d (depthOf d - 1)) with top := none } }

/-- Merges and pops until two live slots differ, or the region is empty (R13, R15). A new top entry is compared at once, within
the same issue; when its PC is that of a live slot 1 while slot 0 is empty, that slot holds the merged path, as R13 says of a
merge with the top entry, and slot 0 stays for the next pop (DEDUCED, notes/assumptions/72.md). A merge of two slots keeps what
slot 0 waits for and drops what slot 1 waits for; a path that is pushed waits for nothing when it returns, and its entry among the
waiters of a queue stays until its wait would be served (DESIGN CHOICE, notes/assumptions/90.md). -/
def settle : Nat → State → Except Halt State
  | 0, s => .ok s
  | n + 1, s =>
    let c := s.g
    if c.s0.valid && c.s1.valid && c.s0.pc == c.s1.pc then
      settle n (setG s { c with s0 := { c.s0 with mask := c.s0.mask ||| c.s1.mask }, s1 := emptySlot })
    else
      match loadTop s with
      | .error e => .error e
      | .ok s =>
        let c := s.g
        match c.top with
        | none => .ok s
        | some (pc, m) =>
          if c.s0.valid && c.s0.pc == pc then
            match popTop (setG s { c with s0 := { c.s0 with mask := c.s0.mask ||| m } }) with
            | .error e => .error e
            | .ok s => settle n s
          else if c.s1.valid && c.s1.pc == pc then
            match popTop (setG s { c with s1 := { c.s1 with mask := c.s1.mask ||| m } }) with
            | .error e => .error e
            | .ok s => settle n s
          else if !c.s0.valid then
            match popTop (setG s { c with s0 := ⟨true, pc, m, .none⟩ }) with
            | .error e => .error e
            | .ok s => settle n s
          else if !c.s1.valid then
            match popTop (setG s { c with s1 := ⟨true, pc, m, .none⟩ }) with
            | .error e => .error e
            | .ok s => settle n s
          else .ok s

/-- The taken path and the path at PC + 4 of a split take their places (R12, R13, R14). Where both have one PC and an empty slot
takes the one, they are the paths of the two slots, which slot 0 then holds merged. A path of the split whose PC is that of the
other slot merges with it before any third path is made: the taken path joins the other slot, and the path at PC + 4 joins the
other slot's path in slot 0 while the taken path takes slot 1 (DESIGN CHOICE, notes/assumptions/89.md). -/
def split (s : State) (target next : Addr) (taken : Mask) : Except Halt State :=
  let c := s.g
  let fall : Mask := (curSlot c).mask &&& ~~~taken
  let o := otherSlot c
  let stay := setCur c ⟨true, next, fall, .none⟩
  if target = next then
    if o.valid then .ok (setG s (setCur c ⟨true, next, fall ||| taken, .none⟩))
    else .ok (setG s { c with s0 := ⟨true, next, fall ||| taken, .none⟩, s1 := emptySlot })
  else if !o.valid then .ok (setG s (setOther stay ⟨true, target, taken, .none⟩))
  else if o.pc = target then .ok (setG s (setOther stay { o with mask := o.mask ||| taken }))
  else if o.pc = next then
    .ok (setG s { c with s0 := ⟨true, next, fall ||| o.mask, .none⟩, s1 := ⟨true, target, taken, .none⟩ })
  else if target.toNat > next.toNat && target.toNat > o.pc.toNat then
    match pushPath s (active s) target taken with
    | .error e => .error e
    | .ok s => .ok (setG s (setCur s.g ⟨true, next, fall, .none⟩))
  else if o.pc.toNat > next.toNat then
    match pushPath s (active s) o.pc o.mask with
    | .error e => .error e
    | .ok s => .ok (setG s (setOther (setCur s.g ⟨true, next, fall, .none⟩) ⟨true, target, taken, .none⟩))
  else
    match pushPath s (active s) next fall with
    | .error e => .error e
    | .ok s => .ok (setG s (setCur s.g ⟨true, target, taken, .none⟩))

/-! ## The call stack -/

/-- The address of spilled entry i of the call area (R169). -/
def callAreaAt (c : Ctx) (i : Nat) : Nat := (bits (activeDs c).toNat 56 12 + 1) * 4096 + 8 * i

/-- Pushes a return address, spilling the oldest when eight are held; 512 spilled entries let no call through (R169). -/
def pushCall (s : State) (pc : Addr) : Except Halt State :=
  let q := seqOf s
  if q.css = 512 then .error (.cause 0x08 0)
  else if q.csn < 8 then .ok (setSeq s { q with calls := setAt q.calls q.csn pc, csn := q.csn + 1 })
  else if s.onAp then .error (.cause 0x08 0)
  else
    match groupStore s (active s) 0x09 (callAreaAt s.g q.css) 8 (q.calls.headD 0).toNat with
    | .error e => .error e
    | .ok s => .ok (setSeq s { q with calls := q.calls.drop 1 ++ [pc], css := q.css + 1 })

/-- Reads spilled entry i. -/
def spilled (s : State) (i : Nat) : Except Halt (Addr × State) :=
  match groupLoad s 0x09 (callAreaAt s.g i) 8 with
  | .error e => .error e
  | .ok (x, s) => .ok (BitVec.ofNat 57 (x / 4 * 4), s)

/-- Pops the newest return address of the hardware stack; a stack that this empties is refilled from the call area (R169). -/
def popHeld (s : State) : Except Halt (Option Addr × State) :=
  let q := seqOf s
  let a := q.calls.getD (q.csn - 1) 0
  let q' := { q with calls := setAt q.calls (q.csn - 1) 0, csn := q.csn - 1 }
  if q.csn = 1 && q.css != 0 && !s.onAp then
    match spilled s (q.css - 1) with
    | .error e => .error e
    | .ok (b, s) => .ok (some a, setSeq s { q' with calls := setAt q'.calls 0 b, csn := 1, css := q.css - 1 })
  else .ok (some a, setSeq s q')

/-- Pops a return address, first read into an empty hardware stack from the call area; none when both are empty (R169). -/
def popCall (s : State) : Except Halt (Option Addr × State) :=
  let q := seqOf s
  if q.csn ≠ 0 then popHeld s
  else if q.css = 0 || s.onAp then .ok (none, s)
  else
    match spilled s (q.css - 1) with
    | .error e => .error e
    | .ok (a, s) => popHeld (setSeq s { q with calls := setAt q.calls 0 a, csn := 1, css := q.css - 1 })

/-! ## The next-address selector -/

/-- The path that issues ends: its slot becomes empty, or the slice stops (R12, R35). The empty slot keeps the mask that
the path had, with which a handler of 0x26 starts (R152). -/
def endPath (s : State) : State :=
  match s.onAp, s.g.ap with
  | true, some a => { s with g := { s.g with ap := some { a with run := .ended } } }
  | _, _ => setG s (setCur s.g { curSlot s.g with valid := false, wait := .none })

/-- m7 as the selector of an instruction reads it, when the instruction issues: what the instruction itself writes there comes later
(R12, R170, R175). -/
def selectorMask (s : State) : Mask := readMask s 7 7

/-- bt and bf: c[l] = m7[l] AND active[l], inverted for bf (R12). A path without active lanes, which a written TMSK makes, meets the
conditions of both the first two rows of bt; it goes to the target (DESIGN CHOICE, notes/assumptions/88.md). A slice has one path,
which lane 0's bit of the group's m7 sends one way. -/
def branch (s : State) (m7 : Mask) (invert : Bool) : Except Halt State :=
  let next := curPc s + 4
  match popTarget s with
  | none => .error (.cause 0x06 0)
  | some (t, s') =>
    if s.onAp then .ok (setPc s' (if lane m7 0 != invert then t else next))
    else
      let act := active s
      let taken : Mask := (if invert then ~~~m7 else m7) &&& act
      if taken = act then .ok (setPc s' t)
      else if taken = 0 then .ok (setPc s' next)
      else split s' t next taken

/-- What a selector does to the path that issues, before merges and pops (R12, R168, R169); `m7` is the mask that bt and bf test. -/
def select (s : State) (m7 : Mask) (nas : Nas) : Except Halt State :=
  let next := curPc s + 4
  match nas with
  | .seq => .ok (setPc s next)
  | .loop =>
    let q := seqOf s
    if q.lsn = 0 then .ok (setPc s next)
    else
      let e := q.loops.getD (q.lsn - 1) (0, 0)
      if e.2 ≠ 0 then .ok (setPc (setSeq s { q with loops := setAt q.loops (q.lsn - 1) (e.1, e.2 - 1) }) e.1)
      else .ok (setPc (popLoop s) next)
  | .bt => branch s m7 false
  | .bf => branch s m7 true
  | .jmp =>
    match popTarget s with
    | none => .error (.cause 0x06 0)
    | some (t, s) => .ok (setPc s t)
  | .call =>
    match popTarget s with
    | none => .error (.cause 0x06 0)
    | some (t, s) =>
      match pushCall s next with
      | .error e => .error e
      | .ok s => .ok (setPc s t)
  | .ret =>
    match popCall s with
    | .error e => .error e
    | .ok (some a, s) => .ok (setPc s a)
    | .ok (none, s) => .ok (endPath s)
  | .stop => .ok (endPath s)

/-- How many merges and pops an issue can bring. -/
def settleFuel : Nat := 260

/-- R13 and R15, which never act in a scalar context (R27) and on an access processor. -/
def settled (s : State) : Except Halt State :=
  if s.onAp || s.g.who.loc.die == 2 then .ok s else settle settleFuel s

/-- The selector acts, then R13 and R15. The target queue and the stacks are those that the instruction leaves (R285); `m7` is what the
mask held before it (R175). -/
def applyNas (m7 : Mask) (s : State) (nas : Nas) : Except Halt State :=
  match select s m7 nas with
  | .error e => .error e
  | .ok s => settled s

/-! ## Traps -/

/-- The points at which causes are taken by a group (R146). -/
inductive Fate
  | p | a | c | f
deriving DecidableEq, Repr

/-- A cause about to be taken: its fate, origin, the lanes that raised it, TADDR, and for fate C the access to
replay. -/
structure Raise where
  cause : Nat
  fate : Fate
  orig : Nat
  lanes : Mask
  addr : DWord
  pc : Addr
deriving DecidableEq, Repr

/-- A cause of the whole instruction, precise: every active lane raised it (R154). -/
def precise (s : State) (c : Nat) : Raise := ⟨c, .p, 0, active s, 0, 0⟩

/-- A precise cause with its faulting address (R147, R152). -/
def preciseAt (s : State) (c va : Nat) : Raise := ⟨c, .p, 0, active s, BitVec.ofNat 64 va, 0⟩

/-- The lowest lane of a mask, 0 for none. -/
def lowest (m : Mask) : Nat := (lanesOf m).headD 0

/-- TVEC, HTVEC and MTVEC (R147). -/
def vector (s : State) (m : Mode) : Addr :=
  let x :=
    match m with
    | .usr | .sup => vfReg s s.g.who.vf 0x04C
    | .hyp => devReg s 0x101
    | .mch => devReg s 0x1CF
  BitVec.ofNat 57 (bits x.toNat 56 2 * 4)

/-- The mode of the handler that receives a cause (R148 step 4, R159). -/
def handlerMode (from_ : Mode) (cause : Nat) : Mode :=
  if from_ = .mch then .mch
  else if from_ = .hyp || (0xC0 ≤ cause && cause ≤ 0xDF) then .hyp
  else .sup

/-- The windows of a group close: their results are written already; lanes that complete with 0x30 become pending
replays (R148 step 1, R399). -/
def closeWindows (c : Ctx) : Ctx :=
  { c with
    wins := []
    replays := c.replays ++ (c.wins.filter fun w => w.gone != 0).map fun w => ⟨0x30, 1, w.pc, w.gone, w.goneAddr⟩ }

/-- The phase that a group which waits in a gbar after its arrival keeps in PIDX when it is stopped (R295). -/
def restPhase (c : Ctx) : Option Word :=
  match c.s0.wait, c.s1.wait with
  | .barrier _ _ ph, _ => some (if ph then 2 else 1)
  | _, .barrier _ _ ph => some (if ph then 2 else 1)
  | _, _ => none

/-- A stop of a group that waits in a gbar after its arrival records the phase in PIDX (R153, R157, R295). -/
def restPidx (c : Ctx) : Ctx :=
  match restPhase c with
  | some p => { c with pidx := p }
  | none => c

/-- The same at the entry of a handler; where PIDX then holds the chunk index of an engine command, the phase is part of the
group's own PIDX, which gtret restores (R153). -/
def entryPidx (c : Ctx) : Ctx :=
  match restPhase c, c.cmdFault with
  | some p, some (_, n) => { c with cmdFault := some (p, n) }
  | some p, none => { c with pidx := p }
  | none, _ => c

/-- Withdraws what a context waits for at queue homes (R292). -/
def withdraw (s : State) (vf ident : Nat) : State :=
  { s with wk := { s.wk with waiters := s.wk.waiters.filter fun w => w.vf != vf || w.ident != ident } }

/-- The heartbeat unit of a core: its cluster, 32 d + c (R378); a scalar core has one unit for each context. -/
def haltUnit (l : Loc) : Nat := if l.die = 2 then 64 + l.num else 32 * l.die + l.cluster

/-- The context ends with a cause of fate E: its slots empty, its region holds nothing and the cause is logged (R156, R159,
R382). Its end is the step GROUP_END. -/
def endContext (s : State) (cause : Nat) : State :=
  let s := withdraw s s.g.who.vf s.g.who.ident
  let source := if cause = 0xE2 then Config.doubleFaultSource.toNat else 0
  let s := logError s cause source s.g.who.ident (haltUnit s.g.who.loc) 0 1
  { s with
    ms := { s.ms with log := s.ms.log.filter fun e => e.vf != s.g.who.vf || e.ident != s.g.who.ident }
    g := { s.g with
      s0 := emptySlot, s1 := emptySlot, dsp := withDepth s.g.dsp 0, dsh := withDepth s.g.dsh 0, top := none
      wins := [], replays := [], pend := none, ap := none, endCause := some cause, redo := none } }

/-- The image of a slot in TEPC0 or TEPC1 (R147). -/
def tepcOf (x : Slot) : DWord := if x.valid then x.pc.setWidth 64 ||| (1 <<< 63) else 0

/-- TCAUSE as entry writes it (R147). -/
def tcauseOf (s : State) (r : Raise) : Word :=
  BitVec.ofNat 32 (r.cause % 256 + 256 * r.orig + (if r.fate = .a then 1024 else 0) + (if s.g.iss then 2048 else 0) +
    4096 * modeCode s.g.mode + 16384 + (if r.fate = .c then 32768 else 0) + 65536 * lowest r.lanes)

/-- What the delivery of a cause of fate F clears (R152): an unresolvable entry, an access processor's fault, BBOV. -/
def delivered (c : Ctx) (r : Raise) : Ctx :=
  let c := if r.cause = 0x26 && r.orig = 3 then { c with unres := false } else c
  let c := if r.cause = 0x62 && r.fate = .f then { c with flags := c.flags &&& ~~~(32 : Word) } else c
  match r.orig, c.ap with
  | 1, some a =>
    { c with ap := some { a with run := match a.run with | .faulted e x _ => .faulted e x true | y => y } }
  | _, _ => c

/-- Takes a trap (R148). The state is the one from which the handler starts: for fate A the selector has acted.
`m` is the active mask of the raising path. In handler mode the cause is a double fault (R156). -/
def takeTrap (s : State) (r : Raise) (m : Mask) : State :=
  if hmode s.g then endContext s 0xE2
  else
    let c := delivered (entryPidx (closeWindows s.g)) r
    let mode := handlerMode c.mode r.cause
    let s := withdraw s c.who.vf c.who.ident
    { s with g := { c with
        trap := { c.trap with
          tcause := tcauseOf s r
          tepc0 := tepcOf c.s0
          tepc1 := tepcOf c.s1
          tmsk0 := if c.s0.valid then c.s0.mask else if c.s1.valid then 0 else m
          tmsk1 := if c.s1.valid then c.s1.mask else 0
          taddr := r.addr
          tlanes := r.lanes
          trpc := if r.fate = .c then r.pc.setWidth 64 else 0 }
        mode := mode
        s0 := ⟨true, vector s mode, m, .none⟩
        s1 := emptySlot
        iss := false
        hseq := emptySeq
        top := none } }

/-- The slot of the path that raised a cause, when the cause is taken: slot `was` if it still holds some of the path's lanes,
else the other slot if that does, because the path merged into it or ended (R13, R147). -/
def raisingSlot (c : Ctx) (was : Bool) (own : Mask) : Bool :=
  let holds (x : Slot) : Bool := x.valid && (x.mask &&& own) != 0
  if holds (if was then c.s1 else c.s0) then was else if holds (if was then c.s0 else c.s1) then !was else was

/-- The active mask of the path that raised a cause for the lanes `own`, which were of a path with the mask `path` when it issued: that of
the slot which holds some of them, else the mask that it had (R148 step 5, R152). -/
def raisingMask (c : Ctx) (was : Bool) (own path : Mask) : Mask :=
  let x := if raisingSlot c was own then c.s1 else c.s0
  if x.valid && (x.mask &&& own) != 0 then x.mask else path

/-- Takes a trap that some lanes `own` of a path of slot `was` with the mask `path` raised, some time after it issued the
instruction. -/
def takeLate (s : State) (r : Raise) (was : Bool) (own path : Mask) : State :=
  takeTrap (setG s { s.g with iss := raisingSlot s.g was own }) r (raisingMask s.g was own path)

/-- An access completes with 0x30 for the lanes of its window, which is closed (R151). -/
def takeGone (s : State) (w : Window) : State := takeLate s ⟨0x30, .c, 0, w.gone, w.goneAddr, w.pc⟩ w.slot w.gone w.path

/-- A cause raised while an access processor issues stops the slice at its instruction (R35). -/
def stopSlice (s : State) (r : Raise) : State :=
  match s.g.ap with
  | some a => { s with g := { s.g with ap := some { a with run := .faulted r.cause r.addr false } } }
  | none => s

/-- A cause of fate A, taken once the selector has acted: that of the path which issued from slot `was` with the lanes `own`. -/
def raiseAfter (s : State) (r : Raise) (was : Bool) (own : Mask) : State :=
  if s.onAp then stopSlice s r else takeLate s r was own own

/-- A cause is taken by who issues. -/
def raiseNow (s : State) (r : Raise) (m : Mask) : State := if s.onAp then stopSlice s r else takeTrap s r m

/-- Restores a slot from its saved image (R150). -/
def slotOf (tepc : DWord) (m : Mask) : Slot :=
  if tepc.getLsbD 63 then ⟨true, tepc.setWidth 57, m, .none⟩ else emptySlot

/-- Leaves the handler: both slots, the mode and HMODE (R150 steps 2 and 3). A scalar context has slot 0 only (R27). -/
def leaveHandler (s : State) : State :=
  let t := s.g.trap
  { s with g := { s.g with
      s0 := slotOf t.tepc0 t.tmsk0
      s1 := if s.g.who.loc.die = 2 then emptySlot else slotOf t.tepc1 t.tmsk1
      mode := modeOf (bits t.tcause.toNat 13 12)
      trap := { t with tcause := t.tcause &&& ~~~(0x4000 : Word) }
      iss := !t.tepc0.getLsbD 63 && s.g.who.loc.die != 2
      hseq := emptySeq
      top := none
      pidx := match s.g.cmdFault with | some (p, _) => p | none => s.g.pidx
      cmdFault := none } }

/-! ## Priority of causes -/

/-- The codes of fates P, A, C and F (R159), which gtrap delivers under their own number. -/
def deliverable (c : Nat) : Bool :=
  (decide (0x01 ≤ c) && decide (c ≤ 0x09)) || (decide (0x20 ≤ c) && decide (c ≤ 0x26)) || (decide (0x61 ≤ c) && decide (c ≤ 0x66)) ||
    (decide (0x69 ≤ c) && decide (c ≤ 0x6D)) || (decide (0x80 ≤ c) && decide (c ≤ 0x84)) || (decide (0xA1 ≤ c) && decide (c ≤ 0xAA)) ||
    [0x0B, 0x0C, 0x0F, 0x10, 0x28, 0x29, 0x30, 0x31, 0x41, 0x43, 0x48, 0x4A, 0xC0, 0xC1, 0xC2].contains c

/-- The row of R154 in which a cause stands. -/
def causeRow (c : Nat) : Nat :=
  if c = 0x01 || c = 0x02 || c = 0x03 || c = 0x05 || c = 0x0C then 0
  else if c = 0xC1 || c = 0xC2 then 1
  else if c = 0x24 || c = 0x25 then 2
  else if c = 0x20 || c = 0x21 || c = 0x22 || c = 0x23 || c = 0x28 || c = 0x29 then 3
  else if c = 0x43 || c = 0x48 || c = 0x4A then 4
  else 5

/-- A number that orders causes as R154 does. -/
def causeRank (c : Nat) : Nat := 256 * causeRow c + c

/-- The cause taken when several are raised (R154). -/
def firstCause : List Nat → Option Nat
  | [] => none
  | c :: t =>
    match firstCause t with
    | none => some c
    | some d => some (if causeRank c ≤ causeRank d then c else d)

/-! ## Issue -/

/-- What an instruction's own effect comes to. -/
inductive Res
  /-- It completes and its selector acts. -/
  | ok (s : State)
  /-- It completes, its selector acts, and a cause of fate A is taken. -/
  | after (s : State) (r : Raise)
  /-- A cause is taken with the instruction not issued. -/
  | trap (r : Raise)
  /-- It does not issue yet. -/
  | wait (w : Wait) (s : State)
  /-- It completes and has set every path itself. -/
  | over (s : State)
  /-- It does not issue: an older access or a command of the group takes its cause, with this outcome. -/
  | stop (s : State)
deriving DecidableEq, Repr

/-- What issue has to know of an instruction: causes of the first row of R154 that the word raises here, and the
registers it reads and writes (register codes; 64 + i for mi). -/
structure Io where
  bad : List Nat
  reads : List Nat
  writes : List Nat
deriving DecidableEq, Repr

/-- The mask that a selector reads (R12). -/
def nasReads : Nas → List Nat
  | .bt | .bf => [71]
  | _ => []

/-- DBGCTL.LAH of the group's VF (R174). -/
def lahOn (s : State) : Bool := (vfReg s s.g.who.vf 0x030).getLsbD 0

/-- A window that must close before this instruction: its count is used up, or the instruction writes one of its
results (R170). -/
def mustClose (writes : List Nat) (w : Window) : Bool := w.left == 0 || w.regs.any writes.contains

/-- An issue used up one instruction of every open window of who issues (R170). -/
def countWindows (s : State) : State := setWins s ((winsOf s).map fun w => { w with left := w.left - 1 })

/-- What issuing leaves in the context: wait counter and last-issue stamp (R24, R25), window counts (R170). -/
def issued (s : State) : State :=
  let s := countWindows s
  if s.onAp then s else { s with g := { s.g with waitCnt := 0, stamp := some (now s) } }

/-- The path that issues waits. -/
def setWait (s : State) (w : Wait) : State :=
  if s.onAp then s else setG s (setCur s.g { curSlot s.g with wait := w })

/-- The number of the partition of a place: 4 times the core's number, plus the partition. -/
def partOf (l : Loc) : Nat :=
  4 * (if l.die = 2 then 512 + l.core else 256 * l.die + 8 * l.cluster + l.core) + l.part

/-- A write to a register of the latched range clears the tag's validity, of a reload still queued too (R115, R250). -/
def touchLatch (c : Ctx) (writes : List Nat) (u : ArrayUnit) : ArrayUnit :=
  let hits (base : Nat) : Bool := writes.any fun w => decide (base ≤ w) && decide (w < base + 16)
  let mine (vf ident : Nat) : Bool := vf == c.who.vf && ident == c.who.ident
  { u with
    queue := u.queue.map fun e => if mine e.vf e.ident && hits e.base then { e with clean := false } else e
    latch := u.latch.map fun l => if mine l.vf l.ident && hits l.base then { l with valid := false } else l }

/-- What the writes of an instruction do to the arrays. Those of an access processor to registers of its group leave the tag as it is: its group has not
written them (DESIGN CHOICE, notes/assumptions/106.md). -/
def touchArrays (s : State) (writes : List Nat) : State :=
  if s.onAp then s else { s with arrays := s.arrays.map (touchLatch s.g writes) }

/-- What completing leaves, once the selector has acted. -/
def finished (s : State) (writes : List Nat) : State := touchArrays (issued s) writes

/-- The outcome of an effect on `s`: the selector acts, and the cause that R154 chooses is taken. -/
def conclude (s : State) (nas : Nas) (writes : List Nat) (r : Res) : State :=
  let m7 := selectorMask s
  match r with
  | .over s' => issued s'
  | .stop s' => s'
  | .wait w s' => setWait s' w
  | .trap r =>
    match applyNas m7 s nas with
    | .error (.cause c va) =>
      if causeRank c < causeRank r.cause then raiseNow s (preciseAt s c va) (active s) else raiseNow s r (active s)
    | _ => raiseNow s r (active s)
  | .ok s' =>
    match applyNas m7 s' nas with
    | .error (.cause c va) => raiseNow s (preciseAt s c va) (active s)
    | .error (.hold pte) => setWait (collapseAt s pte) .held
    | .ok s'' => finished s'' writes
  | .after s' r =>
    match applyNas m7 s' nas with
    | .error (.cause c va) => raiseNow s (preciseAt s c va) (active s)
    | .error (.hold pte) => setWait (collapseAt s pte) .held
    | .ok s'' => raiseAfter (finished s'' writes) r s.g.iss (active s)

/-- The open windows that must close before an instruction that writes these registers (R170). -/
def closing (s : State) (writes : List Nat) : List Window := (winsOf s).filter (mustClose writes)

/-- The state in which those windows are closed. -/
def closed (s : State) (writes : List Nat) : State := setWins s ((winsOf s).filter fun w => !mustClose writes w)

/-- The registers that source codes name: a port's code names none (R33). -/
def realReads (s : State) (reads : List Nat) : List Nat :=
  if portsOn s then reads.filter fun c => decide (c < 60) || decide (64 ≤ c) else reads

/-- A debug read inside a window: DBGCTL.LAH is set and the word reads a result of a window still open (R174). -/
def debugRead (s : State) (nas : Nas) (reads : List Nat) : Bool :=
  lahOn s && inWindow (winsOf s) (realReads s reads ++ nasReads nas)

/-- The window of who issues some of whose lanes among `m` complete with 0x30 takes their trap, before the instruction at hand
(R78, R151). -/
def goneStop (s : State) (m : Mask) : Option State :=
  ((winsOf s).find? fun w => (w.gone &&& m) != 0).map fun w => takeGone (setWins s ((winsOf s).filter (· != w))) w

/-- 0x04 of a debug read (R174) among what the effect comes to: causes that R154 puts first, an older access that takes its trap, and a
form that is not ready stand before it. -/
def withDebug (s : State) (r : Res) : Res :=
  match r with
  | .stop t => .stop t
  | .wait .held t => .wait .held t
  | .trap x => if causeRank x.cause < causeRank 0x04 then .trap x else .trap (precise s 0x04)
  | _ => .trap (precise s 0x04)

/-- An instruction whose word raises no cause issues: first windows that must close, where a lane that completes with 0x30 takes its
trap (R151); then the effect, with the debug reads inside windows (R170, R174). -/
def issueEffect (s : State) (nas : Nas) (io : Io) (body : State → Res) : State :=
  match (closing s io.writes).find? fun w => w.gone != 0 with
  | some w => takeGone (setWins s ((winsOf s).filter fun x => x != w)) w
  | none =>
    let t := closed s io.writes
    conclude t nas io.writes (if debugRead t nas io.reads then withDebug t (body t) else body t)

/-- Issues an instruction (R23, R154, R397): first the causes that need no port, then its effect. -/
def issue (s : State) (nas : Nas) (io : Io) (body : State → Res) : Host.Outcome State Fault Refusal :=
  if !s.g.live then .fault (.noGroup (firstCause io.bad))
  else
    match firstCause io.bad with
    | some c => .next (raiseNow s (precise s c) (active s))
    | none => .next (issueEffect s nas io body)

/-- What an instruction does when a port it reads is empty (R33, R35). Of a drained port, R154 chooses among 0x07 and the causes `cs`
that the instruction raises whatever its operands are. -/
def portStopWith (s : State) (cs : List Nat) (e : PortStop) : Res :=
  match e with
  | .notReady => .wait .held s
  | .drained => .trap (precise s ((firstCause (0x07 :: cs)).getD 0x07))
  | .fault c addr =>
    .trap ⟨c, .f, 1, active s, addr, 0⟩

/-- An empty port of an instruction that raises nothing else without its operands. -/
def portStop (s : State) (e : PortStop) : Res := portStopWith s [] e

/-- Opens the window of a variable-latency instruction (R170): `before` held the results' old values, `gone` are the
lanes that complete with 0x30 (R151), `srcs` what each lane of a load reads. A slice's load that completes with 0x30 stops the
slice at once instead (R35). -/
def openLoad (before after : State) (la : Nat) (regs keys : List Nat) (gone : Mask) (addr : DWord)
    (srcs : List (Nat × Nat × Nat)) :
    State :=
  if regs.isEmpty && gone = 0 then after
  else
    setWins after (winsOf after ++
      [⟨la + 1, curPc before, regs, keys.map fun k => (k, regAt before k), gone, addr, srcs, before.g.iss, active before, after.fresh⟩])

/-- Opens the window of a variable-latency instruction that is no load of global memory. -/
def openWindow (before after : State) (la : Nat) (regs keys : List Nat) (gone : Mask) (addr : DWord) : State :=
  openLoad before after la regs keys gone addr []

/-- A load in flight completes with 0x30 for the lanes of its window that `hit` names by lane and key (R151): those lanes
keep their destination, and the address is the lowest lane's. A load of the whole group does so as a whole (R290). -/
def cutWindow (hit : Nat → Nat → Bool) (w : Window) : Option (Window × Store Word) :=
  let whole := w.srcs.any (·.1 == 32)
  let met := w.srcs.filter fun x => (!whole || x.1 == 32) && hit x.1 x.2.1
  match met with
  | [] => none
  | x0 :: _ =>
    let first := met.foldl (fun y x => if x.1 < y.1 then x else y) x0
    let bad := met.map (·.1)
    let gone : Mask := if whole then w.flying else maskOf bad.contains
    some ({ w with
        gone := w.gone ||| gone
        goneAddr := if w.gone = 0 || first.1 < lowest w.gone then BitVec.ofNat 64 first.2.2 else w.goneAddr
        srcs := w.srcs.filter fun x => !whole && !bad.contains x.1 },
      w.old.filter fun e => whole || bad.contains (e.1 % 32))

/-- The registers with old values put back. -/
def withOld (c : Ctx) (old : Store Word) : Ctx := { c with regs := old.foldl (fun r e => storeSet 0 r e.1 e.2) c.regs }

/-- Loads of a group in flight complete with 0x30. -/
def cutGroup (hit : Nat → Nat → Bool) (c : Ctx) : Ctx :=
  (upto c.wins.length).foldl (fun c i =>
    match c.wins[i]? with
    | none => c
    | some w =>
      match cutWindow hit w with
      | none => c
      | some (w', old) => withOld { c with wins := setAt c.wins i w' } old) c

/-- The ports among register codes. -/
def portsIn (codes : List Nat) : List Nat := (codes.filter (60 ≤ ·)).map (· - 60)

/-- A slice's load in flight completes with 0x30: the slice stops at it, with the entries before it queued (R35). One behind which the slice
has gone on, or whose entry has been popped, returned before that (DESIGN CHOICE, notes/assumptions/97.md). -/
def cutSlice (hit : Nat → Nat → Bool) (c : Ctx) : Ctx :=
  match c.ap with
  | none => c
  | some a =>
    let last (w : Window) : Bool := a.run == .running && a.pc == w.pc + 4 && (cutWindow hit w).isSome &&
      (portsIn w.regs).all fun i => !(a.aq.getD i []).isEmpty
    match a.wins.find? last with
    | none => c
    | some w =>
      let aq := (portsIn w.regs).foldl (fun q i => setAt q i (q.getD i []).dropLast) a.aq
      let (w', old) := (cutWindow hit w).getD (w, [])
      withOld { c with ap := some { a with aq := aq, wins := a.wins.filter (· != w), pc := w.pc, run := .faulted 0x30 w'.goneAddr false } } old

/-! ## Other contexts -/

/-- A context is the one named. -/
def isCtx (vf ident : Nat) (c : Ctx) : Bool := c.live && c.who.vf == vf && c.who.ident == ident

/-- The live context of a VF and identifier. -/
def ctxOf (s : State) (vf ident : Nat) : Option Ctx :=
  if isCtx vf ident s.g then some s.g else s.others.find? (isCtx vf ident)

/-- Every live context. -/
def allCtx (s : State) : List Ctx := (if s.g.live then [s.g] else []) ++ s.others

/-- Updates the context named, if it is live. -/
def updCtx (s : State) (vf ident : Nat) (f : Ctx → Ctx) : State :=
  if isCtx vf ident s.g then { s with g := f s.g } else { s with others := mapWhere (isCtx vf ident) f s.others }

/-- Makes the context named the one that issues; the one that issued joins the others. -/
def bring (s : State) (vf ident : Nat) : Option State :=
  if isCtx vf ident s.g then some s
  else
    match s.others.find? (isCtx vf ident) with
    | none => none
    | some c =>
      let rest := s.others.filter fun x => !isCtx vf ident x
      some { s with g := c, others := if s.g.live then rest ++ [s.g] else rest }

/-- Acts on the context named and then gives the issue back to the one that had it. -/
def onCtx (s : State) (vf ident : Nat) (f : State → State) : Option State :=
  match bring s vf ident with
  | none => none
  | some t =>
    let u := f { t with onAp := false }
    let u := { u with onAp := s.onAp }
    some ((bring u s.g.who.vf s.g.who.ident).getD u)

/-- Goes on with the slot of a context that waits: what `pick` gives for what it waits for (its selector, the registers
it reads and writes, its effect) issues, unless it would wait still. -/
def resume (s : State) (vf ident : Nat) (other : Bool) (pick : State → Wait → Option (Nas × Io × (State → Res))) :
    Option State :=
  match bring s vf ident with
  | none => none
  | some t =>
    let t := { t with onAp := false, g := { t.g with iss := other } }
    if !(curSlot t.g).valid then none
    else
      match pick t (curSlot t.g).wait with
      | none => none
      | some (nas, io, body) =>
        match body (closed t io.writes) with
        | .wait _ _ => none
        | _ =>
          let u := { issueEffect t nas io body with onAp := s.onAp }
          some ((bring u s.g.who.vf s.g.who.ident).getD u)

/-- The outcome of a step of the device: asked for where its rule does not let it happen, it does nothing. -/
def dueOr (s : State) (t : Option State) : Host.Outcome State Fault Refusal := .next (t.getD s)

/-! ## Agents -/

/-- 0x05 on an access processor (R31). -/
def noAp (s : State) : List Nat := if s.onAp then [0x05] else []

/-- 0x05 on an access processor and on the scalar die (R2, R189). -/
def coreOnly (s : State) : List Nat := if s.onAp || s.g.who.loc.die = 2 then [0x05] else []

/-- 0x05 on the scalar die, for vault space (R190). -/
def noScalar (s : State) : List Nat := if s.g.who.loc.die = 2 then [0x05] else []

end Sys2Proof.Machine
end

