-- ==== Sys2Proof/Machine/Special.lean ====
section
/-! DEFINITION. The lane special functions of R203 and R218. Exact cases and special values are those of R203. Every
other result is a free value of Config, the same for the same operand, kept within the bound of R203: a value outside
the bound is replaced by the correctly rounded one (notes/assumptions/8.md). -/

namespace Sys2Proof.Machine

/-- A finite value as a signed integer multiple of 2^q. -/
def scaledAt (s : Bool) (m : Nat) (e q : Int) : Int :=
  let a : Int := if q ≤ e then ((m <<< (e - q).toNat : Nat) : Int) else ((m >>> (q - e).toNat : Nat) : Int)
  if s then -a else a

/-- An exact value that is no FP32 value: its sign, and two numbers between which its magnitude lies strictly, at the scale 2^t. The
second is at most the next power of two above the first. -/
structure Between where
  s : Bool
  lo : Nat
  hi : Nat
  t : Int
deriving DecidableEq, Repr

/-- Is the FP32 pattern `r` finite and, wherever the exact value lies, within n ulp of it, and within 2^absq where an absolute bound
applies too (R203)? An ulp is the gap around the exact value, which for one just below a power of two is the smaller one. -/
def withinBound (v : Between) (n : Nat) (absq : Option Int) (r : Nat) : Bool :=
  match fDecode f32 r with
  | .fin u m e =>
    let q : Int := max (v.t + (Nat.log2 v.lo : Int) - 23) (-149)
    let w := min v.t (-149)
    let off (b : Nat) : Nat := (scaledAt u m e w - scaledAt v.s b v.t w).natAbs
    let far := max (off v.lo) (off v.hi)
    decide (far ≤ n <<< (q - w).toNat) && (match absq with | none => true | some z => decide (far ≤ 1 <<< (z - w).toNat))
  | _ => false

/-- A result that is not one of the exact cases: `cand` where it meets the bound, else the correctly rounded value;
always NX, with OF and UF by R198. -/
def boundedResult (v : Between) (n : Nat) (absq : Option Int) (cand : Word) : Word × Word :=
  let c := fRound f32 .rne false v.s (2 * v.lo + 1) (v.t - 1)
  if c.2 &&& flOf ≠ 0 then (BitVec.ofNat 32 c.1, flOf ||| flNx)
  else
    let r := if withinBound v n absq cand.toNat then cand.toNat else c.1
    (BitVec.ofNat 32 r, flNx ||| (if bits r 30 23 = 0 then flUf else 0))

/-- An FP32 result with flags. -/
def res32 (p : Nat × Word) : Word × Word := (BitVec.ofNat 32 p.1, p.2)

/-- Is the number a power of two? -/
def isPow2 (m : Nat) : Bool := m ≠ 0 && m == 2 ^ Nat.log2 m

/-- vrcp: at most 1 ulp (R203). -/
def fRcp (x : Word) : Word × Word :=
  match fDecode f32 x.toNat with
  | .nan => res32 (fNan f32, 0)
  | .inf s => res32 (fmtSign f32 s, 0)
  | .fin s m e =>
    if m = 0 then res32 (fInf f32 s, flDz)
    else
      let exact := fRound f32 .rne false s 1 (-(e + (Nat.log2 m : Int)))
      if isPow2 m && exact.2 == 0 then res32 exact
      else boundedResult ⟨s, 2 ^ 100 / m, 2 ^ 100 / m + 1, -e - 100⟩ 1 none (Config.vrcpBits x)

/-- vrsq: at most 2 ulp (R203). -/
def fRsq (x : Word) : Word × Word :=
  match fDecode f32 x.toNat with
  | .nan => res32 (fNan f32, 0)
  | .inf s => if s then res32 (fNan f32, flInv) else res32 (0, 0)
  | .fin s m e =>
    if m = 0 then res32 (fInf f32 s, flDz)
    else if s then res32 (fNan f32, flInv)
    else
      let l : Int := e + (Nat.log2 m : Int)
      let exact := fRound f32 .rne false false 1 (-(l / 2))
      if isPow2 m && l % 2 == 0 && exact.2 == 0 then res32 exact
      else
        let odd := e % 2 = 1
        let m2 := if odd then 2 * m else m
        let e2 : Int := if odd then (e - 1) / 2 else e / 2
        let a := isqrt (2 ^ 240 / m2)
        boundedResult ⟨false, a, a + 1, -e2 - 120⟩ 2 none (Config.vrsqBits x)

/-- vsqrt: correctly rounded (R203). -/
def fSqrt32 (x : Word) : Word × Word := res32 (fSqrt f32 x.toNat)

/-- 2^(F / 2^n) at the scale 2^128, by the bits of F from the highest; `c` is the factor of the highest bit. What is cut off makes it
less than 2^11 too small. -/
def exp2Frac : Nat → Nat → Nat → Nat → Nat
  | 0, _, _, acc => acc
  | n + 1, c, fr, acc =>
    exp2Frac n (isqrt (c <<< 128)) fr (if bit fr n then (acc * c) >>> 128 else acc)

/-- vexp2: at most 2 ulp (R203). -/
def fExp2 (x : Word) : Word × Word :=
  match fDecode f32 x.toNat with
  | .nan => res32 (fNan f32, 0)
  | .inf s => if s then res32 (0, 0) else res32 (fInf f32 false, 0)
  | .fin s m e =>
    if m = 0 then res32 (fRound f32 .rne false false 1 0)
    else
      let top : Int := e + (Nat.log2 m : Int)
      if 8 ≤ top then
        (if s then boundedResult ⟨false, 0, 1, -256⟩ 2 none (Config.vexp2Bits x)
         else res32 (fInf f32 false, flOf ||| flNx))
      else
        let v0 : Int := scaledAt s m e (-128)
        let cutOff : Bool := e < -128 && m % 2 ^ (-128 - e).toNat != 0
        let v : Int := if s && cutOff then v0 - 1 else v0
        let isInt : Bool := decide (0 ≤ e) || m % 2 ^ (-e).toNat == 0
        let n : Int := v / (2 ^ 128 : Int)
        if isInt && decide (-149 ≤ n) then res32 (fRound f32 .rne false false 1 n)
        else
          let a := exp2Frac 128 (isqrt (2 ^ 257)) (v % (2 ^ 128 : Int)).toNat (2 ^ 128)
          boundedResult ⟨false, a, min (a + 2 ^ 12) (2 ^ 129), n - 128⟩ 2 none (Config.vexp2Bits x)

/-- The first `n` bits of the binary logarithm of y / 2^256, 1 ≤ y / 2^256 < 2. -/
def log2Frac : Nat → Nat → Nat → Nat
  | 0, _, acc => acc
  | n + 1, y, acc =>
    let z := (y * y) >>> 256
    if 2 ^ 257 ≤ z then log2Frac n (z >>> 1) (2 * acc + 1) else log2Frac n z (2 * acc)

/-- vlog2: at most 2 ulp, and for operands in 0.5 .. 2 an absolute error of at most 2^-22 (R203). -/
def fLog2 (x : Word) : Word × Word :=
  match fDecode f32 x.toNat with
  | .nan => res32 (fNan f32, 0)
  | .inf s => if s then res32 (fNan f32, flInv) else res32 (fInf f32 false, 0)
  | .fin s m e =>
    if m = 0 then res32 (fInf f32 true, flDz)
    else if s then res32 (fNan f32, flInv)
    else
      let l : Int := e + (Nat.log2 m : Int)
      if isPow2 m then res32 (fRound f32 .rne false (decide (l < 0)) l.natAbs 0)
      else
        let v : Int := l * (2 ^ 128 : Int) + (log2Frac 128 (m <<< (256 - Nat.log2 m)) 0 : Int)
        let near : Bool := l == 0 || l == -1
        let neg := decide (v < 0)
        boundedResult ⟨neg, if neg then v.natAbs - 2 else v.natAbs, if neg then v.natAbs else v.natAbs + 2, -128⟩ 2
          (if near then some (-22) else none) (Config.vlog2Bits x)

/-- π at the scale 2^192, cut off. -/
def piFixed : Nat := 0x3243F6A8885A308D313198A2E03707344A4093822299F31D0

/-- The sine series at the scale 2^192: adds the terms from number j on. -/
def sinSeries : Nat → Nat → Int → Int → Int → Int
  | 0, _, _, _, acc => acc
  | n + 1, j, sq, term, acc =>
    let t := -(term * sq) / (2 ^ 192 : Int) / ((2 * j * (2 * j + 1) : Nat) : Int)
    sinSeries n (j + 1) sq t (acc + t)

/-- sin(π z / 2^65) at the scale 2^192, for z / 2^65 in 0 .. 1/2, to within 2^8. -/
def sinPiFixed (z : Nat) : Nat :=
  let th : Int := ((piFixed * z) >>> 65 : Nat)
  (sinSeries 32 1 (th * th / (2 ^ 192 : Int)) th th).toNat

/-- sin(π r), r = z / 2^65 taken modulo 2, where it is neither 0 nor ±1. -/
def sinPiTurn (z : Nat) (flip : Bool) : Between :=
  let h := z % 2 ^ 65
  let a := sinPiFixed (if 2 ^ 64 < h then 2 ^ 65 - h else h)
  ⟨flip != decide (2 ^ 65 ≤ z % 2 ^ 66), a - 2 ^ 8, min (a + 2 ^ 8) (2 ^ 192), -192⟩

/-- vtrig.sinpi: at most 2 ulp, absolute error at most 2^-23 (R203). -/
def fSinPi (x : Word) : Word × Word :=
  match fDecode f32 x.toNat with
  | .nan => res32 (fNan f32, 0)
  | .inf _ => res32 (fNan f32, flInv)
  | .fin s m e =>
    if m = 0 || decide (0 ≤ e) || m % 2 ^ (-e).toNat == 0 then res32 (fmtSign f32 s, 0)
    else if (-e) ≤ 65 then
      let z := m <<< (65 + e).toNat
      if z % 2 ^ 65 = 2 ^ 64 then res32 (fRound f32 .rne false (s != decide (2 ^ 65 ≤ z % 2 ^ 66)) 1 0)
      else boundedResult (sinPiTurn z s) 2 (some (-23)) (Config.vsinpiBits x)
    else
      boundedResult ⟨s, piFixed * m - (piFixed * m) >>> 80, (piFixed + 1) * m, e - 192⟩ 2 (some (-23)) (Config.vsinpiBits x)

/-- vtrig.cospi: at most 2 ulp, absolute error at most 2^-23 (R203). -/
def fCosPi (x : Word) : Word × Word :=
  match fDecode f32 x.toNat with
  | .nan => res32 (fNan f32, 0)
  | .inf _ => res32 (fNan f32, flInv)
  | .fin _ m e =>
    let z := m <<< (65 + e).toNat
    if m = 0 then res32 (fRound f32 .rne false false 1 0)
    else if (-e) ≤ 65 then
      if z % 2 ^ 65 = 0 then res32 (fRound f32 .rne false (decide (2 ^ 65 ≤ z % 2 ^ 66)) 1 0)
      else if z % 2 ^ 65 = 2 ^ 64 then res32 (0, 0)
      else boundedResult (sinPiTurn (z + 2 ^ 64) false) 2 (some (-23)) (Config.vcospiBits x)
    else boundedResult ⟨false, 2 ^ 80 - 1, 2 ^ 80, -80⟩ 2 (some (-23)) (Config.vcospiBits x)

end Sys2Proof.Machine
end

