-- ==== Sys2Proof/Machine/Flags.lean ====
section
/-! DEFINITION. The flag and value computations that the lane and the group forms share: FLAGS gathered over lanes
(R173, R198), shifts and fields (R208, R210), comparisons (R212, R215), conversions (R199), and the writing of lane
results (R10). -/

namespace Sys2Proof.Machine

/-! ## Sticky flags -/

/-- FLAGS.BBOV (R85). -/
def bbov : Word := 32

/-- The OR of a flag word over lanes. -/
def orLanes (act : Mask) (f : Nat → Word) : Word := (lanesOf act).foldl (fun a l => a ||| f l) 0

/-! ## Integers -/

/-- The count of leading zero bits (R210). -/
def clz (x : Word) : Word := if x = 0 then 32 else BitVec.ofNat 32 (31 - Nat.log2 x.toNat)

/-- The count of one bits (R210). -/
def popc (x : Word) : Word := BitVec.ofNat 32 (ones x.toNat 32)

/-- A shift count of bits [7:0] (R208). -/
def shiftCount (b : Word) : Nat := b.toNat % 256

/-- A << c, 0 from 32 on (R208). -/
def shl32 (a : Word) (c : Nat) : Word := if c < 32 then a <<< c else 0
/-- A >> c logically, 0 from 32 on (R208). -/
def shr32 (a : Word) (c : Nat) : Word := if c < 32 then a >>> c else 0
/-- A >> c with sign fill, copies of the sign from 32 on (R208). -/
def sar32 (a : Word) (c : Nat) : Word := a.sshiftRight (if c < 32 then c else 31)

/-- The lesser as signed. -/
def minS (a b : Word) : Word := if a.slt b then a else b
/-- The lesser as natural. -/
def minN (a b : Word) : Word := if a.ult b then a else b
/-- The greater as signed. -/
def maxS (a b : Word) : Word := if b.slt a then a else b
/-- The greater as natural. -/
def maxN (a b : Word) : Word := if b.ult a then a else b

/-- Bits [63:32] of the signed product (R208). -/
def mulHiS (a b : Word) : Word := hiWord (a.signExtend 64 * b.signExtend 64)
/-- Bits [63:32] of the natural product (R208). -/
def mulHiN (a b : Word) : Word := hiWord (a.setWidth 64 * b.setWidth 64)

/-- The width of the field that B names (R210). -/
def fieldWidth (b : Word) : Nat := min (b.toNat / 256 % 32 + 1) (32 - b.toNat % 32)

/-- A low mask of n ones. -/
def lowOnes (n : Nat) : Word := BitVec.ofNat 32 (2 ^ n - 1)

/-- The field that B names, extended as B[16] says (R210). -/
def bitField (a b : Word) : Word :=
  let p := b.toNat % 32
  let w := fieldWidth b
  let f := (a >>> p) &&& lowOnes w
  if b.getLsbD 16 && f.getLsbD (w - 1) then f ||| ~~~(lowOnes w) else f

/-- D with the field that B names replaced by the low bits of A (R210). -/
def insertField (d a b : Word) : Word :=
  let p := b.toNat % 32
  let m := lowOnes (fieldWidth b) <<< p
  (d &&& ~~~m) ||| ((a <<< p) &&& m)

/-! ## Comparisons -/

/-- The comparison codes of R184: eq, ne, lt, le, gt, ge, from less-than and equality. -/
def cmpCode (x : Nat) (lt eq : Bool) : Bool :=
  match x with
  | 0 => eq
  | 1 => !eq
  | 2 => lt
  | 3 => lt || eq
  | 4 => !(lt || eq)
  | _ => !lt

/-- A floating-point comparison by the codes of R184 (R215), and its INV. -/
def fcmpCode (f : Fmt) (x a b : Nat) : Bool × Word :=
  let nan := fIsNan f a || fIsNan f b
  match x with
  | 6 => (nan, 0)
  | 7 => (!nan, 0)
  | 0 => (!nan && fEq f a b, 0)
  | 1 => (nan || !fEq f a b, 0)
  | _ => if nan then (false, flInv) else (cmpCode x (fLt f a b) (fEq f a b), 0)

/-! ## Conversions -/

/-- The rounding code of R184: mode and SAT. -/
def rndCode (x : Nat) : Rnd × Bool :=
  match x with
  | 0 => (.rne, false)
  | 1 => (.rtz, false)
  | 2 => (.rup, false)
  | 3 => (.rdn, false)
  | 4 => (.rne, true)
  | _ => (.rtz, true)

/-- A number format of a conversion: floating-point, or integer by width and sign. -/
inductive Num
  | fl (f : Fmt)
  | int (w : Nat) (signed : Bool)
deriving DecidableEq, Repr

/-- The width of a format in bits. -/
def Num.width : Num → Nat
  | .fl f => fmtWidth f
  | .int w _ => w

/-- A pair of formats whose conversion is exact and ignores the rounding code (R199). -/
def widens (a b : Fmt) : Bool := decide (a.ebits ≤ b.ebits) && decide (a.fbits < b.fbits)

/-- A conversion by the rule of R199 for its pair: the bits, sign- or zero-extended by the caller, and FLAGS. -/
def convert (a b : Num) (x : Nat) (v : Nat) : Nat × Word :=
  let (m, sat) := rndCode x
  match a, b with
  | .fl f, .fl g => if widens f g then fWiden f g v else fToF f g m sat v
  | .fl f, .int w sg => fToI f w sg m sat v
  | .int w sg, .fl g => iToF w sg g m sat v
  | .int w sg, .int w2 sg2 => iToI w sg w2 sg2 sat v

/-- A result narrower than a register, extended into it (R219): zeros above floats and naturals, the sign above signed
integers. -/
def extendNum (b : Num) (v : Nat) : Nat :=
  match b with
  | .int w true => if w < 32 && bit v (w - 1) then v + (2 ^ 32 - 2 ^ w) else v
  | _ => v

/-! ## Lane results -/

/-- The lanes on which a predicate lets an instruction act (R10). -/
def acting (s : State) (x : BitVec 3) : Mask := active s &&& readMask s 3 x.toNat

/-- Writes a lane result of some words and ORs its flags (R10, R198). -/
def putLaneResult (s : State) (act : Mask) (d w : Nat) (f : Nat → List Word × Word) : State :=
  orFlags ((upto w).foldl (fun s i => putLanes s (d + i) act fun l => (f l).1.getD i 0) s)
    (orLanes act fun l => (f l).2)

/-- Writes the bits of the acting lanes of a mask; in a scalar context the other bits become 0 (R27). -/
def putMaskLanes (s : State) (i : Nat) (act : Mask) (p : Nat → Bool) : State :=
  let new : Mask := (mAt s.g i &&& ~~~act) ||| (maskOf p &&& act)
  putMask s i (if s.g.who.loc.die = 2 then new &&& 1 else new)

/-- The lane-to-uniform results of R223 and R225: a k register once per issue, or every acting lane. -/
def putReduced (s : State) (d : RegCode) (act : Mask) (x : Word) : State :=
  if isK d then putK s (d.toNat - 48) x else putLanes s d.toNat act fun _ => x

end Sys2Proof.Machine
end

