-- ==== Sys2Proof/Machine/LaneAlu.lean ====
section
/-! DEFINITION. Lane arithmetic (11; R204 to R218): integer, immediate, compare, FP32, mask, packed 16-bit and special
function forms. -/

namespace Sys2Proof.Machine

/-! ## Shared forms -/

/-- A lane form with sources and one v destination of `w` registers (R205). `bad` are the causes that its operand
kinds raise, `masks` the masks it reads beside the predicate, `pred` whether x is its predicate. -/
def laneForm (f : FmtR) (pred : Bool) (srcs : List (Nat × RegCode × Nat)) (w : Nat) (bad : List Nat)
    (masks : List Nat) (fn : State → List Opnd → Nat → List Word × Word) (s : State) :
    Host.Outcome State Fault Refusal :=
  let x : BitVec 3 := if pred then f.x else 0
  issue s f.nas
    ⟨noAp s ++ vBad f.d w ++ bad, srcs.flatMap (fun o => codes o.2.1 o.2.2) ++ (64 + x.toNat) :: masks, codes f.d w⟩
    fun s =>
      match takeAll srcs s with
      | .error e => portStop s e
      | .ok (os, s') => .ok (putLaneResult s' (acting s x) f.d.toNat w (fn s os))

/-- Word i of the n-th source in a lane. -/
def src (s : State) (os : List Opnd) (n i l : Nat) : Word := (os.getD n (.k [])).word s i l

/-- The pair i, i + 1 of the n-th source in a lane. -/
def srcPair (s : State) (os : List Opnd) (n l : Nat) : DWord := (os.getD n (.k [])).pair s 0 l

/-- Two 32-bit sources, one 32-bit result, no flag (R208). -/
def lane2 (f : FmtR) (op : Word → Word → Word) (s : State) : Host.Outcome State Fault Refusal :=
  laneForm f true [(1, f.a, 1), (2, f.b, 1)] 1 [] []
    (fun s os l => ([op (src s os 0 0 l) (src s os 1 0 l)], 0)) s

/-- One 32-bit source, one 32-bit result, with flags. -/
def lane1f (f : FmtR) (op : Word → Word × Word) (s : State) : Host.Outcome State Fault Refusal :=
  laneForm f true [(1, f.a, 1)] 1 [] []
    (fun s os l => let r := op (src s os 0 0 l); ([r.1], r.2)) s

/-- Two 32-bit sources, one 32-bit result, with flags. -/
def lane2f (f : FmtR) (op : Word → Word → Word × Word) (s : State) : Host.Outcome State Fault Refusal :=
  laneForm f true [(1, f.a, 1), (2, f.b, 1)] 1 [] []
    (fun s os l => let r := op (src s os 0 0 l) (src s os 1 0 l); ([r.1], r.2)) s

/-- Three 32-bit sources, d first, one 32-bit result, with flags. -/
def lane3f (f : FmtR) (op : Word → Word → Word → Word × Word) (s : State) : Host.Outcome State Fault Refusal :=
  laneForm f true [(0, f.d, 1), (1, f.a, 1), (2, f.b, 1)] 1 [] []
    (fun s os l => let r := op (src s os 0 0 l) (src s os 1 0 l) (src s os 2 0 l); ([r.1], r.2)) s

/-- Two pairs, one pair (R209). -/
def lanePair (f : FmtR) (op : DWord → DWord → DWord) (s : State) : Host.Outcome State Fault Refusal :=
  laneForm f true [(1, f.a, 2), (2, f.b, 2)] 2 (alignBad f.a 2 ++ alignBad f.b 2) []
    (fun s os l => let r := op (srcPair s os 0 l) (srcPair s os 1 l); ([loWord r, hiWord r], 0)) s

/-- One source and an immediate, on the active lanes (R211). -/
def laneImm (f : FmtI) (op : Word → Word) (s : State) : Host.Outcome State Fault Refusal :=
  laneForm ⟨f.nas, f.d, f.a, 0, 0⟩ false [(1, f.a, 1)] 1 [] []
    (fun s os l => ([op (src s os 0 0 l)], 0)) s

/-- A comparison that writes a mask on the active lanes (R212, R215). -/
def laneCompare (f : FmtR) (op : Word → Word → Bool × Word) (s : State) : Host.Outcome State Fault Refusal :=
  let srcs := [(1, f.a, 1), (2, f.b, 1)]
  issue s f.nas
    ⟨noAp s ++ maskBad f.d, srcs.flatMap (fun o => codes o.2.1 o.2.2), [64 + f.d.toNat]⟩
    fun s =>
      match takeAll srcs s with
      | .error e => portStop s e
      | .ok (os, s') =>
        let r := fun l => op (src s os 0 0 l) (src s os 1 0 l)
        .ok (orFlags (putMaskLanes s' f.d.toNat (active s) fun l => (r l).1) (orLanes (active s) fun l => (r l).2))

/-! ## Integer forms (R208 to R210) -/

/-- VADD (R208). -/
def execVadd (f : FmtR) (s : State) : Host.Outcome State Fault Refusal := lane2 f (fun a b => a + b) s
/-- VSUB (R208). -/
def execVsub (f : FmtR) (s : State) : Host.Outcome State Fault Refusal := lane2 f (fun a b => a - b) s
/-- VMUL (R208). -/
def execVmul (f : FmtR) (s : State) : Host.Outcome State Fault Refusal := lane2 f (fun a b => a * b) s
/-- VMULHS (R208). -/
def execVmulhs (f : FmtR) (s : State) : Host.Outcome State Fault Refusal := lane2 f mulHiS s
/-- VMULHN (R208). -/
def execVmulhn (f : FmtR) (s : State) : Host.Outcome State Fault Refusal := lane2 f mulHiN s
/-- VMINS (R208). -/
def execVmins (f : FmtR) (s : State) : Host.Outcome State Fault Refusal := lane2 f minS s
/-- VMINN (R208). -/
def execVminn (f : FmtR) (s : State) : Host.Outcome State Fault Refusal := lane2 f minN s
/-- VMAXS (R208). -/
def execVmaxs (f : FmtR) (s : State) : Host.Outcome State Fault Refusal := lane2 f maxS s
/-- VMAXN (R208). -/
def execVmaxn (f : FmtR) (s : State) : Host.Outcome State Fault Refusal := lane2 f maxN s
/-- VAND (R208). -/
def execVand (f : FmtR) (s : State) : Host.Outcome State Fault Refusal := lane2 f (fun a b => a &&& b) s
/-- VOR (R208). -/
def execVor (f : FmtR) (s : State) : Host.Outcome State Fault Refusal := lane2 f (fun a b => a ||| b) s
/-- VXOR (R208). -/
def execVxor (f : FmtR) (s : State) : Host.Outcome State Fault Refusal := lane2 f (fun a b => a ^^^ b) s
/-- VSHL (R208). -/
def execVshl (f : FmtR) (s : State) : Host.Outcome State Fault Refusal :=
  lane2 f (fun a b => shl32 a (shiftCount b)) s
/-- VSHR (R208). -/
def execVshr (f : FmtR) (s : State) : Host.Outcome State Fault Refusal :=
  lane2 f (fun a b => shr32 a (shiftCount b)) s
/-- VSAR (R208). -/
def execVsar (f : FmtR) (s : State) : Host.Outcome State Fault Refusal :=
  lane2 f (fun a b => sar32 a (shiftCount b)) s
/-- VSEL (R208): x names the selecting mask; the form acts on the active lanes (R184). -/
def execVsel (f : FmtR) (s : State) : Host.Outcome State Fault Refusal :=
  laneForm f false [(1, f.a, 1), (2, f.b, 1)] 1 [] [64 + f.x.toNat]
    (fun s os l => ([if lane (readMask s 3 f.x.toNat) l then src s os 0 0 l else src s os 1 0 l], 0)) s
/-- VADD64 (R209). -/
def execVadd64 (f : FmtR) (s : State) : Host.Outcome State Fault Refusal := lanePair f (fun a b => a + b) s
/-- VSUB64 (R209). -/
def execVsub64 (f : FmtR) (s : State) : Host.Outcome State Fault Refusal := lanePair f (fun a b => a - b) s
/-- VCLZ (R210). -/
def execVclz (f : FmtR) (s : State) : Host.Outcome State Fault Refusal := lane1f f (fun a => (clz a, 0)) s
/-- VPOPC (R210). -/
def execVpopc (f : FmtR) (s : State) : Host.Outcome State Fault Refusal := lane1f f (fun a => (popc a, 0)) s
/-- VBFX (R210). -/
def execVbfx (f : FmtR) (s : State) : Host.Outcome State Fault Refusal := lane2 f bitField s
/-- VBFI (R210). -/
def execVbfi (f : FmtR) (s : State) : Host.Outcome State Fault Refusal :=
  lane3f f (fun d a b => (insertField d a b, 0)) s

/-! ## Immediate forms (R211) -/

/-- VADDI (R211). -/
def execVaddi (f : FmtI) (s : State) : Host.Outcome State Fault Refusal := laneImm f (· + simm9 f.imm) s
/-- VANDI (R211). -/
def execVandi (f : FmtI) (s : State) : Host.Outcome State Fault Refusal := laneImm f (· &&& simm9 f.imm) s
/-- VORI (R211). -/
def execVori (f : FmtI) (s : State) : Host.Outcome State Fault Refusal := laneImm f (· ||| zimm9 f.imm) s
/-- VXORI (R211). -/
def execVxori (f : FmtI) (s : State) : Host.Outcome State Fault Refusal := laneImm f (· ^^^ simm9 f.imm) s
/-- VSHLI (R211). -/
def execVshli (f : FmtI) (s : State) : Host.Outcome State Fault Refusal :=
  laneImm f (shl32 · (f.imm.toNat % 32)) s
/-- VSHRI (R211). -/
def execVshri (f : FmtI) (s : State) : Host.Outcome State Fault Refusal :=
  laneImm f (shr32 · (f.imm.toNat % 32)) s
/-- VSARI (R211). -/
def execVsari (f : FmtI) (s : State) : Host.Outcome State Fault Refusal :=
  laneImm f (sar32 · (f.imm.toNat % 32)) s
/-- VMOVI (R211): a is unused. -/
def execVmovi (f : FmtI) (s : State) : Host.Outcome State Fault Refusal :=
  laneForm ⟨f.nas, f.d, f.a, 0, 0⟩ false [] 1 [] [] (fun _ _ _ => ([simm9 f.imm], 0)) s

/-! ## Comparisons (R212, R215) -/

/-- VCMPS (R212). -/
def execVcmps (f : FmtR) (s : State) : Host.Outcome State Fault Refusal :=
  laneCompare f (fun a b => (cmpCode f.x.toNat (a.slt b) (a == b), 0)) s
/-- VCMPN (R212). -/
def execVcmpn (f : FmtR) (s : State) : Host.Outcome State Fault Refusal :=
  laneCompare f (fun a b => (cmpCode f.x.toNat (a.ult b) (a == b), 0)) s
/-- VFCMP (R215). -/
def execVfcmp (f : FmtR) (s : State) : Host.Outcome State Fault Refusal :=
  laneCompare f (fun a b => fcmpCode f32 f.x.toNat a.toNat b.toNat) s

/-! ## FP32 forms (R213, R214) -/

/-- VFADD (R213). -/
def execVfadd (f : FmtR) (s : State) : Host.Outcome State Fault Refusal :=
  lane2f f (fun a b => res32 (fAdd f32 a.toNat b.toNat)) s
/-- VFSUB (R213). -/
def execVfsub (f : FmtR) (s : State) : Host.Outcome State Fault Refusal :=
  lane2f f (fun a b => res32 (fSub f32 a.toNat b.toNat)) s
/-- VFMUL (R213). -/
def execVfmul (f : FmtR) (s : State) : Host.Outcome State Fault Refusal :=
  lane2f f (fun a b => res32 (fMul f32 a.toNat b.toNat)) s
/-- VFMA (R213): one rounding; d is read as the addend. -/
def execVfma (f : FmtR) (s : State) : Host.Outcome State Fault Refusal :=
  lane3f f (fun d a b => res32 (fFma f32 a.toNat b.toNat d.toNat)) s
/-- VFMIN (R214). -/
def execVfmin (f : FmtR) (s : State) : Host.Outcome State Fault Refusal :=
  lane2 f (fun a b => BitVec.ofNat 32 (fMin f32 a.toNat b.toNat)) s
/-- VFMAX (R214). -/
def execVfmax (f : FmtR) (s : State) : Host.Outcome State Fault Refusal :=
  lane2 f (fun a b => BitVec.ofNat 32 (fMax f32 a.toNat b.toNat)) s

/-! ## Mask logic (R216) -/

/-- The bit of lane l that VMOP writes (R216); `act` are the active lanes. -/
def maskLogic (x : Nat) (act a b : Mask) (l : Nat) : Bool :=
  match x with
  | 0 => lane a l && lane b l
  | 1 => lane a l || lane b l
  | 2 => lane a l != lane b l
  | 3 => lane a l && !lane b l
  | 4 => lane a l || !lane b l
  | 5 => !lane a l
  | _ => lane (act &&& a) l && lowest (act &&& a) == l

/-- VMOP (R216): d, a and b name masks; b is not used by not and lowest. -/
def execVmop (f : FmtR) (s : State) : Host.Outcome State Fault Refusal :=
  issue s f.nas
    ⟨noAp s ++ maskBad f.d ++ maskBad f.a ++ maskBad f.b, [64 + f.a.toNat, 64 + f.b.toNat], [64 + f.d.toNat]⟩
    fun s => .ok (putMaskLanes s f.d.toNat (active s)
      (maskLogic f.x.toNat (active s) (readMask s 1 f.a.toNat) (readMask s 2 f.b.toNat)))

/-! ## Packed 16-bit forms (R217) -/

/-- Elements 0 and 1 of a register. -/
def half0 (a : Word) : Nat := a.toNat % 2 ^ 16
/-- Element 1 of a register. -/
def half1 (a : Word) : Nat := a.toNat / 2 ^ 16

/-- Packs two element results and ORs their flags (R196). -/
def packHalves (lo hi : Nat × Word) : Word × Word :=
  (BitVec.ofNat 32 (lo.1 % 2 ^ 16 + 2 ^ 16 * (hi.1 % 2 ^ 16)), lo.2 ||| hi.2)

/-- Both elements of two sources. -/
def packed2 (op : Nat → Nat → Nat × Word) (a b : Word) : Word × Word :=
  packHalves (op (half0 a) (half0 b)) (op (half1 a) (half1 b))

/-- Both elements of three sources. -/
def packed3 (op : Nat → Nat → Nat → Nat × Word) (a b d : Word) : Word × Word :=
  packHalves (op (half0 a) (half0 b) (half0 d)) (op (half1 a) (half1 b) (half1 d))

/-- The sign exchange of R217 on both elements. -/
def signXor (a b : Word) : Word := a ^^^ (b &&& 0x80008000)

/-- VHADD.BF16X2 (R217). -/
def execVhaddBf16x2 (f : FmtR) (s : State) : Host.Outcome State Fault Refusal := lane2f f (packed2 (fAdd bf16)) s
/-- VHADD.F16X2 (R217). -/
def execVhaddF16x2 (f : FmtR) (s : State) : Host.Outcome State Fault Refusal := lane2f f (packed2 (fAdd f16)) s
/-- VHMUL.BF16X2 (R217). -/
def execVhmulBf16x2 (f : FmtR) (s : State) : Host.Outcome State Fault Refusal := lane2f f (packed2 (fMul bf16)) s
/-- VHMUL.F16X2 (R217). -/
def execVhmulF16x2 (f : FmtR) (s : State) : Host.Outcome State Fault Refusal := lane2f f (packed2 (fMul f16)) s
/-- VHFMA.BF16X2 (R217). -/
def execVhfmaBf16x2 (f : FmtR) (s : State) : Host.Outcome State Fault Refusal :=
  lane3f f (fun d a b => packed3 (fFma bf16) a b d) s
/-- VHFMA.F16X2 (R217). -/
def execVhfmaF16x2 (f : FmtR) (s : State) : Host.Outcome State Fault Refusal :=
  lane3f f (fun d a b => packed3 (fFma f16) a b d) s
/-- VFSGN.BF16X2 (R217). -/
def execVfsgnBf16x2 (f : FmtR) (s : State) : Host.Outcome State Fault Refusal := lane2 f signXor s
/-- VFSGN.F16X2 (R217): the same bits. -/
def execVfsgnF16x2 (f : FmtR) (s : State) : Host.Outcome State Fault Refusal := lane2f f (fun a b => (signXor a b, 0)) s

/-! ## Special functions (R218, R203) -/

/-- VRCP (R218). -/
def execVrcp (f : FmtR) (s : State) : Host.Outcome State Fault Refusal := lane1f f fRcp s
/-- VRSQ (R218). -/
def execVrsq (f : FmtR) (s : State) : Host.Outcome State Fault Refusal := lane1f f fRsq s
/-- VSQRT (R218). -/
def execVsqrt (f : FmtR) (s : State) : Host.Outcome State Fault Refusal := lane1f f fSqrt32 s
/-- VEXP2 (R218). -/
def execVexp2 (f : FmtR) (s : State) : Host.Outcome State Fault Refusal := lane1f f fExp2 s
/-- VLOG2 (R218). -/
def execVlog2 (f : FmtR) (s : State) : Host.Outcome State Fault Refusal := lane1f f fLog2 s
/-- VTRIG.SINPI (R218). -/
def execVtrigSinpi (f : FmtR) (s : State) : Host.Outcome State Fault Refusal := lane1f f fSinPi s
/-- VTRIG.COSPI (R218). -/
def execVtrigCospi (f : FmtR) (s : State) : Host.Outcome State Fault Refusal := lane1f f fCosPi s

end Sys2Proof.Machine
end

