-- ==== Sys2Proof/Machine/Matrix.lean ====
section
/-! DEFINITION. The systolic arrays and accumulator tiles (05, 13; R111 to R122, R248 to R256): the lane forms, and the
steps in which an array takes an entry and writes a row and the store applies a tile write. -/

namespace Sys2Proof.Machine

/-! ## Formats and depth (R112, R113) -/

/-- A weight format code is assigned. -/
def weightCode (f : Nat) : Bool := decide (f ≤ 5) || f == 8

/-- An activation format code is assigned. -/
def actCode (f : Nat) : Bool := decide (f ≤ 5)

/-- The pass depth K of a weight format. -/
def passDepth (f : Nat) : Nat := if f ≤ 1 then 32 else if f ≤ 5 then 64 else 128

/-- The B registers of a weight format. -/
def bRegs (f : Nat) : Nat := if f = 8 then 18 else 16

/-- The A registers of a combination; none for Q4N weights with 16-bit activations. -/
def aRegs (wf af : Nat) : Option Nat :=
  if wf = 8 && decide (af ≤ 1) then none else some (passDepth wf / (if af ≤ 1 then 2 else 4))

/-- The number format of a code of R112 but Q4N. -/
def codeNum (f : Nat) : Num :=
  match f with
  | 0 => .fl bf16 | 1 => .fl f16 | 2 => .fl e4m3 | 3 => .fl e5m2 | 4 => .int 8 true | _ => .int 8 false

/-- The exponent of which every finite value of a format is a multiple. -/
def numExp (n : Num) : Int :=
  match n with
  | .fl t => fmtQmin t
  | .int _ _ => 0

/-- The value of a bit pattern as a multiple of 2 ^ `numExp`; none for NaN and infinity. -/
def numUnits (n : Num) (x : Nat) : Option Int :=
  match n with
  | .int w sg => some (intVal w sg x)
  | .fl t =>
    match fDecode t x with
    | .fin sg m e => let v : Int := ((m <<< (e - fmtQmin t).toNat : Nat) : Int); some (if sg then -v else v)
    | _ => none

/-! ## Fragments (R249) -/

/-- Element k of an operand of 16- or 8-bit elements in consecutive registers. -/
def fragElem (wide : Bool) (regs : List Word) (k : Nat) : Nat :=
  if wide then (regs.getD (k / 2) 0).toNat / 2 ^ (16 * (k % 2)) % 2 ^ 16
  else (regs.getD (k / 4) 0).toNat / 2 ^ (8 * (k % 4)) % 2 ^ 8

/-- The Q4N code of element (k, n). -/
def fragCode (codes : List (List Word)) (k n : Nat) : Nat :=
  ((codes.getD (k / 8) []).getD n 0).toNat / 2 ^ (4 * (k % 8)) % 16

/-- Column n of the B registers. -/
def column (codes : List (List Word)) (n : Nat) : List Word := codes.map fun r => r.getD n 0

/-- The latched weights hold a NaN or an infinity (R118). -/
def weightsFlagged (codes : List (List Word)) (w : Weights) : Bool :=
  if w.fmt = 8 then w.s.any fun x => fSpecial f32 x.toNat
  else
    (upto 32).any fun n => (upto (passDepth w.fmt)).any fun k =>
      (numUnits (codeNum w.fmt) (fragElem (w.fmt ≤ 1) (column codes n) k)).isNone

/-- An A row holds a NaN or an infinity (R118). -/
def rowFlagged (af depth : Nat) (regs : List Word) : Bool :=
  (upto depth).any fun k => (numUnits (codeNum af) (fragElem (af ≤ 1) regs k)).isNone

/-- The exact sum of one column of a row, as a multiple of a power of two (R117). -/
def columnSum (af : Nat) (regs : List Word) (codes : List (List Word)) (w : Weights) (n : Nat) : Int × Int :=
  let a (k : Nat) : Int := (numUnits (codeNum af) (fragElem (af ≤ 1) regs k)).getD 0
  if w.fmt = 8 then
    let part (blk : Nat) : Int :=
      foldFrom (fun t k => t + a k * q4Level (fragCode codes k n)) 64 (64 * blk) 0
    let scale := (numUnits (.fl f32) (w.s.getD n 0).toNat).getD 0
    let m (blk : Nat) : Int := (((w.m.getD n 0).toNat / 2 ^ (8 * blk) % 256 + 1 : Nat) : Int)
    ((part 0 * m 0 + part 1 * m 1) * scale, numExp (codeNum af) - 7 + fmtQmin f32 - 8)
  else
    let b := column codes n
    (foldFrom (fun t k => t + a k * (numUnits (codeNum w.fmt) (fragElem (w.fmt ≤ 1) b k)).getD 0)
      (passDepth w.fmt) 0 0, numExp (codeNum af) + numExp (codeNum w.fmt))

/-! ## Tiles -/

/-- The key of an element of a held tile. -/
def tileKey (t r c : Nat) : Nat := 1024 * t + 32 * r + c

/-- The array of a partition. -/
def arrayOf (s : State) (part : Nat) : ArrayUnit :=
  match s.arrays.find? fun u => u.part == part with
  | some u => u
  | none => ⟨part, [], [], none⟩

/-- Replaces the array of a partition; an idle one is not listed. -/
def setArray (s : State) (u : ArrayUnit) : State :=
  let rest := s.arrays.filter fun x => x.part != u.part
  { s with arrays := if u.queue.isEmpty && u.rows.isEmpty && u.latch.isNone then rest else rest ++ [u] }

/-- Rows that a tile write writes. -/
def TileWrite.rows (w : TileWrite) : List Nat := if w.zero then upto 32 else w.elems.map (·.1)

/-- An array entry or row placed before `seq` (if given) writes the row of the tile of a context. -/
def arrayWrites (s : State) (c : Ctx) (before : Option Nat) (t r : Nat) : Bool :=
  let u := arrayOf s (partOf c.who.loc)
  let early (n : Nat) : Bool := match before with | some m => decide (n < m) | none => true
  (u.queue.any fun e => e.vf == c.who.vf && e.ident == c.who.ident && !e.reload && e.tile == t && early e.seq &&
      e.acts.any fun a => a.1 == r) ||
    u.rows.any fun x => x.vf == c.who.vf && x.ident == c.who.ident && x.tile == t && x.row == r && early x.seq

/-- A row of a held tile is final (R120). -/
def rowFinal (s : State) (c : Ctx) (t r : Nat) : Bool :=
  !arrayWrites s c none t r && !c.mx.writes.any fun w => w.tile == t && w.rows.contains r

/-- The watermark of a tile (R120). -/
def watermark (s : State) (c : Ctx) (t : Nat) : Nat := ((upto 32).takeWhile (rowFinal s c t)).length

/-- Queue entries and tile writes of the group that write a tile (R120, R255). -/
def pendingOf (s : State) (c : Ctx) (t : Nat) : Nat :=
  ((arrayOf s (partOf c.who.loc)).queue.filter fun e =>
    e.vf == c.who.vf && e.ident == c.who.ident && !e.reload && e.tile == t).length +
  (c.mx.writes.filter fun w => w.tile == t).length

/-- The tile status word (R120). -/
def tileStatus (s : State) (c : Ctx) (t : Nat) : Word := BitVec.ofNat 32 (watermark s c t + 256 * pendingOf s c t)

/-- The group has matrix work in a batch up to n, or any if none is given (R87, R121). -/
def matrixBusy (s : State) (c : Ctx) (upTo : Option Nat) : Bool :=
  let u := arrayOf s (partOf c.who.loc)
  let old (n : Nat) : Bool := match upTo with | some m => decide (n ≤ m) | none => true
  let mine (vf ident : Nat) : Bool := vf == c.who.vf && ident == c.who.ident
  (u.queue.any fun e => mine e.vf e.ident && old e.batch) || (u.rows.any fun e => mine e.vf e.ident && old e.batch) ||
    c.mx.writes.any fun w => old w.batch

/-- Drops what the arrays hold of a context that has ended; its tag stays until it is replaced (R16, R119). -/
def dropMatrix (s : State) (vf ident : Nat) : State :=
  let mine (a b : Nat) : Bool := a == vf && b == ident
  { s with arrays := s.arrays.map fun u => { u with
      queue := u.queue.filter fun e => !mine e.vf e.ident
      rows := u.rows.filter fun e => !mine e.vf e.ident
      latch := u.latch.map fun l => if mine l.vf l.ident then { l with valid := false } else l } }

/-! ## vmmq and vwld -/

/-- The registers of lanes: register i of `n` from a base, each with all 32 lanes, as they are read at issue. -/
def readRegs (s : State) (o : Opnd) (n : Nat) : List (List Word) :=
  (upto n).map fun i => (upto 32).map fun l => o.word s i l

/-- 0x03 unless n registers from a base are v registers (R113). -/
def rangeBad (c : RegCode) (n : Nat) : List Nat := if isV c && c.toNat + n ≤ 48 then [] else [0x03]

/-- The activation format that a stream selects (R114). -/
def streamFmt (s : State) (stream : BitVec 2) : Nat :=
  (vfReg s s.g.who.vf 0x003).toNat / 2 ^ (4 * stream.toNat) % 16

/-- The A range of a vmmq breaks its limit where the number of registers is defined (R251). -/
def aBad (f : FmtX) (w : Option Weights) (af : Nat) : List Nat :=
  match w with
  | none => if isV f.a then [] else [0x03]
  | some x =>
    if !actCode af then (if isV f.a then [] else [0x03])
    else
      match aRegs x.fmt af with
      | some n => rangeBad f.a n
      | none => if isV f.a then [] else [0x03]

/-- Causes of vmmq in the first row of R154. -/
def vmmqBad (s : State) (f : FmtX) : List Nat :=
  let af := streamFmt s f.stream
  (if actCode af then [] else [0x02]) ++
    rangeBad f.b (match s.g.mx.weights with | some w => bRegs w.fmt | none => 16) ++ aBad f s.g.mx.weights af

/-- The other causes of vmmq (R251, R252). -/
def vmmqCauses (s : State) (f : FmtX) : List Nat :=
  (match s.g.mx.weights with
   | none => [0xA5]
   | some w => if (aRegs w.fmt (streamFmt s f.stream)).isNone then [0xA5] else []) ++
    (if s.g.mx.held ≤ f.tile.toNat then [0xA6] else []) ++ (if 2 ≤ s.g.pidx.toNat then [0x0B] else [])

/-- Places entries at the back of a queue, or nothing if they do not fit (R111). -/
def placeEntries (s : State) (es : List ArrayEntry) : Option State :=
  let u := arrayOf s (partOf s.g.who.loc)
  if 8 < u.queue.length + es.length then none else some (setArray s { u with queue := u.queue ++ es })

/-- A read of the 16 registers from a base gives an old value of a result still in flight: its write comes after the reload, and
clears the tag that this sets (R115, R170). -/
def writtenLate (s : State) (pos base : Nat) : Bool :=
  (upto 16).any fun i => (upto 32).any fun l =>
    (oldValue s.g (base + i) (vKey (base + i) l)).isSome && Config.windowOld s.free pos (base + i) l

/-- The quarter operations of a vmmq, one for each quarter with an acting lane (R111, R251). -/
def quarterOps (s : State) (f : FmtX) (w : Weights) (seq : Nat) : List ArrayEntry :=
  let af := streamFmt s f.stream
  let a := Opnd.v 0 f.a.toNat
  let b := readRegs s (.v 1 f.b.toNat) 16
  let n := (aRegs w.fmt af).getD 0
  (upto 4).filterMap fun q =>
    let rows := (upto 8).map (8 * q + ·) |>.filter (lane (active s))
    if rows.isEmpty then none
    else some ⟨s.g.who.vf, s.g.who.ident, seq, s.g.mx.batch, false, f.b.toNat, b, !writtenLate s 1 f.b.toNat, w, f.tile.toNat, af,
      rows.map fun l => (l, (upto n).map fun i => a.word s i l)⟩

/-- The A registers that a vmmq reads (R113): one code where their number is not defined. -/
def vmmqReads (s : State) (f : FmtX) : Nat :=
  ((s.g.mx.weights.bind fun w => aRegs w.fmt (streamFmt s f.stream))).getD 1

/-- VMMQ (R251, R252). -/
def execVmmq (f : FmtX) (s : State) : Host.Outcome State Fault Refusal :=
  issue s f.nas ⟨coreOnly s ++ vmmqBad s f, codes f.a (vmmqReads s f) ++ codes f.b 16, []⟩ fun s =>
    match firstCause (vmmqCauses s f), s.g.mx.weights with
    | some c, _ => .trap (precise s c)
    | none, none => .trap (precise s 0xA5)
    | none, some w =>
      if s.g.pidx = 1 then .ok { s with g := { s.g with pidx := 0 } }
      else
        let (seq, t) := takeFresh s
        match placeEntries t (quarterOps s f w seq) with
        | some t => .ok t
        | none => .wait .held s

/-- VWLD (R252, R253). -/
def execVwld (f : FmtR) (s : State) : Host.Outcome State Fault Refusal :=
  let fmt := f.b.toNat
  issue s f.nas
    ⟨coreOnly s ++ (if weightCode fmt then [] else [0x02]) ++ rangeBad f.a (bRegs fmt), codes f.a (bRegs fmt), []⟩
    fun s =>
      if 2 ≤ s.g.pidx.toNat then .trap (precise s 0x0B)
      else if s.g.pidx = 1 then .ok { s with g := { s.g with pidx := 0 } }
      else
        let o := Opnd.v 1 f.a.toNat
        let row (i : Nat) : List Word := if fmt = 8 then (upto 32).map (o.word s i) else []
        let w : Weights := ⟨fmt, row 16, row 17⟩
        let (seq, t) := takeFresh s
        let e : ArrayEntry :=
          ⟨s.g.who.vf, s.g.who.ident, seq, s.g.mx.batch, true, f.a.toNat, readRegs s o 16, !writtenLate s 1 f.a.toNat, w, 0, 0, []⟩
        match placeEntries t [e] with
        | some t => .ok { t with g := { t.g with mx := { t.g.mx with weights := some w } } }
        | none => .wait .held s

/-! ## Tile forms (R254, R255) -/

/-- 0xA6 unless the group holds the tile. -/
def tileCause (s : State) (tile : BitVec 3) : List Nat := if tile.toNat < s.g.mx.held then [] else [0xA6]

/-- The row that a lane's row source names. -/
def rowOf (s : State) (o : Opnd) (l : Nat) : Nat := (o.word s 0 l).toNat % 32

/-- VACCRD (R254): stalls until every row read is final. -/
def execVaccrd (f : FmtX) (s : State) : Host.Outcome State Fault Refusal :=
  issue s f.nas ⟨coreOnly s ++ vBad f.a 1, codes f.b 1, codes f.a 1⟩ fun s =>
    match firstCause (tileCause s f.tile) with
    | some c => .trap (precise s c)
    | none =>
      match takeAll [(1, f.b, 1)] s with
      | .error e => portStop s e
      | .ok (os, s') =>
        let o := os.getD 0 (.k [])
        let t := f.tile.toNat
        if !(lanesOf (active s)).all fun l => rowFinal s s.g t (rowOf s o l) then .wait .held s
        else
          let u := putLanes s' f.a.toNat (active s) fun l => storeGet 0 s.g.mx.tiles (tileKey t (rowOf s o l) l)
          .ok (openWindow s u f.la.toNat (codes f.a 1) ((lanesOf (active s)).map (vKey f.a.toNat)) 0 0)

/-- A tile write joins the pending ones of its group, at most TWQ = 4 (R255). -/
def placeTileWrite (s : State) (tile : Nat) (zero : Bool) (elems : List (Nat × Nat × Word)) : Option State :=
  if 4 ≤ s.g.mx.writes.length then none
  else
    let (seq, s) := takeFresh s
    some { s with g := { s.g with mx := { s.g.mx with writes := s.g.mx.writes ++
      [⟨tile, seq, s.g.mx.batch, zero, elems⟩] } } }

/-- VACCWR (R254, R255). -/
def execVaccwr (f : FmtX) (s : State) : Host.Outcome State Fault Refusal :=
  issue s f.nas ⟨coreOnly s, codes f.a 1 ++ codes f.b 1, []⟩ fun s =>
    match firstCause (tileCause s f.tile) with
    | some c => .trap (precise s c)
    | none =>
      match takeAll [(0, f.a, 1), (1, f.b, 1)] s with
      | .error e => portStop s e
      | .ok (os, s') =>
        let elems := (lanesOf (active s)).map fun l => (rowOf s (os.getD 1 (.k [])) l, l, src s os 0 0 l)
        if elems.isEmpty then .ok s'
        else
          match placeTileWrite s' f.tile.toNat false elems with
          | some t => .ok t
          | none => .wait .held s

/-- VACCZ (R254, R255). -/
def execVaccz (f : FmtX) (s : State) : Host.Outcome State Fault Refusal :=
  issue s f.nas ⟨coreOnly s, [], []⟩ fun s =>
    match firstCause (tileCause s f.tile) with
    | some c => .trap (precise s c)
    | none =>
      match placeTileWrite s f.tile.toNat true [] with
      | some t => .ok t
      | none => .wait .held s

/-- VWMARK (R254). -/
def execVwmark (f : FmtX) (s : State) : Host.Outcome State Fault Refusal :=
  issue s f.nas ⟨coreOnly s ++ vBad f.a 1, [], codes f.a 1⟩ fun s =>
    match firstCause (tileCause s f.tile) with
    | some c => .trap (precise s c)
    | none =>
      let u := putLanes s f.a.toNat (active s) fun _ => tileStatus s s.g f.tile.toNat
      .ok (openWindow s u f.la.toNat (codes f.a 1) ((lanesOf (active s)).map (vKey f.a.toNat)) 0 0)

/-- VDEV (R256). -/
def execVdev (f : FmtR) (s : State) : Host.Outcome State Fault Refusal :=
  laneForm f true [(0, f.d, 1), (1, f.a, 1), (2, f.b, 1)] 1
    (if s.g.who.loc.die = 2 then [0x05] else []) []
    (fun s os l =>
      let t := fSub f32 (src s os 1 0 l).toNat (src s os 2 0 l).toNat
      let q := fMul f32 t.1 t.1
      let r := fAdd f32 (src s os 0 0 l).toNat q.1
      ([BitVec.ofNat 32 r.1], t.2 ||| q.2 ||| r.2)) s

/-! ## The array's own steps -/

/-- The latch that a reload with these weights leaves (R115, R250). -/
def latchOf (e : ArrayEntry) : Latch := ⟨e.vf, e.ident, e.base, e.clean, e.codes, e.weights⟩

/-- A quarter operation uses the latch as it stands (R115). -/
def latchMatches (l : Option Latch) (e : ArrayEntry) : Bool :=
  match l with
  | some x => x.valid && x.vf == e.vf && x.ident == e.ident && x.base == e.base && x.weights.fmt == e.weights.fmt
  | none => false

/-- The rows that a quarter operation enters, with the latched weights (R116 to R118). -/
def enterRows (l : Latch) (e : ArrayEntry) : List ArrayRow :=
  e.acts.map fun a =>
    ⟨e.vf, e.ident, e.seq, e.batch, e.tile, a.1,
      weightsFlagged l.codes l.weights || rowFlagged e.afmt (passDepth l.weights.fmt) a.2,
      (upto 32).map (columnSum e.afmt a.2 l.codes l.weights)⟩

/-- A tile write placed earlier to the tile of a quarter operation holds it back (R255). -/
def entryHeld (s : State) (e : ArrayEntry) : Bool :=
  match ctxOf s e.vf e.ident with
  | some c => c.mx.writes.any fun w => w.tile == e.tile && decide (w.seq < e.seq)
  | none => false

/-- The array of a partition takes the next entry of its queue, if nothing holds it (R116). -/
def takeEntry (s : State) (part : Nat) : Option State :=
  let u := arrayOf s part
  match u.queue with
  | [] => none
  | e :: t =>
    if e.reload then some (setArray s { u with queue := t, latch := some (latchOf e) })
    else if entryHeld s e then none
    else
      let l := match u.latch with | some x => if latchMatches u.latch e then x else latchOf e | none => latchOf e
      some (setArray s { u with queue := t, latch := some l, rows := u.rows ++ enterRows l e })

/-- ARRAY_ENTRY_BEGIN (R116): the array of a partition takes the next entry of its queue. -/
def execArrayEntryBegin (part : Nat) (s : State) : Host.Outcome State Fault Refusal := dueOr s (takeEntry s part)

/-- The new value of an element and its flags (R117); a flagged row is canonical NaN (R118). -/
def rowElem (flagged : Bool) (old : Word) (sum : Int × Int) : Word × Word :=
  if flagged then (0x7FC00000, flInv)
  else
    match fDecode f32 old.toNat with
    | .inf _ => (old, 0)
    | .nan => (0x7FC00000, flInv)
    | .fin sg m e =>
      let x := addExact .rne sg m e (decide (sum.1 < 0)) sum.1.natAbs sum.2
      let r := fRound f32 .rne false x.1 x.2.1 x.2.2
      (if r.1 % 2 ^ 31 = 0 then 0 else BitVec.ofNat 32 r.1, r.2 &&& flOf)

/-- Writes a row that the array has taken into its tile (R117, R118). -/
def writeRow (r : ArrayRow) (c : Ctx) : Ctx :=
  let old (n : Nat) : Word := storeGet 0 c.mx.tiles (tileKey r.tile r.row n)
  let flagged := r.flagged || (upto 32).any fun n => fIsNan f32 (old n).toNat
  let new := (upto 32).map fun n => (n, rowElem flagged (old n) (r.sums.getD n (0, 0)))
  { c with
    flags := new.foldl (fun a x => a ||| x.2.2) c.flags
    mx := { c.mx with tiles := new.foldl (fun t x => storeSet 0 t (tileKey r.tile r.row x.1) x.2.1) c.mx.tiles } }

/-- The oldest row that the array of a partition has taken is written, if there is one (R117). -/
def finishRow (s : State) (part : Nat) : Option State :=
  let u := arrayOf s part
  match u.rows with
  | [] => none
  | r :: t => some (updCtx (setArray s { u with rows := t }) r.vf r.ident (writeRow r))

/-- ARRAY_ROW_WRITE (R117): the oldest row that the array of a partition has taken is written. -/
def execArrayRowWrite (part : Nat) (s : State) : Host.Outcome State Fault Refusal := dueOr s (finishRow s part)

/-- Everything placed earlier in the rows of a tile write is written (R255). -/
def writeDue (s : State) (c : Ctx) (w : TileWrite) : Bool :=
  !(w.rows.any fun r => arrayWrites s c (some w.seq) w.tile r ||
    c.mx.writes.any fun x => decide (x.seq < w.seq) && x.tile == w.tile && x.rows.contains r)

/-- Applies a tile write. -/
def applyWrite (w : TileWrite) (c : Ctx) : Ctx :=
  let tiles := if w.zero then storeClear c.mx.tiles (1024 * w.tile) 1024
    else w.elems.foldl (fun t x => storeSet 0 t (tileKey w.tile x.1 x.2.1) x.2.2) c.mx.tiles
  { c with mx := { c.mx with tiles := tiles, writes := c.mx.writes.filter fun x => x.seq != w.seq } }

/-- The first pending tile write of a group whose conditions hold is applied, if there is one (R255). -/
def finishWrite (s : State) (vf ident : Nat) : Option State :=
  match ctxOf s vf ident with
  | none => none
  | some c => (c.mx.writes.find? (writeDue s c)).map fun w => updCtx s vf ident (applyWrite w)

/-- TILE_WRITE_APPLY (R255): the first pending tile write of a group whose conditions hold is applied. -/
def execTileWriteApply (vf ident : Nat) (s : State) : Host.Outcome State Fault Refusal := dueOr s (finishWrite s vf ident)

end Sys2Proof.Machine
end

