-- ==== Sys2Proof/Machine/LaneConv.lean ====
section
/-! DEFINITION. Lane conversion, packing, exchange, reduction, scan and vote (11; R219 to R225). -/

namespace Sys2Proof.Machine

/-! ## Conversion (R219 to R221) -/

/-- The pair of formats of a conversion code of vcvt (R219). -/
def vcvtPair (c : Nat) : Num × Num :=
  match c with
  | 0x00 => (.fl f32, .fl bf16) | 0x01 => (.fl f32, .fl f16)
  | 0x02 => (.fl f32, .fl e4m3) | 0x03 => (.fl f32, .fl e5m2)
  | 0x04 => (.fl bf16, .fl f32) | 0x05 => (.fl f16, .fl f32)
  | 0x06 => (.fl e4m3, .fl f32) | 0x07 => (.fl e5m2, .fl f32)
  | 0x08 => (.fl f16, .fl bf16) | 0x09 => (.fl bf16, .fl f16)
  | 0x0A => (.fl e4m3, .fl e5m2) | 0x0B => (.fl e5m2, .fl e4m3)
  | 0x0C => (.fl bf16, .fl e4m3) | 0x0D => (.fl bf16, .fl e5m2)
  | 0x0E => (.fl f16, .fl e4m3) | 0x0F => (.fl f16, .fl e5m2)
  | 0x10 => (.fl e4m3, .fl bf16) | 0x11 => (.fl e5m2, .fl bf16)
  | 0x12 => (.fl e4m3, .fl f16) | 0x13 => (.fl e5m2, .fl f16)
  | 0x14 => (.fl f32, .int 8 true) | 0x15 => (.fl f32, .int 8 false)
  | 0x16 => (.fl f32, .int 16 true) | 0x17 => (.fl f32, .int 16 false)
  | 0x18 => (.fl f32, .int 32 true) | 0x19 => (.fl f32, .int 32 false)
  | 0x1A => (.fl f32, .int 64 true) | 0x1B => (.fl f32, .int 64 false)
  | 0x1C => (.int 8 true, .fl f32) | 0x1D => (.int 8 false, .fl f32)
  | 0x1E => (.int 16 true, .fl f32) | 0x1F => (.int 16 false, .fl f32)
  | 0x20 => (.int 32 true, .fl f32) | 0x21 => (.int 32 false, .fl f32)
  | 0x22 => (.int 64 true, .fl f32) | 0x23 => (.int 64 false, .fl f32)
  | 0x24 => (.int 32 true, .int 8 true) | 0x25 => (.int 32 true, .int 8 false)
  | 0x26 => (.int 32 true, .int 16 true) | _ => (.int 32 true, .int 16 false)

/-- The registers that a format takes. -/
def numRegs (n : Num) : Nat := if n.width = 64 then 2 else 1

/-- Converts a register value: the source from its low bits, the result extended into the destination (R219). -/
def convertRegs (a b : Num) (x : Nat) (v : Nat) : List Word × Word :=
  let r := convert a b x (v % 2 ^ a.width)
  let e := extendNum b r.1
  if b.width = 64 then ([BitVec.ofNat 32 e, BitVec.ofNat 32 (e / 2 ^ 32)], r.2) else ([BitVec.ofNat 32 e], r.2)

/-- VCVT (R219): b is the conversion code, x the rounding code; on the active lanes. -/
def execVcvt (f : FmtR) (s : State) : Host.Outcome State Fault Refusal :=
  let p := vcvtPair f.b.toNat
  let wa := numRegs p.1
  laneForm f false [(1, f.a, wa)] (numRegs p.2) (alignBad f.a wa) []
    (fun s os l =>
      convertRegs p.1 p.2 f.x.toNat (if wa = 2 then (srcPair s os 0 l).toNat else (src s os 0 0 l).toNat)) s

/-- The result of a pack code (R220). -/
def packCode (x : Nat) (d a b : Word) : Word × Word :=
  match x with
  | 0 => packHalves (fToF f32 bf16 .rne false a.toNat) (fToF f32 bf16 .rne false b.toNat)
  | 1 => packHalves (fToF f32 f16 .rne false a.toNat) (fToF f32 f16 .rne false b.toNat)
  | 2 => (((b &&& 0xFFFF) <<< 16) ||| (a &&& 0xFFFF), 0)
  | 3 => ((b &&& 0xFFFF0000) ||| (a >>> 16), 0)
  | 4 => ((d &&& 0xFFFF0000) ||| ((b &&& 0xFF) <<< 8) ||| (a &&& 0xFF), 0)
  | _ => (((b &&& 0xFF) <<< 24) ||| ((a &&& 0xFF) <<< 16) ||| (d &&& 0xFFFF), 0)

/-- VPK (R220): codes 4 and 5 read d; on the active lanes. -/
def execVpk (f : FmtR) (s : State) : Host.Outcome State Fault Refusal :=
  if 4 ≤ f.x.toNat then
    laneForm f false [(0, f.d, 1), (1, f.a, 1), (2, f.b, 1)] 1 [] []
      (fun s os l => let r := packCode f.x.toNat (src s os 0 0 l) (src s os 1 0 l) (src s os 2 0 l); ([r.1], r.2)) s
  else
    laneForm f false [(1, f.a, 1), (2, f.b, 1)] 1 [] []
      (fun s os l => let r := packCode f.x.toNat 0 (src s os 0 0 l) (src s os 1 0 l); ([r.1], r.2)) s

/-- VQ4DEC (R221): b is a pair that holds S and, in the odd register, m and the element index. -/
def execVq4dec (f : FmtR) (s : State) : Host.Outcome State Fault Refusal :=
  laneForm f true [(1, f.a, 1), (2, f.b, 2)] 1 (alignBad f.b 2) []
    (fun s os l =>
      let odd := (src s os 1 1 l).toNat
      let c := bits (src s os 0 0 l).toNat (4 * bits odd 10 8 + 3) (4 * bits odd 10 8)
      let r := q4Decode c (odd % 256) (src s os 1 0 l).toNat
      ([BitVec.ofNat 32 r.1], r.2)) s

/-! ## Exchange (R222) -/

/-- VSHFL (R222). -/
def execVshfl (f : FmtR) (s : State) : Host.Outcome State Fault Refusal :=
  laneForm f true [(1, f.a, 1), (2, f.b, 1)] 1 (coreOnly s) []
    (fun s os l => ([src s os 0 0 ((src s os 1 0 l).toNat % 32)], 0)) s

/-- VSHFLX (R222). -/
def execVshflx (f : FmtR) (s : State) : Host.Outcome State Fault Refusal :=
  laneForm f true [(1, f.a, 1), (2, f.b, 1)] 1 (coreOnly s) []
    (fun s os l => ([src s os 0 0 (l ^^^ ((src s os 1 0 l).toNat % 32))], 0)) s

/-- VLANE (R222). -/
def execVlane (f : FmtR) (s : State) : Host.Outcome State Fault Refusal :=
  laneForm f true [(1, f.a, 1), (2, f.b, 1)] 1 (coreOnly s) []
    (fun s os l => ([src s os 0 0 l + BitVec.ofNat 32 l * src s os 1 0 l], 0)) s

/-! ## Reduction, scan and vote (R223 to R225) -/

/-- The reduction operation of a code (R223), with flags. -/
def redOp (x : Nat) (a b : Word) : Word × Word :=
  match x with
  | 0 => (a + b, 0)
  | 1 => res32 (fAdd f32 a.toNat b.toNat)
  | 2 => (minS a b, 0)
  | 3 => (minN a b, 0)
  | 4 => (maxS a b, 0)
  | 5 => (maxN a b, 0)
  | 6 => (a &&& b, 0)
  | _ => (a ||| b, 0)

/-- The identity of a reduction operation (R223). -/
def redId (x : Nat) : Word :=
  match x with
  | 1 => 0x80000000
  | 2 => 0x7FFFFFFF
  | 3 => 0xFFFFFFFF
  | 4 => 0x80000000
  | 6 => 0xFFFFFFFF
  | _ => 0

/-- One level of the tree: neighbours combined in order. -/
def redLevel (x : Nat) : List Word → List Word × Word
  | a :: b :: t =>
    let r := redOp x a b
    let (ts, fl) := redLevel x t
    (r.1 :: ts, r.2 ||| fl)
  | t => (t, 0)

/-- The levels of the tree (R223). -/
def redTree (x : Nat) : Nat → List Word → Word × Word
  | 0, t => (t.headD 0, 0)
  | n + 1, t =>
    let (ts, fl) := redLevel x t
    let r := redTree x n ts
    (r.1, fl ||| r.2)

/-- VRED (R223). -/
def execVred (f : FmtR) (s : State) : Host.Outcome State Fault Refusal :=
  issue s f.nas ⟨coreOnly s, codes f.a 1, codes f.d 1⟩ fun s =>
    match takeAll [(1, f.a, 1)] s with
    | .error e => portStop s e
    | .ok (os, s') =>
      let act := active s
      let r := redTree f.x.toNat 5
        ((upto 32).map fun l => if lane act l then src s os 0 0 l else redId f.x.toNat)
      .ok (orFlags (putReduced s' f.d act r.1) r.2)

/-- The inclusive prefixes over the active lanes, and the flags (R224). -/
def scanLanes (x : Nat) (get : Nat → Word) : List Nat → Word → List (Nat × Word) × Word
  | [], _ => ([], 0)
  | l :: t, acc =>
    let r := redOp x acc (get l)
    let (rs, fl) := scanLanes x get t r.1
    ((l, r.1) :: rs, r.2 ||| fl)

/-- VSCAN (R224). -/
def execVscan (f : FmtR) (s : State) : Host.Outcome State Fault Refusal :=
  issue s f.nas ⟨coreOnly s ++ vBad f.d 1, codes f.a 1, codes f.d 1⟩ fun s =>
    match takeAll [(1, f.a, 1)] s with
    | .error e => portStop s e
    | .ok (os, s') =>
      let (rs, fl) := scanLanes f.x.toNat (fun l => src s os 0 0 l) (lanesOf (active s)) (redId f.x.toNat)
      .ok (orFlags (rs.foldl (fun s r => putV s f.d.toNat r.1 r.2) s') fl)

/-- The result of a vote (R225) over the mask word B. -/
def voteOf (x : Nat) (act b : Mask) : Word :=
  match x with
  | 0 => if b ≠ 0 then 1 else 0
  | 1 => if b = act then 1 else 0
  | 2 => b
  | _ => popc b

/-- VVOTE (R225). -/
def execVvote (f : FmtR) (s : State) : Host.Outcome State Fault Refusal :=
  issue s f.nas ⟨coreOnly s ++ maskBad f.a, [64 + f.a.toNat], codes f.d 1⟩ fun s =>
    .ok (putReduced s f.d (active s) (voteOf f.x.toNat (active s) (readMask s 1 f.a.toNat &&& active s)))

end Sys2Proof.Machine
end

