-- ==== Sys2Proof/Machine/GroupAlu.lean ====
section
/-! DEFINITION. Group-set scalar work and sequencing (14; R273 to R285). -/

namespace Sys2Proof.Machine

/-! ## Shared forms -/

/-- The k registers of a destination (R32). -/
def destKs (d : RegCode) (w : Nat) : List Nat := if isK d then (upto w).map (d.toNat - 48 + ·) else []

/-- The causes of source operands that must be k registers of a width (R273). -/
def srcsBad (srcs : List (Nat × RegCode × Nat)) : List Nat := srcs.flatMap fun o => kBad o.2.1 o.2.2

/-- The register codes that sources name. -/
def srcCodes (srcs : List (Nat × RegCode × Nat)) : List Nat := srcs.flatMap fun o => codes o.2.1 o.2.2

/-- A group form with k sources and a uniform destination of `w` registers (R273, R274); a slice waits while a queue
that it appends to is full (R32). -/
def groupForm (nas : Nas) (srcs : List (Nat × RegCode × Nat)) (d : RegCode) (w : Nat) (bad : List Nat)
    (masks : List Nat) (fn : State → List Opnd → List Word × Word) (s : State) : Host.Outcome State Fault Refusal :=
  issue s nas ⟨bad ++ srcsBad srcs ++ alignBad d w, srcCodes srcs ++ masks, codes d w⟩ fun s =>
    if !apRoom s (destKs d w) then .wait .held s
    else
      match takeAll srcs s with
      | .error e => portStop s e
      | .ok (os, s') =>
        let r := fn s os
        .ok (orFlags (putUniforms s' d.toNat r.1) r.2)

/-- Word i of the n-th uniform source. -/
def uni (s : State) (os : List Opnd) (n i : Nat) : Word := src s os n i 0

/-- The n-th uniform source as a pair. -/
def uniPair (s : State) (os : List Opnd) (n : Nat) : DWord := srcPair s os n 0

/-- Two 32-bit sources, one result, with flags. -/
def group2f (f : FmtR) (op : Word → Word → Word × Word) (s : State) : Host.Outcome State Fault Refusal :=
  groupForm f.nas [(1, f.a, 1), (2, f.b, 1)] f.d 1 [] []
    (fun s os => let r := op (uni s os 0 0) (uni s os 1 0); ([r.1], r.2)) s

/-- Two 32-bit sources, one result. -/
def group2 (f : FmtR) (op : Word → Word → Word) (s : State) : Host.Outcome State Fault Refusal :=
  group2f f (fun a b => (op a b, 0)) s

/-- One 32-bit source, one result. -/
def group1 (f : FmtR) (op : Word → Word) (s : State) : Host.Outcome State Fault Refusal :=
  groupForm f.nas [(1, f.a, 1)] f.d 1 [] [] (fun s os => ([op (uni s os 0 0)], 0)) s

/-- Two pairs, one pair (R277). -/
def groupPair (f : FmtR) (op : DWord → DWord → DWord) (s : State) : Host.Outcome State Fault Refusal :=
  groupForm f.nas [(1, f.a, 2), (2, f.b, 2)] f.d 2 [] []
    (fun s os => let r := op (uniPair s os 0) (uniPair s os 1); ([loWord r, hiWord r], 0)) s

/-- One source and an immediate (R279). -/
def groupImm (f : FmtI) (op : Word → Word) (s : State) : Host.Outcome State Fault Refusal :=
  groupForm f.nas [(1, f.a, 1)] f.d 1 [] [] (fun s os => ([op (uni s os 0 0)], 0)) s

/-- A comparison that writes all 32 bits of a mask (R278, R281). -/
def groupCompare (f : FmtR) (w : Nat) (op : State → List Opnd → Bool × Word) (s : State) :
    Host.Outcome State Fault Refusal :=
  let srcs := [(1, f.a, w), (2, f.b, w)]
  issue s f.nas ⟨maskBad f.d ++ srcsBad srcs, srcCodes srcs, [64 + f.d.toNat]⟩ fun s =>
    match takeAll srcs s with
    | .error e => portStop s e
    | .ok (os, s') =>
      let r := op s os
      .ok (orFlags (putMask s' f.d.toNat (if r.1 then 0xFFFFFFFF else 0)) r.2)

/-! ## Integer forms (R276 to R278) -/

/-- The signed quotient and remainder of R276, and FLAGS.DZ. -/
def divRem (a b : Word) : Word × Word × Word :=
  if b = 0 then (0xFFFFFFFF, a, flDz) else (a.sdiv b, a.srem b, 0)

/-- GADD (R276). -/
def execGadd (f : FmtR) (s : State) : Host.Outcome State Fault Refusal :=
  group2 f (fun a b => a + b) s
/-- GSUB (R276). -/
def execGsub (f : FmtR) (s : State) : Host.Outcome State Fault Refusal :=
  group2 f (fun a b => a - b) s
/-- GMUL (R276). -/
def execGmul (f : FmtR) (s : State) : Host.Outcome State Fault Refusal :=
  group2 f (fun a b => a * b) s
/-- GMULH (R276). -/
def execGmulh (f : FmtR) (s : State) : Host.Outcome State Fault Refusal :=
  group2 f mulHiS s
/-- GDIV (R276). -/
def execGdiv (f : FmtR) (s : State) : Host.Outcome State Fault Refusal :=
  group2f f (fun a b => let r := divRem a b; (r.1, r.2.2)) s
/-- GREM (R276). -/
def execGrem (f : FmtR) (s : State) : Host.Outcome State Fault Refusal :=
  group2f f (fun a b => let r := divRem a b; (r.2.1, r.2.2)) s
/-- GMIN (R276). -/
def execGmin (f : FmtR) (s : State) : Host.Outcome State Fault Refusal :=
  group2 f (if f.x = 0 then minS else minN) s
/-- GMAX (R276). -/
def execGmax (f : FmtR) (s : State) : Host.Outcome State Fault Refusal :=
  group2 f (if f.x = 0 then maxS else maxN) s
/-- GAND (R276). -/
def execGand (f : FmtR) (s : State) : Host.Outcome State Fault Refusal :=
  group2 f (fun a b => a &&& b) s
/-- GOR (R276). -/
def execGor (f : FmtR) (s : State) : Host.Outcome State Fault Refusal :=
  group2 f (fun a b => a ||| b) s
/-- GXOR (R276). -/
def execGxor (f : FmtR) (s : State) : Host.Outcome State Fault Refusal :=
  group2 f (fun a b => a ^^^ b) s
/-- GSHL (R276). -/
def execGshl (f : FmtR) (s : State) : Host.Outcome State Fault Refusal :=
  group2 f (fun a b => shl32 a (shiftCount b)) s
/-- GSHR (R276). -/
def execGshr (f : FmtR) (s : State) : Host.Outcome State Fault Refusal :=
  group2 f (fun a b => shr32 a (shiftCount b)) s
/-- GSAR (R276). -/
def execGsar (f : FmtR) (s : State) : Host.Outcome State Fault Refusal :=
  group2 f (fun a b => sar32 a (shiftCount b)) s
/-- GCLZ (R276). -/
def execGclz (f : FmtR) (s : State) : Host.Outcome State Fault Refusal :=
  group1 f clz s
/-- GPOPC (R276). -/
def execGpopc (f : FmtR) (s : State) : Host.Outcome State Fault Refusal :=
  group1 f popc s
/-- GBFX (R276). -/
def execGbfx (f : FmtR) (s : State) : Host.Outcome State Fault Refusal :=
  group2 f bitField s
/-- GBFI (R276): reads k[d]. -/
def execGbfi (f : FmtR) (s : State) : Host.Outcome State Fault Refusal :=
  groupForm f.nas [(0, f.d, 1), (1, f.a, 1), (2, f.b, 1)] f.d 1 [] []
    (fun s os => ([insertField (uni s os 0 0) (uni s os 1 0) (uni s os 2 0)], 0)) s
/-- GADD64 (R277). -/
def execGadd64 (f : FmtR) (s : State) : Host.Outcome State Fault Refusal :=
  groupPair f (fun a b => a + b) s
/-- GSUB64 (R277). -/
def execGsub64 (f : FmtR) (s : State) : Host.Outcome State Fault Refusal :=
  groupPair f (fun a b => a - b) s
/-- GMUL64 (R277). -/
def execGmul64 (f : FmtR) (s : State) : Host.Outcome State Fault Refusal :=
  groupPair f (fun a b => a * b) s

/-- The condition of gcmp (R187, R278). -/
def gcmpCode (x : Nat) (a b : Word) : Bool :=
  match x with
  | 0 => a == b
  | 1 => a != b
  | 2 => a.slt b
  | 3 => a.sle b
  | 4 => a.ult b
  | _ => a.ule b

/-- GCMP (R278). -/
def execGcmp (f : FmtR) (s : State) : Host.Outcome State Fault Refusal :=
  groupCompare f 1 (fun s os => (gcmpCode f.x.toNat (uni s os 0 0) (uni s os 1 0), 0)) s

/-- GSEL (R278): bit 0 of m7 selects. -/
def execGsel (f : FmtR) (s : State) : Host.Outcome State Fault Refusal :=
  groupForm f.nas [(1, f.a, 1), (2, f.b, 1)] f.d 1 [] [71]
    (fun s os => ([if lane (readMask s 7 7) 0 then uni s os 0 0 else uni s os 1 0], 0)) s

/-! ## Immediates, constants and addresses (R279) -/

/-- GADDI (R279). -/
def execGaddi (f : FmtI) (s : State) : Host.Outcome State Fault Refusal :=
  groupImm f (· + simm9 f.imm) s
/-- GANDI (R279). -/
def execGandi (f : FmtI) (s : State) : Host.Outcome State Fault Refusal :=
  groupImm f (· &&& simm9 f.imm) s
/-- GORI (R279). -/
def execGori (f : FmtI) (s : State) : Host.Outcome State Fault Refusal :=
  groupImm f (· ||| zimm9 f.imm) s
/-- GXORI (R279). -/
def execGxori (f : FmtI) (s : State) : Host.Outcome State Fault Refusal :=
  groupImm f (· ^^^ simm9 f.imm) s
/-- GSHLI (R279). -/
def execGshli (f : FmtI) (s : State) : Host.Outcome State Fault Refusal :=
  groupImm f (shl32 · (f.imm.toNat % 32)) s
/-- GSHRI (R279). -/
def execGshri (f : FmtI) (s : State) : Host.Outcome State Fault Refusal :=
  groupImm f (shr32 · (f.imm.toNat % 32)) s
/-- GSARI (R279). -/
def execGsari (f : FmtI) (s : State) : Host.Outcome State Fault Refusal :=
  groupImm f (sar32 · (f.imm.toNat % 32)) s

/-- GMOVI (R279). -/
def execGmovi (f : FmtW) (s : State) : Host.Outcome State Fault Refusal :=
  groupForm f.nas [] f.d 1 [] [] (fun _ _ => ([f.imm.signExtend 32], 0)) s

/-- The register code of a field that names a k register directly (R162). -/
def kCode (d : BitVec 4) : RegCode := 48 + d.setWidth 6

/-- GMOVHI (R279): bits [14:0] stay. -/
def execGmovhi (f : FmtH) (s : State) : Host.Outcome State Fault Refusal :=
  groupForm f.nas [] (kCode f.d) 1 [] []
    (fun s _ => ([(readK s 0 f.d.toNat &&& 0x7FFF) ||| (f.imm.setWidth 32 <<< 15)], 0)) s

/-- GADDPC (R279): PC is the address of the instruction. -/
def execGaddpc (f : FmtH) (s : State) : Host.Outcome State Fault Refusal :=
  groupForm f.nas [] (kCode f.d) 2 [] []
    (fun s _ => let r : DWord := (curPc s).setWidth 64 + f.imm.signExtend 64; ([loWord r, hiWord r], 0)) s

/-! ## Floating-point forms (R280 to R282) -/

/-- The format that x[0] selects (R187). -/
def gfFmt (x : BitVec 3) : Fmt := if x.getLsbD 0 then f64 else f32
/-- The registers that it takes. -/
def gfRegs (x : BitVec 3) : Nat := if x.getLsbD 0 then 2 else 1

/-- The n-th source as a bit pattern of w registers. -/
def uniNat (s : State) (os : List Opnd) (n w : Nat) : Nat :=
  if w = 2 then (uniPair s os n).toNat else (uni s os n 0).toNat

/-- A bit pattern in w registers. -/
def natWords (w v : Nat) : List Word := (upto w).map fun i => BitVec.ofNat 32 (v / 2 ^ (32 * i))

/-- A floating-point form of two sources (R280). -/
def groupFloat2 (f : FmtR) (op : Fmt → Nat → Nat → Nat × Word) (s : State) : Host.Outcome State Fault Refusal :=
  let w := gfRegs f.x
  groupForm f.nas [(1, f.a, w), (2, f.b, w)] f.d w [] []
    (fun s os => let r := op (gfFmt f.x) (uniNat s os 0 w) (uniNat s os 1 w); (natWords w r.1, r.2)) s

/-- GFADD (R280). -/
def execGfadd (f : FmtR) (s : State) : Host.Outcome State Fault Refusal :=
  groupFloat2 f fAdd s
/-- GFSUB (R280). -/
def execGfsub (f : FmtR) (s : State) : Host.Outcome State Fault Refusal :=
  groupFloat2 f fSub s
/-- GFMUL (R280). -/
def execGfmul (f : FmtR) (s : State) : Host.Outcome State Fault Refusal :=
  groupFloat2 f fMul s
/-- GFDIV (R280). -/
def execGfdiv (f : FmtR) (s : State) : Host.Outcome State Fault Refusal :=
  groupFloat2 f fDiv s
/-- GFMA (R280): d is read as the addend. -/
def execGfma (f : FmtR) (s : State) : Host.Outcome State Fault Refusal :=
  let w := gfRegs f.x
  groupForm f.nas [(0, f.d, w), (1, f.a, w), (2, f.b, w)] f.d w [] []
    (fun s os =>
      let r := fFma (gfFmt f.x) (uniNat s os 1 w) (uniNat s os 2 w) (uniNat s os 0 w); (natWords w r.1, r.2)) s
/-- GFSQRT (R280). -/
def execGfsqrt (f : FmtR) (s : State) : Host.Outcome State Fault Refusal :=
  let w := gfRegs f.x
  groupForm f.nas [(1, f.a, w)] f.d w [] []
    (fun s os => let r := fSqrt (gfFmt f.x) (uniNat s os 0 w); (natWords w r.1, r.2)) s
/-- GFMNX (R281): x[2:1] 0 min, 1 max; no flag. -/
def execGfmnx (f : FmtR) (s : State) : Host.Outcome State Fault Refusal :=
  groupFloat2 f (fun t a b => (if f.x.toNat / 2 = 0 then fMin t a b else fMax t a b, 0)) s

/-- The condition of gfcmp and its INV (R187, R281). -/
def gfcmpCode (t : Fmt) (x a b : Nat) : Bool × Word :=
  match x with
  | 0 => fcmpCode t 0 a b
  | 1 => fcmpCode t 2 a b
  | 2 => fcmpCode t 3 a b
  | _ => fcmpCode t 6 a b

/-- GFCMP (R281). -/
def execGfcmp (f : FmtR) (s : State) : Host.Outcome State Fault Refusal :=
  let w := gfRegs f.x
  groupCompare f w
    (fun s os => gfcmpCode (gfFmt f.x) (f.x.toNat / 2) (uniNat s os 0 w) (uniNat s os 1 w)) s

/-- The pair of formats of a conversion code of gfcvt (R282). -/
def gfcvtPair (c : Nat) : Num × Num :=
  match c with
  | 0x0 => (.fl f32, .fl f64) | 0x1 => (.fl f64, .fl f32)
  | 0x2 => (.fl f32, .int 32 true) | 0x3 => (.fl f32, .int 32 false)
  | 0x4 => (.fl f32, .int 64 true) | 0x5 => (.fl f32, .int 64 false)
  | 0x6 => (.fl f64, .int 32 true) | 0x7 => (.fl f64, .int 32 false)
  | 0x8 => (.fl f64, .int 64 true) | 0x9 => (.fl f64, .int 64 false)
  | 0xA => (.int 32 true, .fl f64) | 0xB => (.int 32 false, .fl f64)
  | 0xC => (.int 64 true, .fl f64) | 0xD => (.int 64 false, .fl f64)
  | 0xE => (.int 32 true, .fl f32) | _ => (.int 32 false, .fl f32)

/-- GFCVT (R282): b is the conversion code, x the rounding code. -/
def execGfcvt (f : FmtR) (s : State) : Host.Outcome State Fault Refusal :=
  let p := gfcvtPair f.b.toNat
  let wa := numRegs p.1
  groupForm f.nas [(1, f.a, wa)] f.d (numRegs p.2) [] []
    (fun s os => convertRegs p.1 p.2 f.x.toNat (uniNat s os 0 wa)) s

/-! ## Sequencing forms (R283, R284) -/

/-- A form without register results that acts on the sequencing state before its selector (R285). -/
def seqForm (nas : Nas) (srcs : List (Nat × RegCode × Nat)) (fn : State → List Opnd → State → State) (s : State) :
    Host.Outcome State Fault Refusal :=
  issue s nas ⟨srcsBad srcs, srcCodes srcs, []⟩ fun s =>
    match takeAll srcs s with
    | .error e => portStop s e
    | .ok (os, s') => .ok (fn s os s')

/-- GTGT (R283). -/
def execGtgt (f : FmtT) (s : State) : Host.Outcome State Fault Refusal :=
  seqForm f.nas [] (fun s _ t => pushTarget t (curPc s + f.imm.signExtend 57 * 4)) s
/-- GTGTR (R283): bits [1:0] and [63:57] are ignored. -/
def execGtgtr (f : FmtR) (s : State) : Host.Outcome State Fault Refusal :=
  seqForm f.nas [(1, f.a, 2)] (fun s os t => pushTarget t ((uniPair s os 0).setWidth 57 &&& ~~~3)) s
/-- GLOOP (R284). -/
def execGloop (f : FmtR) (s : State) : Host.Outcome State Fault Refusal :=
  seqForm f.nas [(1, f.a, 1)] (fun s os t => pushLoop t (curPc s + 4) (uni s os 0 0)) s
/-- GLOOPI (R284). -/
def execGloopi (f : FmtH) (s : State) : Host.Outcome State Fault Refusal :=
  seqForm f.nas [] (fun s _ t => pushLoop t (curPc s + 4) (f.imm.setWidth 32)) s
/-- GBRK (R284). -/
def execGbrk (f : FmtR) (s : State) : Host.Outcome State Fault Refusal := seqForm f.nas [] (fun _ _ t => popLoop t) s

end Sys2Proof.Machine
end

