-- ==== Sys2Proof/Machine/Access.lean ====
section
/-! DEFINITION. One memory access by an instruction: address checks (R230), translation before issue (R231), the
conditions of R100, the side log (R81, R243), hotness and proposals (R96 to R99, R360), and the events themselves
(R71 to R79). Lane forms make one request per acting lane, group forms one. -/

namespace Sys2Proof.Machine

/-! ## Requests -/

/-- One event asked for: its lane, and its address as formed (64 bits global, 32 bits vault). -/
structure Req where
  lane : Nat
  va : Nat
deriving DecidableEq, Repr

/-- The columns of R100. -/
inductive AClass
  | load | side | rmw
deriving DecidableEq, Repr

/-- What an access is: vault or global space, size, column of R100, whether it must be naturally aligned (R76), and
its scope if the event carries one. -/
structure MemOp where
  vt : Bool
  z : Nat
  cls : AClass
  strong : Bool
  scope : Option Nat
deriving DecidableEq, Repr

/-- What the access does to its pages. -/
def MemOp.use (op : MemOp) : Use := if op.cls = .load then .load else .store

/-- Translations of the pages an instruction touches, by virtual page number. -/
abbrev Pages := List (Nat × Xl)

/-- A list without its repeats. -/
def distinct (l : List Nat) : List Nat := l.foldl (fun acc x => if acc.contains x then acc else acc ++ [x]) []

/-- The pages that a request touches. -/
def reqPages (z : Nat) (r : Req) : List Nat := distinct [r.va / 4096, (r.va + z - 1) / 4096]

/-- Translates every page of the requests (R231). -/
def pagesOf (s : State) (a : Acc) (op : MemOp) (reqs : List Req) : Pages :=
  if op.vt then []
  else
    (distinct ((reqs.filter fun r => decide (r.va < 2 ^ 57)).flatMap (reqPages op.z))).map fun p =>
      (p, translate s a op.use (p * 4096))

/-- The translation of a page in the list. -/
def pageXl (ps : Pages) (vpn : Nat) : Xl :=
  match ps.find? fun e => e.1 == vpn with
  | some e => e.2
  | none => .bad [0x21]

/-- The causes of a page that a side-logged event does not take precisely (R100, R245). -/
def softCause (c : Nat) : Bool := c == 0x21 || c == 0x22

/-- The causes that a page raises. -/
def pageCauses (ps : Pages) (vpn : Nat) : List Nat :=
  match pageXl ps vpn with
  | .ok _ => []
  | .bad cs => cs

/-- The precise causes of one request (R230). -/
def reqCauses (op : MemOp) (ps : Pages) (r : Req) : List Nat :=
  (if op.strong && r.va % op.z ≠ 0 then [0x24] else []) ++
    (if op.vt then (if r.va % 2 ^ 32 / 2 ^ 29 ≠ 0 then [0x25] else [])
     else if 2 ^ 57 ≤ r.va then [0x21]
     else
       ((reqPages op.z r).flatMap (pageCauses ps)).filter fun c => c != 0x30 && !(op.cls = .side && softCause c))

/-- The causes of fate A of one request: a side-logged lane whose page is absent or not writable (R100). -/
def reqSoft (op : MemOp) (ps : Pages) (r : Req) : List Nat :=
  if op.vt || op.cls ≠ .side then [] else ((reqPages op.z r).flatMap (pageCauses ps)).filter softCause

/-- SCOPEPOL refuses a scope (R70). -/
def scopeRefused (s : State) (scope : Nat) : Bool :=
  (s.g.mode == .usr || s.g.mode == .sup) && decide (4 ≤ scope) &&
    !(vfReg s s.g.who.vf 0x104).getLsbD (scope - 4)

/-- 0xC1 where SCOPEPOL refuses the scope of an event (R70). -/
def scopeCauses (s : State) (scope : Option Nat) : List Nat :=
  match scope with
  | some n => if scopeRefused s n then [0xC1] else []
  | none => []

/-- The cause that R154 chooses among those of the requests and of the instruction, with its lanes and TADDR. -/
def chooseCause (all : Mask) (whole : List Nat) (per : List (Req × List Nat)) : Option (Nat × Mask × Nat) :=
  match firstCause (whole ++ per.flatMap (·.2)) with
  | none => none
  | some c =>
    if whole.contains c then some (c, all, match per with | e :: _ => e.1.va | [] => 0)
    else
      let bad := per.filter fun e => e.2.contains c
      some (c, maskOf fun l => bad.any fun e => e.1.lane == l, match bad with | e :: _ => e.1.va | [] => 0)

/-- A page is moving (R93). -/
def migBit (pte : Nat) : Bool := bit pte 12
/-- A page has duplicates (R93). -/
def dupBit (pte : Nat) : Bool := bit pte 13

/-- Some page of the requests meets a test on its entry. -/
def anyPage (ps : Pages) (p : Nat → Bool) : Bool :=
  ps.any fun e => match e.2 with | .ok g => p g.pte | .bad _ => false

/-- The collapses that an access begins: of every page with DUP = 1 that it would write (R105, R242). -/
def collapseAll (s : State) (ps : Pages) : State :=
  ps.foldl (fun s e =>
    match e.2 with
    | .ok g => collapseAt s g.pte
    | .bad _ => s) s

/-! ## Places of bytes -/

/-- Where byte i of a request is: at a key of memory, or held for the side log. -/
inductive Spot
  | key (k : Nat)
  | logged
deriving DecidableEq, Repr

/-- The page of byte i holds the byte back (R100). -/
def heldPage (op : MemOp) (x : Xl) : Bool :=
  match x with
  | .ok g => op.cls == .side && (migBit g.pte || dupBit g.pte)
  | .bad _ => true

/-- Where the bytes of a request are. -/
def spotsOf (s : State) (die : Nat) (op : MemOp) (ps : Pages) (r : Req) : List Spot :=
  if op.vt then (upto op.z).map fun i => .key (vaultKey die (r.va + i))
  else if r.va % 256 + op.z ≤ 256 then
    let x := pageXl ps (r.va / 4096)
    match x with
    | .ok g => if heldPage op x then List.replicate op.z .logged
        else let k := physKey s (g.pa + r.va % 4096); (upto op.z).map fun i => .key (k + i)
    | .bad _ => List.replicate op.z .logged
  else
    (upto op.z).map fun i =>
      let x := pageXl ps ((r.va + i) / 4096)
      match x with
      | .ok g => if heldPage op x then .logged else .key (physKey s (g.pa + (r.va + i) % 4096))
      | .bad _ => .logged

/-- The request bypasses the caches (R352): some page of it is uncached or a device's. -/
def directReq (op : MemOp) (ps : Pages) (r : Req) : Bool :=
  !op.vt && (reqPages op.z r).any fun p => match pageXl ps p with | .ok g => directPage g.pte | .bad _ => false

/-- The keys of a request none of whose bytes is held. -/
def keysOf (l : List Spot) : List Nat := l.filterMap fun x => match x with | .key k => some k | .logged => none

/-- A byte of the request, or an entry that its walk reads, is homed by a peer whose link is down (R151, R245), or the request is lost on its
link (R375). -/
def reqGone (s : State) (op : MemOp) (ps : Pages) (r : Req) : Bool :=
  !op.vt && (reqPages op.z r).any fun p =>
    match pageXl ps p with
    | .ok g =>
      let pa := g.pa + (if p = r.va / 4096 then r.va % 4096 else 0)
      peerGone s pa || linkLost s s.g.who.vf s.g.who.ident s.g.who.loc.die r.lane pa
    | .bad cs => decide (r.va < 2 ^ 57) && cs.contains 0x30

/-! ## The side log -/

/-- The number that tells cores apart: 256 per compute die, then the scalar cores. -/
def coreId (l : Loc) : Nat := if l.die = 2 then 512 + l.core else 256 * l.die + 8 * l.cluster + l.core

/-- Entries that a core's log holds: lanes of one instruction share the entry of a 16-byte unit (R243). -/
def logUsed (s : State) (core : Nat) : Nat :=
  (distinct ((s.ms.log.filter fun e => e.core == core).map fun e => e.grp * 2 ^ 64 + e.va / 16)).length

/-- The 16-byte units that requests touch (R243). -/
def unitsOf (z : Nat) (reqs : List Req) : Nat :=
  (distinct (reqs.flatMap fun r => [r.va / 16, (r.va + z - 1) / 16])).length

/-- The first entry of a core's log. -/
def headEntry (s : State) (core : Nat) : Option LogEntry := s.ms.log.find? fun e => e.core == core

/-- The access rights of an entry: those of the store that made it (R83). -/
def LogEntry.acc (e : LogEntry) : Acc := ⟨e.vf, e.ident, e.mode, if 512 ≤ e.core then 2 else e.core / 256⟩

/-- The head entry of the group's core waits for software to give it a translation (R101). -/
def logStuck (s : State) : Bool :=
  match headEntry s (coreId s.g.who.loc) with
  | none => false
  | some e => e.waits || match translate s e.acc .store e.va with | .ok _ => false | .bad _ => true

/-! ## Hotness and proposals -/

/-- The source die of a context for hotness counts (R96). -/
def srcDie (s : State) : Nat := s.g.who.loc.die

/-- The address of the page of a leaf, and its size's code: 0 4 KiB, 1 64 KiB, 2 2 MiB, 3 1 GiB. -/
def pageSize (level pte : Nat) : Nat × Nat :=
  if level = 3 then (30, 3) else if level = 4 then (21, 2) else if bit pte 63 then (16, 1) else (12, 0)

/-- The key of a hotness count (R96): page-table root, VF, source die, page at the translation's size. -/
def hotKey (root vf src va level pte : Nat) : Nat :=
  let (n, c) := pageSize level pte
  (((root * 16 + vf) * 4 + src) * 4 + c) * 2 ^ 58 + va >>> n

/-- The VF of a hotness count. -/
def hotVf (key : Nat) : Nat := key / 2 ^ 58 / 16 % 16

/-- The action of R99 on a page for a destination tier, 1 move or 2 duplicate: one that is not written, or has its affinity
elsewhere, is duplicated. -/
def actFor (pte tier : Nat) : Nat := if bit pte 1 && (bits pte 9 8 == 0 || bits pte 9 8 == tier) then 1 else 2

/-- The action of R99 for a proposal from a source die: action, tier, die. -/
def ladleAction (src pte : Nat) : Nat × Nat × Nat :=
  let tier := if src = 2 then 2 else 1
  (actFor pte tier, tier, src)

/-- VFCTL.MIG of a VF (R98, R351). -/
def migMode (s : State) (vf : Nat) : Nat := bits (vfReg s vf 0x103).toNat 2 1

/-- Adds 1 to a saturating count of the Ladle block of a VF (R359). -/
def ladleCount (s : State) (vf off : Nat) : State :=
  let at_ := bits (vfReg s vf 0x10C).toNat 55 12 * 4096 + off
  let n := physNat s at_ 4
  if n = 0xFFFFFFFF then s else physPut s at_ 4 (n + 1)

/-- The ring entry of a proposal (R360). -/
def ringEntry (p : Proposal) : Nat :=
  p.va + (if p.large then 1 else 0) + p.ident * 2 ^ 64 + p.src * 2 ^ 80 + p.act * 2 ^ 88 +
    (p.tier + 4 * (if p.die = 1 then 1 else 0)) * 2 ^ 96

/-- Writes a proposal to its VF's ring; true when the group takes 0x41 (R98, R360). -/
def ringPut (s : State) (p : Proposal) : State × Bool :=
  let base := bits (vfReg s p.vf 0x10C).toNat 55 12 * 4096
  let lg := physNat s (base + 8) 4 % 16
  let tail := physNat s (base + 12) 4
  let head := physNat s (base + 16) 4
  if lg < 4 || 12 < lg then (s, false)
  else if (tail + 2 ^ 32 - head) % 2 ^ 32 = 2 ^ lg then (ladleCount s p.vf 208, false)
  else
    let s := physPut s (physNat s base 8 + 32 * (tail % 2 ^ lg)) 32 (ringEntry p)
    let s := physPut s (base + 12) 4 ((tail + 1) % 2 ^ 32)
    ({ s with ld := { s.ld with proposals := s.ld.proposals ++ [{ p with ring := true }] } }, true)

/-- A proposal stands for a page of a page-table root (R97). -/
def Proposal.names (p : Proposal) (vf root va : Nat) : Bool := p.vf == vf && p.root == root && p.va == va

/-- Files a proposal for a page whose PIN is clear: action, tier and die, and whether they were asked for (R97, R98); true when the group takes
0x41. -/
def fileProposal (s : State) (a : Acc) (src va level pte : Nat) (what : Nat × Nat × Nat) (asked : Bool) : State × Bool :=
  let (n, c) := pageSize level pte
  let page := va >>> n <<< n
  let root := rootOf s a
  let pinned := match walk s a va with | .leaf _ _ x => bit x 11 | .stop _ => bit pte 11
  if 2 ≤ c || pinned || (s.ld.proposals.any fun p => p.names a.vf root page) then (s, false)
  else
    let p : Proposal := ⟨a.vf, root, page, c == 1, a.ident, src, what.1, what.2.1, what.2.2, asked, false⟩
    if migMode s a.vf = 1 then ({ s with ld := { s.ld with proposals := s.ld.proposals ++ [p] } }, false)
    else if migMode s a.vf = 2 then ringPut s p
    else (s, false)

/-- Adds one sector to a page's count and files a proposal when it passes the threshold (R96, R97). -/
def countSector (s : State) (a : Acc) (va : Nat) (g : Page) : State × Bool :=
  let k := hotKey (rootOf s a) a.vf a.die va g.level g.pte
  let old := storeGet 0 s.ld.hot k
  let n := min 0xFFFF (old + 1)
  let theta := bits (vfReg s a.vf 0x105).toNat 15 0
  let s := { s with ld := { s.ld with hot := storeSet 0 s.ld.hot k n } }
  if old ≤ theta && theta < n then fileProposal s a a.die va g.level g.pte (ladleAction a.die g.pte) false
  else (s, false)

/-- The die of who accesses holds a duplicate of the page (R104). -/
def dupHere (s : State) (a : Acc) (pte : Nat) : Bool :=
  s.ld.dups.any fun d => d.homes (bits pte 59 16) && d.copies.any fun c => c.1 == a.die

/-- The sectors of an access whose home is remote, each with its page; what is held for the side log is not accessed. -/
def remoteSectors (s : State) (a : Acc) (op : MemOp) (ps : Pages) (reqs : List Req) : List (Nat × Page) :=
  if op.vt then []
  else
    (distinct (reqs.flatMap fun r => [r.va / 64, (r.va + op.z - 1) / 64])).filterMap fun sec =>
      match pageXl ps (sec / 64) with
      | .bad _ => none
      | .ok g =>
        match placeOf s (g.pa + sec % 64 * 64) with
        | some p => if heldPage op (.ok g) || !remote a.die p then none else some (sec, g)
        | none => none

/-- Counts the sectors of an access that crosses a port: every sector of a strong access or RMW to a remote home, or of a page that
bypasses the caches; of a plain load the open choice of R398, and nothing where it reads a duplicate on its own die (R104). A plain write is counted when it is
written back (R244). -/
def countAccess (s : State) (a : Acc) (op : MemOp) (ps : Pages) (reqs : List Req) : State × Bool :=
  (remoteSectors s a op ps reqs).foldl (fun acc x =>
    if op.strong || directPage x.2.pte || (op.cls == .load && !dupHere acc.1 a x.2.pte && Config.plainCrosses s.free x.1) then
      let (s', t) := countSector acc.1 a (x.1 * 64) x.2
      (s', acc.2 || t)
    else acc) (s, false)

/-- Notes a sector that a plain write left to be written back (R244). -/
def leaveDirty (s : State) (d : DirtySector) : State :=
  let same (x : DirtySector) : Bool := x.sector == d.sector && x.uid == d.uid
  let dirty := if s.ms.dirty.any same then mapWhere same (fun x => { x with lanes := x.lanes ||| d.lanes }) s.ms.dirty
    else s.ms.dirty ++ [d]
  { s with ms := { s.ms with dirty := dirty } }

/-- The sectors that a plain store leaves dirty: none of a page that bypasses the caches. -/
def dirtied (s : State) (a : Acc) (op : MemOp) (cover : Req → Mask) (ps : Pages) (reqs : List Req) : State :=
  if op.strong then s
  else
    ((remoteSectors s a op ps reqs).filter fun x => !directPage x.2.pte).foldl (fun s x =>
      let touching := reqs.filter fun r => r.va / 64 == x.1 || (r.va + op.z - 1) / 64 == x.1
      leaveDirty s ⟨physKey s (x.2.pa + x.1 % 64 * 64), s.g.who.uid, a.vf, a.ident, a.mode, a.die, touching.foldl (fun m r => m ||| cover r) 0,
        x.1 * 64, x.2.pa, x.2.level, x.2.pte⟩) s

/-- 0x41 for a proposal that an earlier access of a context filed in trapping mode: it is taken before the next issue (R98, R244). No access is
counted so for a context that has another cause to take (`countLater`). -/
def notifyFiled (s : State) (vf ident : Nat) (m : Mask) : State :=
  updCtx s vf ident fun c => if c.pend.isSome then c else { c with pend := some ⟨0x41, 0, 0, m, 0⟩ }

/-- A form whose own accesses filed a proposal takes 0x41 with fate A (R98). -/
def withFiled (s : State) (r : Res) : Res :=
  match r with
  | .ok t =>
    match s.g.pend, t.g.pend with
    | none, some p => if p.cause = 0x41 then .after (setG t { t.g with pend := none }) ⟨0x41, .a, 0, active s, 0, 0⟩ else .ok t
    | _, _ => .ok t
  | r => r

/-- No plain write to the sector is still on its way. -/
def writtenBack (s : State) (d : DirtySector) : Bool :=
  !s.ms.hist.any fun w => w.arrived.isNone && w.strong.isNone && decide (d.sector ≤ w.key) && decide (w.key < d.sector + 64) &&
    match w.agent with | some x => x.vf == d.vf && x.uid == d.uid | none => false

/-- A context has a cause to take before its next issue. -/
def hasCause (s : State) (vf ident : Nat) : Bool := match ctxOf s vf ident with | some c => c.pend.isSome | none => false

/-- Counts a sector, or leaves the count until the context has taken the cause that it has to take, where a proposal would be filed and
make another (R98). -/
def countLater (s : State) (d : DirtySector) (m : Mask) : State :=
  let a : Acc := ⟨d.vf, d.ident, d.mode, d.die⟩
  let r := countSector s a d.va ⟨d.pa, d.level, d.pte, 0⟩
  if !r.2 then r.1
  else if hasCause s d.vf d.ident then { s with ms := { s.ms with dirty := s.ms.dirty ++ [d] } }
  else notifyFiled r.1 d.vf d.ident m

/-- Counts a sector once it has been written back across a port (R96, R244), while its context has no other cause to take. -/
def countWritten (s : State) (d : DirtySector) : State :=
  if hasCause s d.vf d.ident || !writtenBack s d then s
  else
    let r := countSector { s with ms := { s.ms with dirty := s.ms.dirty.erase d } } ⟨d.vf, d.ident, d.mode, d.die⟩ d.va
      ⟨d.pa, d.level, d.pte, 0⟩
    if r.2 then notifyFiled r.1 d.vf d.ident d.lanes else r.1

/-- Counts the sectors that have been written back (R244). -/
def countArrived (s : State) : State := s.ms.dirty.foldl countWritten s

/-! ## Before the events -/

/-- DBGCTL.MSZ of a VF (R174). -/
def mszOf (s : State) (vf : Nat) : Bool := (vfReg s vf 0x030).getLsbD 1

/-- DBGCTL.MSZ of the group's VF. -/
def mszOn (s : State) : Bool := mszOf s s.g.who.vf

/-- The debug check of R77 on the keys of a strong access for a VF. -/
def mixedFor (s : State) (vf : Nat) (keys : List Nat) : Bool :=
  mszOf s vf &&
    s.ms.strongs.any fun x =>
      decide (now s ≤ x.time + lambda) && (x.first != keys.headD 0 || x.size != keys.length) &&
        keys.any fun k => decide (x.first ≤ k) && decide (k < x.first + x.size)

/-- The debug check of R77 on the keys of a strong access of the acting group. -/
def mixedSize (s : State) (keys : List Nat) : Bool := mixedFor s s.g.who.vf keys

/-- What a home remembers of a strong access (R77). -/
def noteStrong (s : State) (keys : List Nat) : State :=
  let x : LastStrong := ⟨keys.headD 0 / 64, keys.headD 0, keys.length, now s⟩
  { s with ms := { s.ms with strongs := (s.ms.strongs.filter fun y => y.sector != x.sector) ++ [x] } }

/-- Marks the entries that the translations used (R352). -/
def noteWalks (s : State) (a : Acc) (op : MemOp) (ps : Pages) : State :=
  ps.foldl (fun s e =>
    match e.2 with
    | .ok g => if heldPage op e.2 then s else noteWalk s a op.use (e.1 * 4096) g
    | .bad _ => s) s

/-- An entry of the side log that a strong access of some lanes follows (R78 items 3 and 4): a strong one, or one with bytes of its
own. -/
def followsEntry (s : State) (op : MemOp) (m : Mask) (r : Req) (e : LogEntry) : Bool :=
  ownEntry s m e && (e.kind != .plain || (!op.vt && (upto op.z).any fun i => e.holds (r.va + i)))

/-- What goes before a strong access (R78, R79, R151): the trap of an older access of its lanes that completes with 0x30, and the
replay of entries that it follows. Where the homes check sizes before the group goes on (R77), a write whose bytes a moving or duplicated page
would hold back waits for that to end (DEDUCED, notes/assumptions/99.md). The strong load of a handler whose group's log waits for software
does not wait for it (DEDUCED, notes/assumptions/21.md). -/
def orderStop (s : State) (a : Acc) (op : MemOp) (cover : Req → Mask) (reqs : List Req) (ps : Pages) : Option Res :=
  if !op.strong then none
  else
    match goneStop s (reqs.foldl (fun m r => m ||| cover r) 0) with
    | some t => some (.stop t)
    | none =>
      let direct := reqs.filter fun r => !(spotsOf s a.die op ps r).contains .logged
      let held := direct.any fun r => (ownLog s).any (followsEntry s op (cover r) r)
      if held && !(op.cls == .load && hmode s.g && logStuck s) then some (.wait .held s)
      else if mszOn s && op.cls == .side && anyPage ps fun p => migBit p || dupBit p then some (.wait .held (collapseAll s ps))
      else none

/-- The checks that an access passes before any event (R230, R231, R234, R242, R243): the translations if it may go
on, else what the instruction does. `cover` gives the lanes that a request's event covers (R71). -/
def checkAccess (s : State) (a : Acc) (op : MemOp) (cover : Req → Mask) (reqs : List Req) : Except Res Pages :=
  let ps := pagesOf s a op reqs
  match chooseCause (active s) (scopeCauses s op.scope) (reqs.map fun r => (r, reqCauses op ps r)) with
  | some (c, m, va) => .error (.trap ⟨c, .p, 0, m, BitVec.ofNat 64 va, 0⟩)
  | none =>
    if op.cls = .rmw && anyPage ps fun p => migBit p || dupBit p then .error (.wait .held (collapseAll s ps))
    else
      match orderStop s a op cover reqs ps with
      | some r => .error r
      | none =>
        if op.cls = .side && !op.vt && decide (64 < logUsed s (coreId s.g.who.loc) + unitsOf op.z reqs) then
          .error (.wait .held s)
        else
          let clash := if op.strong then reqs.filter fun r => mixedSize s (keysOf (spotsOf s a.die op ps r)) else []
          match clash with
          | r :: t =>
            .error (.trap ⟨0x31, .p, 0, maskOf fun l => (r :: t).any fun e => e.lane == l, BitVec.ofNat 64 r.va, 0⟩)
          | [] => .ok ps

/-- An empty port of a memory form. Of a drained one, R154 chooses among 0x07, the scope's cause and those that its access raises so far as
its address can be read (`reqs`). -/
def accessPortStop (s : State) (op : MemOp) (cover : Req → Mask) (reqs : Option (List Req)) (e : PortStop) : Res :=
  match e, reqs.map (checkAccess s (accOf s.g) op cover) with
  | .drained, some (.error (.trap r)) => if causeRank r.cause < causeRank 0x07 then .trap r else portStop s e
  | _, _ => portStopWith s (scopeCauses s op.scope) e

/-! ## Parties -/

/-- The issuing agent as a party to an event of some lanes; a slice's events follow its own order (R34). -/
def partyFor (s : State) (m : Mask) : Party :=
  match s.onAp, s.g.ap with
  | true, some a => ⟨agentOf s.g, 0xFFFFFFFF, ⟨a.ids.map fun i => (i, 0xFFFFFFFF), [], []⟩⟩
  | _, _ => ⟨agentOf s.g, m, s.g.ord⟩

/-- The issuing agent's lanes have these events before them. -/
def learnFor (s : State) (ids : List Nat) (m : Mask) : State :=
  match s.onAp, s.g.ap with
  | true, some a =>
    { s with g := { s.g with ap := some { a with ids := a.ids ++ ids.filter fun i => !a.ids.contains i } } }
  | _, _ => { s with g := { s.g with ord := learn s.g.ord ids m } }

/-- The mask of one lane. -/
def laneMask (l : Nat) : Mask := 1#32 <<< l

/-- What an acquire or a strong load gains from what it read: acquired at once, and kept for a later acquire fence (R72). -/
def noteRead (s : State) (acquire : Bool) (scope : Nat) (rels : List Rel) (m : Mask) : State :=
  let s := if acquire then learnFor s (acquired rels scope (agentOf s.g)) m else s
  if rels.isEmpty then s
  else
    match s.onAp, s.g.ap with
    | true, some a => { s with g := { s.g with ap := some { a with seen := a.seen ++ [⟨rels, m⟩] } } }
    | _, _ => { s with g := { s.g with ord := { s.g.ord with seen := s.g.ord.seen ++ [⟨rels, m⟩] } } }

/-- What goes before a release: the trap of an older access that completes with 0x30 (R78, R151), and the group's side-log entries, of
which one declared unresolvable stops it (R81); `free` says that it need not wait for those that are pending. -/
def releaseAfter (s : State) (free : Bool) : Option Res :=
  match goneStop s (active s) with
  | some t => some (.stop t)
  | none =>
    if s.g.unres then some (.trap ⟨0x26, .f, 3, active s, 0, 0⟩)
    else if free || (ownLog s).isEmpty then none else some (.wait .held s)

/-- What goes before a release that waits for every entry of the group. -/
def releaseStop (s : State) : Option Res := releaseAfter s false

/-! ## Events -/

/-- The value of a load of one request past the caches: what its bytes hold at the home, or in a pending entry (R81, R352). -/
def loadDirect (s : State) (p : Party) (r : Req) (spots : List Spot) : Nat :=
  natOfBytes ((spots.zip (upto spots.length)).map fun x =>
    match x.1 with
    | .key k => (forwarded s p.lanes (r.va + x.2) k).getD (metByte s p.ord p.lanes k)
    | .logged => 0)

/-- The value of a plain load of one request (R74, R81). -/
def loadPlain (s : State) (p : Party) (r : Req) (vt : Bool) (spots : List Spot) : Nat :=
  natOfBytes ((spots.zip (upto spots.length)).map fun x =>
    match x.1 with
    | .key k => (if vt then none else forwarded s p.lanes (r.va + x.2) k).getD (plainByte s p.ord p.lanes p.ag r.lane k)
    | .logged => 0)

/-- The value of a strong load of one request (R78). Only a handler's can still meet a pending entry of its own bytes (R149). -/
def loadStrong (s : State) (p : Party) (r : Req) (vt : Bool) (keys : List Nat) : Nat :=
  natOfBytes ((keys.zip (upto keys.length)).map fun x =>
    (if vt then none else forwarded s p.lanes (r.va + x.2) x.1).getD
      (strongByte s p.ord p.lanes p.ag (keys.headD 0) keys.length x.1))

/-- The bytes of a request that are performed, with their keys. -/
def performedBytes (spots : List Spot) (bytes : List Byte) : List (Nat × Byte) :=
  (spots.zip bytes).filterMap fun x => match x.1 with | .key k => some (k, x.2) | .logged => none

/-- The side-log entries of a request of the instruction `grp`: one for each 16-byte unit with a held byte (R100, R243). -/
def logEntries (s : State) (grp ev scope : Nat) (kind : LogKind) (m : Mask) (ps : Pages) (r : Req) (spots : List Spot)
    (bytes : List Byte) : List LogEntry :=
  let held := ((spots.zip bytes).zip (upto spots.length)).filter fun x => x.1.1 == .logged
  (distinct (held.map fun x => (r.va + x.2) / 16)).map fun u =>
    let mine := held.filter fun x => (r.va + x.2) / 16 == u
    ⟨coreId s.g.who.loc, s.g.who.vf, s.g.who.ident, u * 16,
      (upto 16).map fun i => match mine.find? fun x => r.va + x.2 == u * 16 + i with | some x => x.1.2 | none => 0,
      mine.foldl (fun b x => b + 2 ^ ((r.va + x.2) % 16)) 0, kind, scope, grp, quietLanes s m, ev, knownIds s.g.ord m,
      if kind == .strong then relsOf s.g.ord m false scope (agentOf s.g) ev else [], s.g.mode,
      match pageXl ps (u / 256) with | .ok _ => false | .bad _ => true⟩

/-- The writes that a request has just made follow the pending entries of the same bytes that are before them (R81). -/
def afterLog (s : State) (m : Mask) (ev : Nat) (r : Req) (spots : List Spot) : State :=
  followLog s m ev r.va ((upto spots.length).zip spots |>.filterMap fun x => match x.2 with | .key k => some (x.1, k) | .logged => none)

/-- Appends entries to the side log. -/
def logAll (s : State) (es : List LogEntry) : State := { s with ms := { s.ms with log := s.ms.log ++ es } }

/-- A side-logged write begins the collapse of its page (R105). -/
def logCollapse (s : State) (op : MemOp) (ps : Pages) : State := if op.cls = .side then collapseAll s ps else s

/-- How an access ends: its window opened, the causes of fate A, then a filed proposal (R98, R100). -/
def finishAccess (s : State) (ps : Pages) (op : MemOp) (reqs : List Req) (filed : Bool) : Res :=
  match chooseCause 0 [] (reqs.map fun r => (r, reqSoft op ps r)) with
  | some (c, m, va) => .after s ⟨c, .a, 0, m, BitVec.ofNat 64 va, 0⟩
  | none => if filed then .after s ⟨0x41, .a, 0, active s, 0, 0⟩ else .ok s

/-- The requests whose target is a peer that is gone (R151): their mask and the lowest one's address. -/
def goneOf (s : State) (op : MemOp) (ps : Pages) (reqs : List Req) : Mask × DWord :=
  let l := reqs.filter (reqGone s op ps)
  (maskOf fun i => l.any fun r => r.lane == i, match l with | r :: _ => BitVec.ofNat 64 r.va | [] => 0)

/-- What each lane of a load of global memory reads, by its first byte's key and its address; nothing where a byte is held for the side log
or in a vault. -/
def loadSrcs (s : State) (a : Acc) (op : MemOp) (reqs : List Req) (ps : Pages) : List (Nat × Nat × Nat) :=
  if op.vt then []
  else reqs.filterMap fun r => match spotsOf s a.die op ps r with | .key k :: _ => some (r.lane, k, r.va) | _ => none

/-- A strong access of some lanes is performed at the home of these keys, after the strong writes that are before it (R78). -/
def performAt (s : State) (m : Mask) (keys : List Nat) : State :=
  let p := partyFor s m
  meet (completeStrong s p.ord p.lanes) p.ord p.lanes keys

/-- A strong load of some lanes without a role of acquire is performed at the home of these keys (R78, R90). -/
def readAt (s : State) (m : Mask) (keys : List Nat) : State :=
  let p := partyFor s m
  meet (completeFor s p.ord p.lanes keys) p.ord p.lanes keys

/-- The value that the acting group's RMW meets at an object, undefined where R77 says so (R79). -/
def metNat (s : State) (keys : List Nat) : Nat :=
  let p := partyFor s (active s)
  natOfBytes (keys.map (strongByte s p.ord p.lanes p.ag (keys.headD 0) keys.length))

/-- The value that a step of the acting group meets at a device's object, whatever the sizes with which it was written (R57, R85). -/
def stepNat (s : State) (keys : List Nat) : Nat :=
  let p := partyFor s (active s)
  natOfBytes (keys.map (metByte s p.ord p.lanes))

/-- What the write that a strong access of some lanes meets at a key releases (R72). -/
def relsAt (s : State) (m : Mask) (key : Nat) : List Rel :=
  let p := partyFor s m
  metRels s p.ord p.lanes key

/-- A plain or strong load by requests: the values of the lanes that return, and the state after. `cover` gives the
lanes that a request's event covers (R71). -/
def doLoads (s : State) (a : Acc) (op : MemOp) (acquire : Bool) (cover : Req → Mask) (reqs : List Req) (ps : Pages) :
    List (Nat × Nat) × Mask × DWord × State × Bool :=
  let (gone, addr) := goneOf s op ps reqs
  let live := reqs.filter fun r => !lane gone r.lane
  let s0 := noteWalks s a op ps
  let vals := live.map fun r =>
    let spots := spotsOf s a.die op ps r
    (r.lane, if op.strong then loadStrong s (partyFor s (cover r)) r op.vt (keysOf spots)
      else if directReq op ps r then loadDirect s (partyFor s (cover r)) r spots
      else loadPlain s (partyFor s (cover r)) r op.vt spots)
  let s1 := if op.strong then
      live.foldl (fun t r =>
        let keys := keysOf (spotsOf s a.die op ps r)
        let t := if acquire then performAt t (cover r) keys else readAt t (cover r) keys
        noteRead (noteStrong t keys) acquire (op.scope.getD 0) (keys.flatMap (relsAt s (cover r))) (cover r)) s0
    else (live.filter (directReq op ps)).foldl (fun t r => performAt t (cover r) (keysOf (spotsOf s a.die op ps r))) s0
  let (s2, filed) := countAccess s1 a op ps live
  (vals, gone, addr, s2, filed)

/-- A place of a block-table entry in which a store of the group leaves what the device maintains undefined (R128): one of the VF's
table in use whose REF is not 1 or whose PIN is not 0. -/
def entrySpoiled (s : State) (a : Acc) (va : Nat) : Bool :=
  match translate s a .load va with
  | .ok g => let x := physNat s (g.pa + va % 4096) 16; bits x 63 48 != 1 || bits x 71 64 != 0
  | .bad _ => false

/-- The addresses of the block-table entries that bytes of a store touch (R127, R128). -/
def entriesHit (s : State) (a : Acc) (va n : Nat) : List Nat :=
  let k := (vfReg s a.vf 0x050).toNat
  if !bit k 63 then []
  else
    let root := bits k 56 6 * 64
    match translate s a .load root with
    | .bad _ => []
    | .ok g =>
      let x := physNat s (g.pa + root % 4096) 16
      let tbl := bits x 56 0
      (distinct [va / 16 * 16, (va + n - 1) / 16 * 16]).filter fun e => decide (tbl ≤ e) && decide (e < tbl + 16 * 2 ^ bits x 68 64)

/-- After a store of n bytes, the fields that the device maintains in entries which `before` finds spoiled are undefined (R128). -/
def spoilEntries (before s : State) (a : Acc) (va n : Nat) : State :=
  ((entriesHit before a va n).filter (entrySpoiled before a)).foldl (fun s e =>
    match translate s a .load e with
    | .ok g => { s with ms := { s.ms with undef := s.ms.undef ++ (physKeys s (g.pa + (e + 6) % 4096) 10).filter fun k => !s.ms.undef.contains k } }
    | .bad _ => s) s

/-- One store of a request, with its events (R232, R233): what of it is not held is written, at once to the home (a strong one if `now_`, a
plain one past the caches, R352) or on its way there, and the rest is held. -/
def storeOne (s : State) (a : Acc) (op : MemOp) (release now_ : Bool) (grp : Nat) (m : Mask) (ps : Pages) (r : Req)
    (bytes : List Byte) : List Nat × State :=
  let (ev, t) := takeFresh s
  let (held, t) := takeFresh t
  let p := partyFor s m
  let scope := op.scope.getD 7
  let spots := spotsOf s a.die op ps r
  let put := performedBytes spots bytes
  let keys := put.map (·.1)
  let vals := put.map (·.2)
  let t := if op.strong then
      let rels := relsOf p.ord p.lanes release scope p.ag ev
      let t := completeStrong (landed t m) p.ord p.lanes
      noteStrong (if now_ then strongPut t p ev scope rels keys vals
        else sentFrom (strongSend t p ev scope rels keys vals) ev ⟨grp, curPc s, s.g.iss, active s, r.lane, r.va⟩) keys
    else
      let quiet := quietLanes s m
      let t := if directReq op ps r && quiet = 0 then arrivedPut t p ev keys vals else plainPut t p ev keys vals
      quieten (afterLog t m ev r spots) ev quiet
  ([ev, held], logAll t (logEntries s grp held scope (if op.strong then .strong else .plain) m ps r spots bytes))

/-- Stores by requests in ascending lane order; `release` for a release (R100, R232, R233). The events of different lanes are not
ordered with one another (R71). Strong writes arrive at once where they are releases, where several lanes write the same bytes, and
where the homes check sizes before the group goes on (R234). -/
def doStores (s : State) (a : Acc) (op : MemOp) (release : Bool) (cover : Req → Mask) (reqs : List Req)
    (data : Nat → Nat) (ps : Pages) : Mask × DWord × State × Bool :=
  let (gone, addr) := goneOf s op ps reqs
  let live := reqs.filter fun r => !lane gone r.lane
  let (grp, s0) := takeFresh (logCollapse (noteWalks s a op ps) op ps)
  let now_ := release || mszOn s || (distinct (live.map (·.va))).length != live.length
  let (s1, evs) := live.foldl (fun (acc : State × List (List Nat × Mask)) r =>
      let (evs, t) := storeOne acc.1 a op release now_ grp (cover r) ps r (bytesOfNat op.z (data r.lane))
      (t, acc.2 ++ [(evs, cover r)])) (s0, [])
  let s2 := evs.foldl (fun t e => learnFor t e.1 e.2) s1
  let s2 := if op.vt then s2
    else (live.filter fun r => !(spotsOf s a.die op ps r).contains .logged).foldl (fun t r => spoilEntries s t a r.va op.z) s2
  let s3 := if release then arriveAll s2 s2.g.ord (active s2) else s2
  let (s4, filed) := countAccess (dirtied s3 a op cover ps live) a op ps live
  (gone, addr, s4, filed)

/-- One RMW at the home (R79): the old value goes to `f`; `acquire` and `release` are its roles. -/
def rmwOne (s : State) (a : Acc) (op : MemOp) (acquire release : Bool) (m : Mask) (r : Req) (ps : Pages)
    (f : Nat → Nat) : Nat × State :=
  let scope := op.scope.getD 7
  let p := partyFor s m
  let keys := keysOf (spotsOf s a.die op ps r)
  let old := loadStrong s p r op.vt keys
  let chain := relsAt s m (keys.headD 0)
  let (ev, t) := takeFresh (performAt (landed s m) m keys)
  let t := noteRead t acquire scope chain m
  let p := { p with ord := (partyFor t m).ord }
  let t := strongPut t p ev scope (chain ++ relsOf p.ord p.lanes release scope p.ag ev) keys (bytesOfNat op.z (f old))
  (old, learnFor (noteStrong t keys) [ev] m)

/-- RMWs by requests in ascending lane order (R235, R238): the old values of the lanes that return. -/
def doRmws (s : State) (a : Acc) (op : MemOp) (acquire release : Bool) (cover : Req → Mask) (reqs : List Req)
    (f : Nat → Nat → Nat) (ps : Pages) : List (Nat × Nat) × Mask × DWord × State × Bool :=
  let (gone, addr) := goneOf s op ps reqs
  let live := reqs.filter fun r => !lane gone r.lane
  let s0 := noteWalks s a op ps
  let (vals, s1) := live.foldl (fun (acc : List (Nat × Nat) × State) r =>
      let (old, t) := rmwOne acc.2 a op acquire release (cover r) r ps (f r.lane)
      (acc.1 ++ [(r.lane, old)], t)) ([], s0)
  let s2 := if release then arriveAll s1 s1.g.ord (active s1) else s1
  let (s3, filed) := countAccess s2 a op ps live
  (vals, gone, addr, s3, filed)

/-- The reduction codes of vred.m in the side log (R236): 0 add.n32, 1 add.n64, 2 add.f32, 3 min.s32, 4 max.s32. -/
def reduceSize (op : Nat) : Nat := if op = 1 then 8 else 4

/-- The new value of a reduction at memory (R236, R237). -/
def reduceValue (op old d : Nat) : Nat :=
  match op with
  | 0 => (old + d) % 2 ^ 32
  | 1 => (old + d) % 2 ^ 64
  | 2 => (fAdd f32 old d).1
  | 3 => (minS (BitVec.ofNat 32 old) (BitVec.ofNat 32 d)).toNat
  | _ => (maxS (BitVec.ofNat 32 old) (BitVec.ofNat 32 d)).toNat

/-- Reductions without return by requests (R236): performed at the home, or held in the side log (R100). -/
def doReduces (s : State) (a : Acc) (op : MemOp) (code : Nat) (cover : Req → Mask) (reqs : List Req)
    (data : Nat → Nat) (ps : Pages) : Mask × DWord × State × Bool :=
  let (gone, addr) := goneOf s op ps reqs
  let live := reqs.filter fun r => !lane gone r.lane
  let (grp, s0) := takeFresh (logCollapse (noteWalks s a op ps) op ps)
  let s1 := live.foldl (fun t r =>
      let spots := spotsOf s a.die op ps r
      if (keysOf spots).length = op.z then
        (rmwOne t a op false false (cover r) r ps fun old => reduceValue code old (data r.lane)).2
      else
        let (ev, t) := takeFresh t
        learnFor (logAll t (logEntries s grp ev (op.scope.getD 7) (.reduce code) (cover r) ps r spots
          (bytesOfNat op.z (data r.lane)))) [ev] (cover r)) s0
  let (s2, filed) := countAccess s1 a op ps live
  (gone, addr, s2, filed)

end Sys2Proof.Machine
end

