-- ==== Sys2Proof/Machine/LaneMem.lean ====
section
/-! DEFINITION. Lane memory forms (12; R226 to R246): plain and strong loads and stores, prefetch, exchange,
compare-and-swap, atomics and reductions at memory. -/

namespace Sys2Proof.Machine

/-! ## Shared forms -/

/-- The address of a lane (R171, R230). -/
def laneVa (s : State) (o : Opnd) (vt : Bool) (z : Nat) (off : BitVec 5) (l : Nat) : Nat :=
  let step : Int := match o with | .k _ => (l : Int) + off.toInt | .v _ _ => off.toInt
  let base : Nat := if vt then (o.word s 0 l).toNat else (o.pair s 0 l).toNat
  (((base : Int) + step * z) % (if vt then 2 ^ 32 else 2 ^ 64)).toNat

/-- The registers that a value of z bytes takes. -/
def sizeRegs (z : Nat) : Nat := if z = 16 then 4 else if z = 8 then 2 else 1

/-- The value of an operand of z bytes in a lane, from register i on. -/
def opndNat (s : State) (o : Opnd) (i z l : Nat) : Nat :=
  (foldFrom (fun (acc : Nat) j => acc + (o.word s (i + j) l).toNat * 2 ^ (32 * j)) (sizeRegs z) 0 0) % 2 ^ (8 * z)

/-- The words of a value. -/
def wordsOf (z v : Nat) : List Word := (upto (sizeRegs z)).map fun i => BitVec.ofNat 32 (v / 2 ^ (32 * i))

/-- The requests of the acting lanes, the active ones (R229). -/
def laneReqs (s : State) (o : Opnd) (vt : Bool) (z : Nat) (off : BitVec 5) : List Req :=
  (lanesOf (active s)).map fun l => ⟨l, laneVa s o vt z off l⟩

/-- The event of a lane covers that lane (R71). -/
def ownLane (r : Req) : Mask := laneMask r.lane

/-- Writes what returned to consecutive registers. -/
def putReturned (s : State) (d : Nat) (vals : List (Nat × List Word)) : State :=
  vals.foldl (fun s v => ((upto v.2.length).zip v.2).foldl (fun s x => putV s (d + x.1) v.1 x.2) s) s

/-- The keys of some lanes of consecutive v registers. -/
def laneKeys (d w : Nat) (m : Mask) : List Nat :=
  (upto w).flatMap fun i => (lanesOf m).map fun l => vKey (d + i) l

/-- 0x03 for a base that is not a pair in global space (R228). -/
def baseBad (a : RegCode) (vt : Bool) : List Nat := if vt then [] else alignBad a 2

/-- The agents that have a space: no access processor, and for vault space no scalar context (R246). -/
def spaceBad (s : State) (vt : Bool) : List Nat := noAp s ++ if vt then noScalar s else []

/-- The requests of a form whose address operand alone can be read. -/
def reqsAlone (s : State) (a : RegCode) (w : Nat) (reqs : Opnd → List Req) : Option (List Req) :=
  match takeAll [(1, a, w)] s with
  | .error _ => none
  | .ok (os, _) => some (reqs (os.getD 0 (.k [])))

/-- A load (R232, R233): `conv` makes the destination's words of the bytes. -/
def laneLoad (nas : Nas) (d a : RegCode) (la : BitVec 4) (off : BitVec 5) (op : MemOp) (acquire : Bool)
    (conv : Nat → List Word) (s : State) : Host.Outcome State Fault Refusal :=
  let wa := if op.vt then 1 else 2
  let w := sizeRegs op.z
  issue s nas ⟨spaceBad s op.vt ++ vBad d w ++ baseBad a op.vt, codes a wa, codes d w⟩ fun s =>
    match takeAll [(1, a, wa)] s with
    | .error e => accessPortStop s op ownLane none e
    | .ok (os, s') =>
      let reqs := laneReqs s (os.getD 0 (.k [])) op.vt op.z off
      match checkAccess s (accOf s.g) op ownLane reqs with
      | .error r => r
      | .ok ps =>
        let (vals, gone, addr, t, filed) := doLoads s' (accOf s.g) op acquire ownLane reqs ps
        let t := putReturned t d.toNat (vals.map fun v => (v.1, conv v.2))
        let srcs := loadSrcs s (accOf s.g) op reqs ps
        finishAccess (openLoad s t la.toNat (codes d w) (laneKeys d.toNat w (active s)) gone addr srcs) ps op reqs filed

/-- A store (R232, R233). -/
def laneStore (nas : Nas) (d a : RegCode) (la : BitVec 4) (off : BitVec 5) (op : MemOp) (release : Bool) (s : State) :
    Host.Outcome State Fault Refusal :=
  let wa := if op.vt then 1 else 2
  let w := sizeRegs op.z
  issue s nas ⟨spaceBad s op.vt ++ alignBad d w ++ baseBad a op.vt, codes d w ++ codes a wa, []⟩ fun s =>
    match takeAll [(0, d, w), (1, a, wa)] s with
    | .error e => accessPortStop s op ownLane (reqsAlone s a wa fun o => laneReqs s o op.vt op.z off) e
    | .ok (os, s') =>
      let reqs := laneReqs s (os.getD 1 (.k [])) op.vt op.z off
      match checkAccess s (accOf s.g) op ownLane reqs with
      | .error r => r
      | .ok ps =>
        match if release then releaseStop s else none with
        | some r => r
        | none =>
          let data := fun l => opndNat s (os.getD 0 (.k [])) 0 op.z l
          let (gone, addr, t, filed) := doStores s' (accOf s.g) op release ownLane reqs data ps
          finishAccess (openWindow s t la.toNat [] [] gone addr) ps op reqs filed

/-- An RMW with return (R235): `f` gives the new value from the old one and the operand's words from register i on;
`w` registers are read and `wr` written. -/
def laneRmw (x : FmtA) (z w wr : Nat) (f : Nat → (Nat → Nat) → Nat) (s : State) : Host.Outcome State Fault Refusal :=
  let op : MemOp := ⟨false, z, .rmw, true, some x.scope.toNat⟩
  issue s x.nas ⟨noAp s ++ vBad x.d w ++ alignBad x.a 2, codes x.d w ++ codes x.a 2, codes x.d wr⟩ fun s =>
    match takeAll [(0, x.d, w), (1, x.a, 2)] s with
    | .error e => accessPortStop s op ownLane (reqsAlone s x.a 2 fun o => laneReqs s o false z 0) e
    | .ok (os, s') =>
      let reqs := laneReqs s (os.getD 1 (.k [])) false z 0
      match checkAccess s (accOf s.g) op ownLane reqs with
      | .error r => r
      | .ok ps =>
        let release := x.ord.getLsbD 1
        match if release then releaseStop s else none with
        | some r => r
        | none =>
          let new := fun l old => f old (fun i => opndNat s (os.getD 0 (.k [])) i z l)
          let (vals, gone, addr, t, filed) :=
            doRmws s' (accOf s.g) op (x.ord.getLsbD 0) release ownLane reqs new ps
          let t := putReturned t x.d.toNat (vals.map fun v => (v.1, wordsOf z v.2))
          finishAccess
            (openWindow s t x.la.toNat (codes x.d wr) (laneKeys x.d.toNat wr (active s)) gone addr) ps op reqs filed

/-- A reduction at memory without return (R236). -/
def laneReduce (x : FmtA) (code : Nat) (s : State) : Host.Outcome State Fault Refusal :=
  let z := reduceSize code
  let op : MemOp := ⟨false, z, .side, true, some x.scope.toNat⟩
  let w := sizeRegs z
  issue s x.nas ⟨noAp s ++ vBad x.d w ++ alignBad x.a 2, codes x.d w ++ codes x.a 2, []⟩ fun s =>
    match takeAll [(0, x.d, w), (1, x.a, 2)] s with
    | .error e => accessPortStop s op ownLane (reqsAlone s x.a 2 fun o => laneReqs s o false z 0) e
    | .ok (os, s') =>
      let reqs := laneReqs s (os.getD 1 (.k [])) false z 0
      match checkAccess s (accOf s.g) op ownLane reqs with
      | .error r => r
      | .ok ps =>
        let data := fun l => opndNat s (os.getD 0 (.k [])) 0 z l
        let (gone, addr, t, filed) := doReduces s' (accOf s.g) op code ownLane reqs data ps
        finishAccess (openWindow s t x.la.toNat [] [] gone addr) ps op reqs filed

/-! ## Results of loads (R232) -/

/-- A value of n bits, sign-extended into a register. -/
def sextTo32 (n v : Nat) : List Word := [BitVec.ofNat 32 (extendNum (.int n true) v)]

/-- A value of z bytes, zero-extended. -/
def plainWords (z v : Nat) : List Word := wordsOf z v

/-! ## Plain loads and stores (R232) -/

/-- VLD.GL.S8 (R232). -/
def execVldGlS8 (f : FmtM) (s : State) : Host.Outcome State Fault Refusal :=
  laneLoad f.nas f.d f.a f.la f.off ⟨false, 1, .load, false, none⟩ false (sextTo32 8) s
/-- VLD.GL.N8 (R232). -/
def execVldGlN8 (f : FmtM) (s : State) : Host.Outcome State Fault Refusal :=
  laneLoad f.nas f.d f.a f.la f.off ⟨false, 1, .load, false, none⟩ false (plainWords 1) s
/-- VLD.GL.S16 (R232). -/
def execVldGlS16 (f : FmtM) (s : State) : Host.Outcome State Fault Refusal :=
  laneLoad f.nas f.d f.a f.la f.off ⟨false, 2, .load, false, none⟩ false (sextTo32 16) s
/-- VLD.GL.N16 (R232). -/
def execVldGlN16 (f : FmtM) (s : State) : Host.Outcome State Fault Refusal :=
  laneLoad f.nas f.d f.a f.la f.off ⟨false, 2, .load, false, none⟩ false (plainWords 2) s
/-- VLD.GL.N32 (R232). -/
def execVldGlN32 (f : FmtM) (s : State) : Host.Outcome State Fault Refusal :=
  laneLoad f.nas f.d f.a f.la f.off ⟨false, 4, .load, false, none⟩ false (plainWords 4) s
/-- VLD.GL.N64 (R232). -/
def execVldGlN64 (f : FmtM) (s : State) : Host.Outcome State Fault Refusal :=
  laneLoad f.nas f.d f.a f.la f.off ⟨false, 8, .load, false, none⟩ false (plainWords 8) s
/-- VLD.GL.N128 (R232). -/
def execVldGlN128 (f : FmtM) (s : State) : Host.Outcome State Fault Refusal :=
  laneLoad f.nas f.d f.a f.la f.off ⟨false, 16, .load, false, none⟩ false (plainWords 16) s
/-- VLD.VT.N8 (R232). -/
def execVldVtN8 (f : FmtM) (s : State) : Host.Outcome State Fault Refusal :=
  laneLoad f.nas f.d f.a f.la f.off ⟨true, 1, .load, false, none⟩ false (plainWords 1) s
/-- VLD.VT.N16 (R232). -/
def execVldVtN16 (f : FmtM) (s : State) : Host.Outcome State Fault Refusal :=
  laneLoad f.nas f.d f.a f.la f.off ⟨true, 2, .load, false, none⟩ false (plainWords 2) s
/-- VLD.VT.N32 (R232). -/
def execVldVtN32 (f : FmtM) (s : State) : Host.Outcome State Fault Refusal :=
  laneLoad f.nas f.d f.a f.la f.off ⟨true, 4, .load, false, none⟩ false (plainWords 4) s
/-- VLD.VT.N64 (R232). -/
def execVldVtN64 (f : FmtM) (s : State) : Host.Outcome State Fault Refusal :=
  laneLoad f.nas f.d f.a f.la f.off ⟨true, 8, .load, false, none⟩ false (plainWords 8) s
/-- VLD.VT.N128 (R232). -/
def execVldVtN128 (f : FmtM) (s : State) : Host.Outcome State Fault Refusal :=
  laneLoad f.nas f.d f.a f.la f.off ⟨true, 16, .load, false, none⟩ false (plainWords 16) s
/-- VST.GL.N8 (R232). -/
def execVstGlN8 (f : FmtM) (s : State) : Host.Outcome State Fault Refusal :=
  laneStore f.nas f.d f.a f.la f.off ⟨false, 1, .side, false, none⟩ false s
/-- VST.GL.N16 (R232). -/
def execVstGlN16 (f : FmtM) (s : State) : Host.Outcome State Fault Refusal :=
  laneStore f.nas f.d f.a f.la f.off ⟨false, 2, .side, false, none⟩ false s
/-- VST.GL.N32 (R232). -/
def execVstGlN32 (f : FmtM) (s : State) : Host.Outcome State Fault Refusal :=
  laneStore f.nas f.d f.a f.la f.off ⟨false, 4, .side, false, none⟩ false s
/-- VST.GL.N64 (R232). -/
def execVstGlN64 (f : FmtM) (s : State) : Host.Outcome State Fault Refusal :=
  laneStore f.nas f.d f.a f.la f.off ⟨false, 8, .side, false, none⟩ false s
/-- VST.GL.N128 (R232). -/
def execVstGlN128 (f : FmtM) (s : State) : Host.Outcome State Fault Refusal :=
  laneStore f.nas f.d f.a f.la f.off ⟨false, 16, .side, false, none⟩ false s
/-- VST.VT.N8 (R232). -/
def execVstVtN8 (f : FmtM) (s : State) : Host.Outcome State Fault Refusal :=
  laneStore f.nas f.d f.a f.la f.off ⟨true, 1, .side, false, none⟩ false s
/-- VST.VT.N16 (R232). -/
def execVstVtN16 (f : FmtM) (s : State) : Host.Outcome State Fault Refusal :=
  laneStore f.nas f.d f.a f.la f.off ⟨true, 2, .side, false, none⟩ false s
/-- VST.VT.N32 (R232). -/
def execVstVtN32 (f : FmtM) (s : State) : Host.Outcome State Fault Refusal :=
  laneStore f.nas f.d f.a f.la f.off ⟨true, 4, .side, false, none⟩ false s
/-- VST.VT.N64 (R232). -/
def execVstVtN64 (f : FmtM) (s : State) : Host.Outcome State Fault Refusal :=
  laneStore f.nas f.d f.a f.la f.off ⟨true, 8, .side, false, none⟩ false s
/-- VST.VT.N128 (R232). -/
def execVstVtN128 (f : FmtM) (s : State) : Host.Outcome State Fault Refusal :=
  laneStore f.nas f.d f.a f.la f.off ⟨true, 16, .side, false, none⟩ false s

/-! ## Strong loads and stores (R233) -/

/-- VLDS.GL.N8 (R233): ord 1 is an acquire. -/
def execVldsGlN8 (f : FmtA) (s : State) : Host.Outcome State Fault Refusal :=
  laneLoad f.nas f.d f.a f.la 0 ⟨false, 1, .load, true, some f.scope.toNat⟩ (f.ord == 1) (plainWords 1) s
/-- VLDS.GL.N16 (R233): ord 1 is an acquire. -/
def execVldsGlN16 (f : FmtA) (s : State) : Host.Outcome State Fault Refusal :=
  laneLoad f.nas f.d f.a f.la 0 ⟨false, 2, .load, true, some f.scope.toNat⟩ (f.ord == 1) (plainWords 2) s
/-- VLDS.GL.N32 (R233): ord 1 is an acquire. -/
def execVldsGlN32 (f : FmtA) (s : State) : Host.Outcome State Fault Refusal :=
  laneLoad f.nas f.d f.a f.la 0 ⟨false, 4, .load, true, some f.scope.toNat⟩ (f.ord == 1) (plainWords 4) s
/-- VLDS.GL.N64 (R233): ord 1 is an acquire. -/
def execVldsGlN64 (f : FmtA) (s : State) : Host.Outcome State Fault Refusal :=
  laneLoad f.nas f.d f.a f.la 0 ⟨false, 8, .load, true, some f.scope.toNat⟩ (f.ord == 1) (plainWords 8) s
/-- VLDS.GL.N128 (R233): ord 1 is an acquire. -/
def execVldsGlN128 (f : FmtA) (s : State) : Host.Outcome State Fault Refusal :=
  laneLoad f.nas f.d f.a f.la 0 ⟨false, 16, .load, true, some f.scope.toNat⟩ (f.ord == 1) (plainWords 16) s
/-- VLDS.VT.N32 (R233): ord 1 is an acquire. -/
def execVldsVtN32 (f : FmtA) (s : State) : Host.Outcome State Fault Refusal :=
  laneLoad f.nas f.d f.a f.la 0 ⟨true, 4, .load, true, some f.scope.toNat⟩ (f.ord == 1) (plainWords 4) s
/-- VSTS.GL.N8 (R233): ord 2 is a release. -/
def execVstsGlN8 (f : FmtA) (s : State) : Host.Outcome State Fault Refusal :=
  laneStore f.nas f.d f.a f.la 0 ⟨false, 1, if f.ord = 2 then .rmw else .side, true, some f.scope.toNat⟩ (f.ord == 2) s
/-- VSTS.GL.N16 (R233): ord 2 is a release. -/
def execVstsGlN16 (f : FmtA) (s : State) : Host.Outcome State Fault Refusal :=
  laneStore f.nas f.d f.a f.la 0 ⟨false, 2, if f.ord = 2 then .rmw else .side, true, some f.scope.toNat⟩ (f.ord == 2) s
/-- VSTS.GL.N32 (R233): ord 2 is a release. -/
def execVstsGlN32 (f : FmtA) (s : State) : Host.Outcome State Fault Refusal :=
  laneStore f.nas f.d f.a f.la 0 ⟨false, 4, if f.ord = 2 then .rmw else .side, true, some f.scope.toNat⟩ (f.ord == 2) s
/-- VSTS.GL.N64 (R233): ord 2 is a release. -/
def execVstsGlN64 (f : FmtA) (s : State) : Host.Outcome State Fault Refusal :=
  laneStore f.nas f.d f.a f.la 0 ⟨false, 8, if f.ord = 2 then .rmw else .side, true, some f.scope.toNat⟩ (f.ord == 2) s
/-- VSTS.GL.N128 (R233): ord 2 is a release. -/
def execVstsGlN128 (f : FmtA) (s : State) : Host.Outcome State Fault Refusal :=
  laneStore f.nas f.d f.a f.la 0 ⟨false, 16, if f.ord = 2 then .rmw else .side, true, some f.scope.toNat⟩ (f.ord == 2) s
/-- VSTS.VT.N32 (R233): ord 2 is a release. -/
def execVstsVtN32 (f : FmtA) (s : State) : Host.Outcome State Fault Refusal :=
  laneStore f.nas f.d f.a f.la 0 ⟨true, 4, if f.ord = 2 then .rmw else .side, true, some f.scope.toNat⟩ (f.ord == 2) s

/-! ## Exchange, compare-and-swap and atomics (R235) -/

/-- The new value of an atomic operation on naturals of 32 bits. -/
def onWords (f : Word → Word → Word) (a b : Nat) : Nat := (f (BitVec.ofNat 32 a) (BitVec.ofNat 32 b)).toNat

/-- VXCHG.N32 (R235). -/
def execVxchgN32 (f : FmtA) (s : State) : Host.Outcome State Fault Refusal :=
  laneRmw f 4 1 1 (fun m d => let _ := m; d 0) s
/-- VXCHG.N64 (R235). -/
def execVxchgN64 (f : FmtA) (s : State) : Host.Outcome State Fault Refusal :=
  laneRmw f 8 2 2 (fun m d => let _ := m; d 0) s
/-- VCAS.N32 (R235). -/
def execVcasN32 (f : FmtA) (s : State) : Host.Outcome State Fault Refusal :=
  laneRmw f 4 2 1 (fun m d => if m = d 0 then d 1 else m) s
/-- VCAS.N64 (R235). -/
def execVcasN64 (f : FmtA) (s : State) : Host.Outcome State Fault Refusal :=
  laneRmw f 8 4 2 (fun m d => if m = d 0 then d 2 else m) s
/-- VATOM.ADD.N32 (R235). -/
def execVatomAddN32 (f : FmtA) (s : State) : Host.Outcome State Fault Refusal :=
  laneRmw f 4 1 1 (fun m d => (m + d 0) % 2 ^ 32) s
/-- VATOM.ADD.N64 (R235). -/
def execVatomAddN64 (f : FmtA) (s : State) : Host.Outcome State Fault Refusal :=
  laneRmw f 8 2 2 (fun m d => (m + d 0) % 2 ^ 64) s
/-- VATOM.ADD.F32 (R235). -/
def execVatomAddF32 (f : FmtA) (s : State) : Host.Outcome State Fault Refusal :=
  laneRmw f 4 1 1 (fun m d => (fAdd f32 m (d 0)).1) s
/-- VATOM.AND.N32 (R235). -/
def execVatomAndN32 (f : FmtA) (s : State) : Host.Outcome State Fault Refusal :=
  laneRmw f 4 1 1 (fun m d => onWords (· &&& ·) m (d 0)) s
/-- VATOM.OR.N32 (R235). -/
def execVatomOrN32 (f : FmtA) (s : State) : Host.Outcome State Fault Refusal :=
  laneRmw f 4 1 1 (fun m d => onWords (· ||| ·) m (d 0)) s
/-- VATOM.XOR.N32 (R235). -/
def execVatomXorN32 (f : FmtA) (s : State) : Host.Outcome State Fault Refusal :=
  laneRmw f 4 1 1 (fun m d => onWords (· ^^^ ·) m (d 0)) s
/-- VATOM.MIN.S32 (R235). -/
def execVatomMinS32 (f : FmtA) (s : State) : Host.Outcome State Fault Refusal :=
  laneRmw f 4 1 1 (fun m d => onWords minS m (d 0)) s
/-- VATOM.MIN.N32 (R235). -/
def execVatomMinN32 (f : FmtA) (s : State) : Host.Outcome State Fault Refusal :=
  laneRmw f 4 1 1 (fun m d => onWords minN m (d 0)) s
/-- VATOM.MAX.S32 (R235). -/
def execVatomMaxS32 (f : FmtA) (s : State) : Host.Outcome State Fault Refusal :=
  laneRmw f 4 1 1 (fun m d => onWords maxS m (d 0)) s
/-- VATOM.MAX.N32 (R235). -/
def execVatomMaxN32 (f : FmtA) (s : State) : Host.Outcome State Fault Refusal :=
  laneRmw f 4 1 1 (fun m d => onWords maxN m (d 0)) s

/-! ## Reductions at memory (R236) -/

/-- VRED.M.ADD.N32 (R236). -/
def execVredMAddN32 (f : FmtA) (s : State) : Host.Outcome State Fault Refusal := laneReduce f 0 s
/-- VRED.M.ADD.N64 (R236). -/
def execVredMAddN64 (f : FmtA) (s : State) : Host.Outcome State Fault Refusal := laneReduce f 1 s
/-- VRED.M.ADD.F32 (R236). -/
def execVredMAddF32 (f : FmtA) (s : State) : Host.Outcome State Fault Refusal := laneReduce f 2 s
/-- VRED.M.MIN.S32 (R236). -/
def execVredMMinS32 (f : FmtA) (s : State) : Host.Outcome State Fault Refusal := laneReduce f 3 s
/-- VRED.M.MAX.S32 (R236). -/
def execVredMMaxS32 (f : FmtA) (s : State) : Host.Outcome State Fault Refusal := laneReduce f 4 s

/-! ## Prefetch (R239) -/

/-- The requests of a prefetch that reach a present page, not moving and not gone (R239). -/
def prefetchable (s : State) (op : MemOp) (ps : Pages) (r : Req) : Bool :=
  decide (r.va < 2 ^ 57) && !reqGone s op ps r &&
    match pageXl ps (r.va / 4096) with | .ok g => !migBit g.pte | .bad _ => false

/-- A prefetch of lines: no event and no fault; only what crosses a port is counted (R96, R239). -/
def prefetch (s : State) (reqs : List Req) : State :=
  let op : MemOp := ⟨false, 128, .load, false, none⟩
  let lines := reqs.map fun r => (⟨r.lane, r.va / 128 * 128⟩ : Req)
  let ps := pagesOf s (accOf s.g) op lines
  (countAccess s (accOf s.g) op ps (lines.filter (prefetchable s op ps))).1

/-- VPRF (R239). -/
def execVprf (f : FmtM) (s : State) : Host.Outcome State Fault Refusal :=
  issue s f.nas ⟨noAp s ++ alignBad f.a 2, codes f.a 2, []⟩ fun s =>
    match takeAll [(1, f.a, 2)] s with
    | .error e => portStop s e
    | .ok (os, s') => .ok (prefetch s' (laneReqs s (os.getD 0 (.k [])) false 128 f.off))

end Sys2Proof.Machine
end

