-- ==== Sys2Proof/Machine/GroupMem.lean ====
section
/-! DEFINITION. Group-set memory forms (14; R286 to R290): single accesses, atomics, fence and prefetch. -/

namespace Sys2Proof.Machine

/-- The one request of a group form, covering the active lanes (R71, R286). -/
def groupReq (s : State) (o : Opnd) (vt : Bool) (z : Nat) (off : BitVec 5) : Req := ⟨0, laneVa s o vt z off 0⟩

/-- A group-set event covers every active lane of its slot (R71). -/
def wholeSlot (s : State) (_ : Req) : Mask := active s

/-- Unites what the active lanes have before them (R71). -/
def uniteActive (s : State) : State :=
  if s.onAp then s else { s with g := { s.g with ord := unite s.g.ord (active s) } }

/-- The raising lanes of a group form are its slot's active lanes (R286). -/
def wholeRaise (s : State) (r : Res) : Res :=
  match r with
  | .trap x => .trap { x with lanes := active s }
  | .after t x => .after t { x with lanes := active s }
  | r => r

/-- The keys of a uniform destination. -/
def destKeys (s : State) (d : RegCode) (w : Nat) : List Nat :=
  if isK d then (destKs d w).map kKey else laneKeys d.toNat w (allLanes s.g)

/-- A group load (R287). -/
def uniLoad (nas : Nas) (d a : RegCode) (la : BitVec 4) (off : BitVec 5) (op : MemOp) (acquire : Bool) (s : State) :
    Host.Outcome State Fault Refusal :=
  let wa := if op.vt then 1 else 2
  let w := sizeRegs op.z
  issue s nas ⟨(if op.vt then noScalar s else []) ++ kBad a wa ++ alignBad d w, codes a wa, codes d w⟩ fun s =>
    if !apRoom s (destKs d w) then .wait .held s
    else
      match takeAll [(1, a, wa)] s with
      | .error e => accessPortStop s op (wholeSlot s) none e
      | .ok (os, s') =>
        let reqs := [groupReq s (os.getD 0 (.k [])) op.vt op.z off]
        match checkAccess s (accOf s.g) op (wholeSlot s) reqs with
        | .error r => wholeRaise s r
        | .ok ps =>
          let (vals, gone, addr, t, filed) := doLoads (uniteActive s') (accOf s.g) op acquire (wholeSlot s) reqs ps
          if s.onAp && gone != 0 then .trap { precise s 0x30 with addr := addr }
          else
          let gone := if gone = 0 then 0 else active s
          let t := vals.foldl (fun t v => putUniforms t d.toNat (wordsOf op.z v.2)) t
          let srcs := (loadSrcs s (accOf s.g) op reqs ps).flatMap fun x => (32, x.2) :: (lanesOf (active s)).map fun l => (l, x.2)
          wholeRaise s (finishAccess (openLoad s t la.toNat (codes d w) (destKeys s d w) gone addr srcs) ps op reqs filed)

/-- A group store (R287). -/
def uniStore (nas : Nas) (d a : RegCode) (la : BitVec 4) (off : BitVec 5) (op : MemOp) (release : Bool) (s : State) :
    Host.Outcome State Fault Refusal :=
  let wa := if op.vt then 1 else 2
  let w := sizeRegs op.z
  issue s nas ⟨spaceBad s op.vt ++ kBad d w ++ kBad a wa, codes d w ++ codes a wa, []⟩ fun s =>
    match takeAll [(0, d, w), (1, a, wa)] s with
    | .error e => wholeRaise s (accessPortStop s op (wholeSlot s) (reqsAlone s a wa fun o => [groupReq s o op.vt op.z off]) e)
    | .ok (os, s') =>
      let reqs := [groupReq s (os.getD 1 (.k [])) op.vt op.z off]
      match checkAccess s (accOf s.g) op (wholeSlot s) reqs with
      | .error r => wholeRaise s r
      | .ok ps =>
        match if release then releaseStop s else none with
        | some r => r
        | none =>
          let data := fun _ => opndNat s (os.getD 0 (.k [])) 0 op.z 0
          let (gone, addr, t, filed) :=
            doStores (uniteActive s') (accOf s.g) op release (wholeSlot s) reqs data ps
          let gone := if gone = 0 then 0 else active s
          wholeRaise s (finishAccess (openWindow s t la.toNat [] [] gone addr) ps op reqs filed)

/-- A group RMW with return (R287): `w` registers are read and `wr` written. -/
def uniRmw (x : FmtA) (z w wr : Nat) (f : Nat → (Nat → Nat) → Nat) (s : State) : Host.Outcome State Fault Refusal :=
  let op : MemOp := ⟨false, z, .rmw, true, some x.scope.toNat⟩
  issue s x.nas ⟨noAp s ++ kBad x.d w ++ kBad x.a 2, codes x.d w ++ codes x.a 2, codes x.d wr⟩ fun s =>
    match takeAll [(0, x.d, w), (1, x.a, 2)] s with
    | .error e => wholeRaise s (accessPortStop s op (wholeSlot s) (reqsAlone s x.a 2 fun o => [groupReq s o false z 0]) e)
    | .ok (os, s') =>
      let reqs := [groupReq s (os.getD 1 (.k [])) false z 0]
      match checkAccess s (accOf s.g) op (wholeSlot s) reqs with
      | .error r => wholeRaise s r
      | .ok ps =>
        let release := x.ord.getLsbD 1
        match if release then releaseStop s else none with
        | some r => r
        | none =>
          let new := fun _ old => f old (fun i => opndNat s (os.getD 0 (.k [])) i z 0)
          let (vals, gone, addr, t, filed) :=
            doRmws (uniteActive s') (accOf s.g) op (x.ord.getLsbD 0) release (wholeSlot s) reqs new ps
          let gone := if gone = 0 then 0 else active s
          let t := vals.foldl (fun t v => putUniforms t x.d.toNat (wordsOf z v.2)) t
          wholeRaise s (finishAccess
            (openWindow s t x.la.toNat (codes x.d wr) (destKeys s x.d wr) gone addr) ps op reqs filed)

/-! ## Plain and strong accesses (R287) -/

/-- GLD.GL.N32 (R287). -/
def execGldGlN32 (f : FmtM) (s : State) : Host.Outcome State Fault Refusal :=
  uniLoad f.nas f.d f.a f.la f.off ⟨false, 4, .load, false, none⟩ false s
/-- GST.GL.N32 (R287). -/
def execGstGlN32 (f : FmtM) (s : State) : Host.Outcome State Fault Refusal :=
  uniStore f.nas f.d f.a f.la f.off ⟨false, 4, .side, false, none⟩ false s
/-- GLD.GL.N64 (R287). -/
def execGldGlN64 (f : FmtM) (s : State) : Host.Outcome State Fault Refusal :=
  uniLoad f.nas f.d f.a f.la f.off ⟨false, 8, .load, false, none⟩ false s
/-- GST.GL.N64 (R287). -/
def execGstGlN64 (f : FmtM) (s : State) : Host.Outcome State Fault Refusal :=
  uniStore f.nas f.d f.a f.la f.off ⟨false, 8, .side, false, none⟩ false s
/-- GLD.VT.N32 (R287). -/
def execGldVtN32 (f : FmtM) (s : State) : Host.Outcome State Fault Refusal :=
  uniLoad f.nas f.d f.a f.la f.off ⟨true, 4, .load, false, none⟩ false s
/-- GST.VT.N32 (R287). -/
def execGstVtN32 (f : FmtM) (s : State) : Host.Outcome State Fault Refusal :=
  uniStore f.nas f.d f.a f.la f.off ⟨true, 4, .side, false, none⟩ false s
/-- GLD.VT.N64 (R287). -/
def execGldVtN64 (f : FmtM) (s : State) : Host.Outcome State Fault Refusal :=
  uniLoad f.nas f.d f.a f.la f.off ⟨true, 8, .load, false, none⟩ false s
/-- GST.VT.N64 (R287). -/
def execGstVtN64 (f : FmtM) (s : State) : Host.Outcome State Fault Refusal :=
  uniStore f.nas f.d f.a f.la f.off ⟨true, 8, .side, false, none⟩ false s
/-- GLDS.GL.N32 (R287). -/
def execGldsGlN32 (f : FmtA) (s : State) : Host.Outcome State Fault Refusal :=
  uniLoad f.nas f.d f.a f.la 0 ⟨false, 4, .load, true, some f.scope.toNat⟩ (f.ord == 1) s
/-- GSTS.GL.N32 (R287). -/
def execGstsGlN32 (f : FmtA) (s : State) : Host.Outcome State Fault Refusal :=
  uniStore f.nas f.d f.a f.la 0
    ⟨false, 4, if f.ord = 2 then .rmw else .side, true, some f.scope.toNat⟩ (f.ord == 2) s
/-- GLDS.GL.N64 (R287). -/
def execGldsGlN64 (f : FmtA) (s : State) : Host.Outcome State Fault Refusal :=
  uniLoad f.nas f.d f.a f.la 0 ⟨false, 8, .load, true, some f.scope.toNat⟩ (f.ord == 1) s
/-- GSTS.GL.N64 (R287). -/
def execGstsGlN64 (f : FmtA) (s : State) : Host.Outcome State Fault Refusal :=
  uniStore f.nas f.d f.a f.la 0
    ⟨false, 8, if f.ord = 2 then .rmw else .side, true, some f.scope.toNat⟩ (f.ord == 2) s
/-- GLDS.VT.N32 (R287). -/
def execGldsVtN32 (f : FmtA) (s : State) : Host.Outcome State Fault Refusal :=
  uniLoad f.nas f.d f.a f.la 0 ⟨true, 4, .load, true, some f.scope.toNat⟩ (f.ord == 1) s
/-- GSTS.VT.N32 (R287). -/
def execGstsVtN32 (f : FmtA) (s : State) : Host.Outcome State Fault Refusal :=
  uniStore f.nas f.d f.a f.la 0
    ⟨true, 4, if f.ord = 2 then .rmw else .side, true, some f.scope.toNat⟩ (f.ord == 2) s

/-! ## Atomics (R287) -/

/-- GATOM.ADD.N32 (R287). -/
def execGatomAddN32 (f : FmtA) (s : State) : Host.Outcome State Fault Refusal :=
  uniRmw f 4 1 1 (fun m d => (m + d 0) % 2 ^ 32) s
/-- GATOM.ADD.N64 (R287). -/
def execGatomAddN64 (f : FmtA) (s : State) : Host.Outcome State Fault Refusal :=
  uniRmw f 8 2 2 (fun m d => (m + d 0) % 2 ^ 64) s
/-- GATOM.AND.N32 (R287). -/
def execGatomAndN32 (f : FmtA) (s : State) : Host.Outcome State Fault Refusal :=
  uniRmw f 4 1 1 (fun m d => onWords (· &&& ·) m (d 0)) s
/-- GATOM.OR.N32 (R287). -/
def execGatomOrN32 (f : FmtA) (s : State) : Host.Outcome State Fault Refusal :=
  uniRmw f 4 1 1 (fun m d => onWords (· ||| ·) m (d 0)) s
/-- GATOM.XOR.N32 (R287). -/
def execGatomXorN32 (f : FmtA) (s : State) : Host.Outcome State Fault Refusal :=
  uniRmw f 4 1 1 (fun m d => onWords (· ^^^ ·) m (d 0)) s
/-- GATOM.MIN.S32 (R287). -/
def execGatomMinS32 (f : FmtA) (s : State) : Host.Outcome State Fault Refusal :=
  uniRmw f 4 1 1 (fun m d => onWords minS m (d 0)) s
/-- GATOM.MIN.N32 (R287). -/
def execGatomMinN32 (f : FmtA) (s : State) : Host.Outcome State Fault Refusal :=
  uniRmw f 4 1 1 (fun m d => onWords minN m (d 0)) s
/-- GATOM.MAX.S32 (R287). -/
def execGatomMaxS32 (f : FmtA) (s : State) : Host.Outcome State Fault Refusal :=
  uniRmw f 4 1 1 (fun m d => onWords maxS m (d 0)) s
/-- GATOM.MAX.N32 (R287). -/
def execGatomMaxN32 (f : FmtA) (s : State) : Host.Outcome State Fault Refusal :=
  uniRmw f 4 1 1 (fun m d => onWords maxN m (d 0)) s
/-- GCAS.N32 (R287). -/
def execGcasN32 (f : FmtA) (s : State) : Host.Outcome State Fault Refusal :=
  uniRmw f 4 2 1 (fun m d => if m = d 0 then d 1 else m) s
/-- GCAS.N64 (R287). -/
def execGcasN64 (f : FmtA) (s : State) : Host.Outcome State Fault Refusal :=
  uniRmw f 8 4 2 (fun m d => if m = d 0 then d 2 else m) s

/-! ## Fence and prefetch (R288, R289) -/

/-- The strong loads and RMWs whose reads a fence of who issues can make acquires (R72). -/
def seenBy (s : State) : List Seen :=
  match s.onAp, s.g.ap with
  | true, some a => a.seen
  | _, _ => s.g.ord.seen

/-- The acquire part of a fence (R72): earlier strong loads of the lanes synchronise, and what they gain is before the later events
of every lane that the fence covers (R71). -/
def fenceAcquire (s : State) (scope : Nat) : State :=
  let m := active s
  let mine := (seenBy s).filter fun x => (x.lanes &&& m) != 0
  mine.foldl (fun s x => learnFor s (acquired x.rels scope (agentOf s.g)) m) s

/-- The lanes of a window: those of its results and of what it reads; all for a uniform result that nothing tells them of. -/
def winLanes (w : Window) : Mask :=
  if w.srcs.isEmpty && w.old.any fun e => decide (1536 ≤ e.1) then 0xFFFFFFFF
  else maskOf fun l => w.srcs.any (·.1 == l) || w.old.any fun e => decide (e.1 < 1536) && e.1 % 32 == l

/-- Every earlier load of the lanes has returned (R78 item 5): their windows close, but for one that completes with 0x30 in other
lanes, which only these lanes leave. -/
def returnLoads (s : State) (m : Mask) : State :=
  let leave (w : Window) : Window := { w with old := w.old.filter fun e => decide (1536 ≤ e.1) || !lane m (e.1 % 32) }
  setWins s (((winsOf s).filter fun w => (winLanes w &&& m) == 0 || w.gone != 0).map fun w =>
    if (winLanes w &&& m) == 0 then w else leave w)

/-- The release part of a fence (R72): later strong writes of the lanes release what is before the fence. Every earlier write of the group
has arrived (R288). -/
def fenceRelease (s : State) (scope : Nat) : State :=
  let m := active s
  let s := arriveAll s s.g.ord (allLanes s.g)
  { s with g := { s.g with ord := { s.g.ord with relFences := s.g.ord.relFences ++ [⟨knownIds s.g.ord m, scope, m⟩] } } }

/-- What goes before the release part of a slice's fence (R34, R288): what it has before it of the group's side log has been performed. -/
def sliceHeld (s : State) : Bool := (ownLog s).any (ownEntry s 0xFFFFFFFF)

/-- The fence of a slice, which makes no writes: its loads have returned, and the group's writes that are before it have arrived (R34,
R288). -/
def sliceFence (s : State) (ord scope : Nat) : State :=
  let s := if ord = 0 then returnLoads s 0xFFFFFFFF else s
  let s := if ord = 2 then s else fenceAcquire s scope
  if ord = 1 then s else arriveIf s fun w => isKnown s 0xFFFFFFFF w.ev

/-- What a fence of an order does at once (R68, R72, R288): 0 full, 1 acquire, 2 release, 3 both. -/
def fenceEffect (s : State) (ord scope : Nat) : State :=
  let s := uniteActive s
  let s := if ord = 0 then returnLoads s (active s) else s
  let s := if ord = 2 then s else fenceAcquire s scope
  if ord = 1 then s else fenceRelease s scope

/-- GFENCE (R288). -/
def execGfence (f : FmtA) (s : State) : Host.Outcome State Fault Refusal :=
  issue s f.nas ⟨[], [], []⟩ fun s =>
    if scopeRefused s f.scope.toNat then .trap (precise s 0xC1)
    else if s.onAp then
      if f.ord != 1 && sliceHeld s then .wait .held s else .ok (sliceFence s f.ord.toNat f.scope.toNat)
    else
      match if f.ord = 1 then none else releaseStop s with
      | some r => r
      | none => .ok (fenceEffect s f.ord.toNat f.scope.toNat)

/-- GPRF (R289). -/
def execGprf (f : FmtM) (s : State) : Host.Outcome State Fault Refusal :=
  seqForm f.nas [(1, f.a, 2)] (fun s os t => prefetch t [groupReq s (os.getD 0 (.k [])) false 128 f.off]) s

end Sys2Proof.Machine
end

