-- ==== Sys2Proof/Machine/Sync.lean ====
section
/-! DEFINITION. What groups wait on (02, 03, 15; R56 to R62, R84 to R86, R293 to R296, R302, R377): group queues, team
barriers, byte barriers and event words, the steps that end a wait, and the audit. -/

namespace Sys2Proof.Machine

/-! ## Objects at their home -/

/-- The keys of n bytes of a vault. -/
def vaultKeys (die a n : Nat) : List Nat := (upto n).map fun i => vaultKey die (a + i)

/-- A little-endian value in the vault of a die, as a step of the acting group meets it. -/
def vaultNat (s : State) (die a n : Nat) : Nat := stepNat s (vaultKeys die a n)

/-- Writes a value at keys as an RMW of the acting group does, with what it releases; the home remembers the footprint `foot` of the step
(R77). -/
def putStep (s : State) (m : Mask) (scope : Nat) (release : Bool) (keys foot : List Nat) (x : Nat) : State :=
  let rels := relsAt s m (keys.headD 0)
  let s := performAt (landed s m) m keys
  let s := if release then arriveAll s s.g.ord m else s
  let (ev, s) := takeFresh s
  let p := partyFor s m
  let rels := rels ++ relsOf p.ord m release scope p.ag ev
  learnFor (noteStrong (strongPut s p ev scope rels keys (bytesOfNat keys.length x)) foot) [ev] m

/-- Writes an object whole, as an RMW of the acting group does. -/
def putObject (s : State) (m : Mask) (scope : Nat) (release : Bool) (keys : List Nat) (x : Nat) : State :=
  putStep s m scope release keys keys x

/-- What the active lanes gain from the releases that the write they meet at a key carries (R72). -/
def acquireFrom (s : State) (scope : Nat) (key : Nat) : State :=
  learnFor s (acquired (relsAt s (active s) key) scope (agentOf s.g)) (active s)

/-- Opens the window over k registers and masks of a form of R291; `codes` as in a window. -/
def uniWindow (before after : State) (la : BitVec 4) (codes keys : List Nat) : State :=
  openWindow before after la.toNat codes keys 0 0

/-- The causes of an access of the forms of this chapter that must be raised together, by R154 and then in the order in
which they are listed. -/
def firstOf : List (Bool × Nat) → Option Nat
  | [] => none
  | (b, c) :: t => if b then some c else firstOf t

/-! ## Audits (R60, R377) -/

/-- The die and vault address that a vault key names. -/
def vaultOf (key : Nat) : Nat × Nat := let x := key - locKey 1 0; (x / 2 ^ 29, x % 2 ^ 29)

/-- A queue's ALLOW values and OCC do not sum to TOTAL. -/
def queueBroken (s : State) (key : Nat) : Bool :=
  let (die, a) := vaultOf key
  let w := vaultNat s die a 4
  let sum := ((upto (bits w 12 10 + 1)).map fun p => vaultNat s die (a + 8 + 2 * p) 2).foldl (· + ·) 0
  decide (sum + bits (vaultNat s die (a + 4) 4) 24 16 ≠ bits w 24 16)

/-- A barrier's LEFT and the arrivals of its phase do not sum to N. -/
def barrierBroken (s : State) (key arrivals : Nat) : Bool :=
  let (die, a) := vaultOf key
  let w := vaultNat s die a 4
  decide (bits w 9 5 + arrivals ≠ bits w 4 0)

/-- An object's sums differ. -/
def objectBroken (s : State) (x : Audit) : Bool := if x.barrier then barrierBroken s x.key x.arrivals else queueBroken s x.key

/-- One audit: an object whose sums differ is marked for its VF (R60). -/
def auditOne (s : State) (x : Audit) : State :=
  if objectBroken s x && !s.wk.marked.contains (x.vf, x.key) then { s with wk := { s.wk with marked := s.wk.marked ++ [(x.vf, x.key)] } }
  else s

/-- The next operation of the VF on a marked object takes 0x61 (R60). The manual does not say when a mark goes: here it stands
while the object's sums differ, and an object that the supervisor has repaired is marked no longer (DESIGN CHOICE,
notes/assumptions/75.md). A barrier word with LEFT = N starts anew, whatever arrivals its table entry shows. -/
def lostPermit (s : State) (key : Nat) (barrier : Bool) : Bool :=
  s.wk.marked.contains (s.g.who.vf, key) &&
    (if barrier then
      let w := stepNat s ((upto 4).map (key + ·))
      bits w 9 5 != bits w 4 0 &&
        match s.wk.audits.find? fun x => x.key == key with
        | some x => objectBroken s x
        | none => false
    else queueBroken s key)

/-- An object is marked no longer. -/
def unmark (s : State) (key : Nat) : State :=
  { s with wk := { s.wk with marked := s.wk.marked.filter (· != (s.g.who.vf, key)) } }

/-- Notes an operation on an object in its vault's table; an object that it displaces is audited (R377). -/
def noteAudit (s : State) (x : Audit) : State :=
  let s := unmark s x.key
  let rest := s.wk.audits.filter fun y => y.key != x.key
  let mine (y : Audit) : Bool := y.key / 2 ^ 21 == x.key / 2 ^ 21
  let s := { s with wk := { s.wk with audits := rest ++ [x] } }
  match decide ((rest.filter mine).length < 64), rest.find? mine with
  | false, some y =>
    auditOne { s with wk := { s.wk with audits := (rest.filter fun z => z.key != y.key) ++ [x] } } y
  | _, _ => s

/-! ## Group queues -/

/-- What a queue form does. -/
structure QForm where
  push : Bool
  try_ : Bool
deriving DecidableEq, Repr

/-- A queue's header, read at its home (R56). -/
structure QHead where
  die : Nat
  at_ : Nat
  w : Nat
  ns : Nat
  size : Nat
  head : Nat
  tail : Nat
  occ : Nat
deriving DecidableEq, Repr

/-- Reads a header. -/
def qHead (s : State) (die a : Nat) : QHead :=
  let w := vaultNat s die a 4
  let v := vaultNat s die (a + 4) 4
  ⟨die, a, w, bits w 9 2, 8 * 2 ^ (w % 4), v % 256, v / 256 % 256, bits v 24 16⟩

/-- The header is reserved (R57). -/
def QHead.bad (s : State) (q : QHead) : Bool :=
  let v := vaultNat s q.die (q.at_ + 4) 4
  q.ns == 0 || bits q.w 15 13 != 0 || bits q.w 31 25 != 0 || bits v 31 25 != 0 || bits q.w 24 16 == 0 ||
    vaultNat s q.die (q.at_ + 24) 40 != 0

/-- A push finds the header reserved, more permits than slots, or no such producer (R57). -/
def QHead.pushBad (s : State) (q : QHead) (p : Nat) : Bool :=
  q.bad s || decide (q.ns + 1 < bits q.w 24 16) || decide (bits q.w 12 10 < p)

/-- The address of a slot's tag. -/
def QHead.tagAt (q : QHead) (i : Nat) : Nat := q.at_ + 64 + i

/-- The address of a slot. -/
def QHead.slotAt (q : QHead) (i : Nat) : Nat := q.at_ + 64 + (q.ns + 64) / 64 * 64 + q.size * i

/-- The address of a producer's allowance. -/
def QHead.allowAt (q : QHead) (p : Nat) : Nat := q.at_ + 8 + 2 * p

/-- The operation would wait (R57). -/
def qBlocked (s : State) (q : QHead) (push : Bool) (p : Nat) : Bool :=
  if push then vaultNat s q.die (q.allowAt p) 2 == 0 else q.occ == 0

/-- An earlier waiter of the same kind has not been served: pushes of whatever producer are served in arrival order, and so are pops;
the two kinds pass each other, since each ends the other's wait (R57, R294; DEDUCED, notes/assumptions/76.md). -/
def qBehind (s : State) (key : Nat) (push : Bool) (other : Bool) : Bool :=
  (s.wk.waiters.takeWhile fun w => !(w.vf == s.g.who.vf && w.ident == s.g.who.ident && w.other == other)).any fun w =>
    w.key == key && w.push == push

/-- The group waits at a queue home already. -/
def qWaits (s : State) (key : Nat) (other : Bool) : Bool :=
  s.wk.waiters.any fun w => w.key == key && w.vf == s.g.who.vf && w.ident == s.g.who.ident && w.other == other

/-- The slot size that the group read before it began to wait at a queue home is no longer the header's (R293). -/
def sizeChanged (s : State) (key size : Nat) (other : Bool) : Bool :=
  s.wk.waiters.any fun w =>
    w.key == key && w.vf == s.g.who.vf && w.ident == s.g.who.ident && w.other == other && w.size != size

/-- Joins the waiters of a queue home. -/
def joinWaiters (s : State) (w : Waiter) : State :=
  if s.wk.waiters.any fun x => x.key == w.key && x.vf == w.vf && x.ident == w.ident && x.other == w.other then s
  else { s with wk := { s.wk with waiters := s.wk.waiters ++ [w] } }

/-- Leaves the waiters of every queue home. -/
def leaveWaiters (s : State) (other : Bool) : State :=
  { s with wk := { s.wk with waiters := s.wk.waiters.filter fun x =>
      !(x.vf == s.g.who.vf && x.ident == s.g.who.ident && x.other == other) } }

/-- The push step (R57, R58). -/
def qPush (s : State) (q : QHead) (p scope data : Nat) : State :=
  let m := active s
  let put (s : State) (a n x : Nat) : State := putObject s m scope false (vaultKeys q.die a n) x
  let s := put s (q.allowAt p) 2 (vaultNat s q.die (q.allowAt p) 2 - 1)
  let s := putObject s m scope true (vaultKeys q.die (q.slotAt q.tail) q.size) data
  let s := put s (q.tagAt q.tail) 1 p
  put s (q.at_ + 4) 4 (q.head + 256 * ((q.tail + 1) % (q.ns + 1)) + 65536 * (q.occ + 1))

/-- The pop step (R57, R58): the data and the state after. -/
def qPop (s : State) (q : QHead) (scope : Nat) : Nat × State :=
  let m := active s
  let put (s : State) (a n x : Nat) : State := putObject s m scope false (vaultKeys q.die a n) x
  let slot := q.slotAt q.head
  let data := vaultNat s q.die slot q.size
  let s := acquireFrom s scope (vaultKey q.die slot)
  let tag := vaultNat s q.die (q.tagAt q.head) 1 % 8
  let s := put s (q.allowAt tag) 2 ((vaultNat s q.die (q.allowAt tag) 2 + 1) % 65536)
  (data, put s (q.at_ + 4) 4 ((q.head + 1) % (q.ns + 1) + 256 * q.tail + 65536 * (q.occ - 1)))

/-- The data registers that a queue form names (R293). -/
def qRegs (f : FmtE) (q : QHead) : Nat := if f.c.getLsbD 4 then 1 else q.size / 4

/-- What is wrong with the data registers once the slot size is known (R293). -/
def qDataBad (f : FmtE) (q : QHead) : Bool := !isK f.d || decide (64 < f.d.toNat + qRegs f q)

/-- The write of m7 by a try form (R294). -/
def qTryMask (t : QForm) (acted : Bool) (s : State) : State :=
  if t.try_ then putMask s 7 (if acted then 0xFFFFFFFF else 0) else s

/-- The debug check of R77 for the RMWs of a queue step. -/
def qMixed (s : State) (q : QHead) (push : Bool) (p : Nat) : Bool :=
  let foot (a n : Nat) : Bool := mixedSize s (vaultKeys q.die a n)
  foot (q.at_ + 4) 4 ||
    (if push then foot (q.allowAt p) 2 || foot (q.slotAt q.tail) q.size || foot (q.tagAt q.tail) 1
     else foot (q.allowAt (vaultNat s q.die (q.tagAt q.head) 1 % 8)) 2 || foot (q.slotAt q.head) q.size)

/-- A queue form reads data registers or the register of a memory address. -/
def qReads (t : QForm) (f : FmtE) : Bool := t.push || f.c.getLsbD 4

/-- The address operand of a queue form. The ports of the data registers are popped before that of the address (R33): where the address
is read from the port of a register in the data range, it is the entry after the one that the data takes. -/
def qAddr (t : QForm) (f : FmtE) (s : State) : Except PortStop Nat :=
  match takeAll [(1, f.a, 1)] s with
  | .error e => .error e
  | .ok (os, u) =>
    let addr := (uni s os 0 0).toNat
    if portsOn s && qReads t f && decide (60 ≤ f.a.toNat) && isK f.d && decide (f.d.toNat ≤ f.a.toNat) &&
        decide (f.a.toNat < f.d.toNat + qRegs f (qHead s s.g.who.loc.die (addr / 8 * 8))) then
      match takeAll [(1, f.a, 1)] u with
      | .error e => .error e
      | .ok (os, _) => .ok (uni s os 0 0).toNat
    else .ok addr

/-- The effect of a queue form (R57, R293, R294). A gqtry that would have waited changes m7 alone. -/
def queueBody (t : QForm) (f : FmtE) (s : State) : Res :=
  let scope := (f.c &&& 7).toNat
  match qAddr t f s with
  | .error e => portStopWith s (scopeCauses s (some scope)) e
  | .ok addr =>
    let die := s.g.who.loc.die
    let a := addr / 8 * 8
    let q := qHead s die a
    let p := addr % 8
    let key := vaultKey die a
    if sizeChanged s key q.size s.g.iss then
      if qBehind s key t.push s.g.iss then .wait (.queue t.push f) s else .trap (precise s 0x63)
    else if qDataBad f q then .trap (precise s 0x03)
    else if scopeRefused s scope then .trap (precise s 0xC1)
    else if addr / 2 ^ 29 != 0 then .trap (preciseAt s 0x25 addr)
    else if qWaits s key s.g.iss && qBehind s key t.push s.g.iss then .wait (.queue t.push f) s
    else
      match takeAll [(0, f.d, if qReads t f then qRegs f q else 0), (1, f.a, 1)] s with
      | .error e => portStop s e
      | .ok (os, s') =>
        let mem := (uni s os 0 0).toNat
        let inMem := f.c.getLsbD 4
        let blocking := !t.try_ && (s.g.who.recClass || s.g.who.origin == .record || s.g.who.origin == .graph)
        match firstOf [(inMem && (mem % 8 != 0 || mem / 2 ^ 29 != 0), 0x25),
            (bits addr 5 3 != 0 || (if t.push then q.pushBad s p else p != 0 || q.bad s), 0x63),
            (lostPermit s key false, 0x61), (blocking, 0x64)] with
        | some c => .trap (preciseAt s c (if c = 0x25 then mem else 0))
        | none =>
          match if t.push then releaseStop s else (goneStop s (active s)).map .stop with
          | some r => r
          | none =>
          if qBlocked s q t.push p || qBehind s key t.push s.g.iss then
            if t.try_ then .ok (uniWindow s (qTryMask t false s) f.la [71] [mKey 7])
            else .wait (.queue t.push f)
              (joinWaiters s ⟨key, s.g.who.vf, s.g.who.ident, s.g.iss, t.push, p, q.size⟩)
          else if qMixed s q t.push p then .trap (precise s 0x31)
          else
            let u := noteAudit (leaveWaiters (uniteActive s') s.g.iss) ⟨key, s.g.who.vf, false, 0⟩
            if t.push then
              let data := if inMem then
                  natOfBytes ((vaultKeys die mem q.size).map (plainByte u u.g.ord (active s) (agentOf s.g) 0))
                else natOfBytes ((upto (q.size / 4)).flatMap fun i => bytesOfNat 4 (uni s os 0 i).toNat)
              .ok (uniWindow s (qTryMask t true (qPush u q p scope data)) f.la (if t.try_ then [71] else []) [mKey 7])
            else
              let (data, u) := qPop u q scope
              let u := if inMem then
                  let (ev, u) := takeFresh u
                  learnFor (quieten (plainPut u (partyFor u (active s)) ev (vaultKeys die mem q.size) (bytesOfNat q.size data)) ev
                    (quietLanes s (active s))) [ev] (active s)
                else putUniforms u f.d.toNat (natWords (q.size / 4) data)
              let regs := if inMem then [] else codes f.d (q.size / 4)
              .ok (uniWindow s (qTryMask t true u) f.la (regs ++ if t.try_ then [71] else [])
                ((if inMem then [] else destKeys s f.d (q.size / 4)) ++ if t.try_ then [mKey 7] else []))

/-- The data registers that a queue form names, once its group has read SZ (R293). -/
def qData (t : QForm) (f : FmtE) (s : State) : List Nat :=
  match qAddr t f s with
  | .error _ => []
  | .ok addr => if isK f.d then codes f.d (qRegs f (qHead s s.g.who.loc.die (addr / 8 * 8))) else []

/-- The registers that a queue form reads and writes (R170, R293), and the causes of its word. -/
def queueIo (t : QForm) (f : FmtE) (s : State) : Io :=
  ⟨coreOnly s ++ kBad f.d 1 ++ kBad f.a 1, codes f.a 1 ++ (if qReads t f then qData t f s else []),
    (if qReads t f then [] else qData t f s) ++ if t.try_ then [71] else []⟩

/-- A queue form. -/
def queueForm (t : QForm) (f : FmtE) (s : State) : Host.Outcome State Fault Refusal :=
  issue s f.nas (queueIo t f s) (queueBody t f)

/-- GQPUSH (R57, R294). -/
def execGqpush (f : FmtE) (s : State) : Host.Outcome State Fault Refusal := queueForm ⟨true, false⟩ f s
/-- GQPOP (R57, R294). -/
def execGqpop (f : FmtE) (s : State) : Host.Outcome State Fault Refusal := queueForm ⟨false, false⟩ f s
/-- GQTRY_POP (R294). -/
def execGqtryPop (f : FmtE) (s : State) : Host.Outcome State Fault Refusal := queueForm ⟨false, true⟩ f s
/-- GQTRY_PUSH (R294). -/
def execGqtryPush (f : FmtE) (s : State) : Host.Outcome State Fault Refusal := queueForm ⟨true, true⟩ f s

/-- QUEUE_WAITER_SERVED (R57): a waiting push or pop whose turn it is takes its step. -/
def execQueueWaiterServed (vf ident : Nat) (other : Bool) (s : State) : Host.Outcome State Fault Refusal :=
  dueOr s (resume s vf ident other fun t w =>
    match w with
    | .queue push f => some (f.nas, queueIo ⟨push, false⟩ f t, queueBody ⟨push, false⟩ f)
    | _ => none)

/-! ## Team barriers -/

/-- The barrier word is malformed (R62). -/
def barWordBad (w : Nat) : Bool :=
  bits w 4 0 == 0 || decide (16 < bits w 4 0) || decide (bits w 4 0 < bits w 9 5) || bits w 31 11 != 0

/-- The phase of a barrier word (R61). -/
def barPhase (w : Nat) : Bool := bit w 10

/-- The word after an arrival (R62). With LEFT = 0 the arrival leaves LEFT - 1 in its five bits, which is no flip (DEDUCED,
notes/assumptions/77.md). -/
def barArrive (w : Nat) : Nat :=
  if bits w 9 5 = 1 then bits w 4 0 + 32 * bits w 4 0 + (if barPhase w then 0 else 1024)
  else if bits w 9 5 = 0 then w + 32 * 31
  else w - 32

/-- How many arrivals the table records for a phase of a barrier whose word is `w`: none where LEFT = N; one not in the table enters
it with those that its LEFT shows. -/
def arrivalsOf (s : State) (key w : Nat) : Nat :=
  if bits w 9 5 = bits w 4 0 then 0
  else
  match s.wk.audits.find? fun x => x.key == key with
  | some x => x.arrivals
  | none => bits w 4 0 - bits w 9 5

/-- The wait after an arrival in phase `ph`: the flip is acquired at team scope (R62). -/
def barAwait (f : FmtE) (key : Nat) (ph : Bool) (u : State) : Res :=
  if barPhase (stepNat u ((upto 4).map (key + ·))) != ph then
    let u := acquireFrom u 1 key
    .ok { u with g := { u.g with pidx := 0 } }
  else .wait (.barrier f key ph) u

/-- The address operand of a barrier or an object in the vault. -/
def vaultOpnd (s : State) (a : RegCode) : Except PortStop (Nat × State) :=
  match takeAll [(1, a, 1)] s with
  | .error e => .error e
  | .ok (os, s') => .ok ((uni s os 0 0).toNat, s')

/-- The effect of gbar (R62, R295). -/
def barBody (f : FmtE) (s : State) : Res :=
  match vaultOpnd s f.a with
  | .error e => portStop s e
  | .ok (a, s') =>
    let key := vaultKey s.g.who.loc.die a
    let w := vaultNat s s.g.who.loc.die a 4
    let blocking := s.g.who.recClass || s.g.who.origin == .record || s.g.who.origin == .graph
    match firstOf [(a % 4 != 0, 0x24), (a / 2 ^ 29 != 0, 0x25), (decide (3 ≤ s.g.pidx.toNat), 0x0B),
        (mixedSize s (vaultKeys s.g.who.loc.die a 4), 0x31), (lostPermit s key true, 0x61), (barWordBad w, 0x63), (blocking, 0x64)] with
    | some c => .trap (preciseAt s c (if c = 0x24 ∨ c = 0x25 then a else 0))
    | none =>
      if s.g.pidx ≠ 0 then barAwait f key (s.g.pidx == 2) { s' with g := { s'.g with pidx := 0 } }
      else
        match releaseStop s with
        | some r => r
        | none =>
          let left := bits w 9 5
          let u := putObject (uniteActive s') (active s) 1 true (vaultKeys s.g.who.loc.die a 4) (barArrive w)
          let u := noteAudit u ⟨key, s.g.who.vf, true, if left = 1 then 0 else arrivalsOf s key w + 1⟩
          barAwait f key (barPhase w) u

/-- GBAR (R62, R295). -/
def execGbar (f : FmtE) (s : State) : Host.Outcome State Fault Refusal :=
  issue s f.nas ⟨coreOnly s ++ kBad f.a 1, codes f.a 1, []⟩ (barBody f)

/-- BARRIER_WAIT_END (R62): a waiter observes the flip. -/
def execBarrierWaitEnd (vf ident : Nat) (other : Bool) (s : State) : Host.Outcome State Fault Refusal :=
  dueOr s (resume s vf ident other fun _ w =>
    match w with
    | .barrier f key ph => some (f.nas, ⟨[], [], []⟩, barAwait f key ph)
    | _ => none)

/-! ## Byte barriers -/

/-- The object operand of the forms of R296 and R302: a vault address or a global one (R291). -/
def objBad (s : State) (f : FmtE) : List Nat :=
  if f.c.getLsbD 0 then noScalar s ++ kBad f.a 1 else kBad f.a 2

/-- The registers that name an object. -/
def objWidth (f : FmtE) : Nat := if f.c.getLsbD 0 then 1 else 2

/-- The scope of a form of R291 with c[4:2]. -/
def objScope (f : FmtE) : Nat := (f.c >>> 2).toNat

/-- An access to an object at its home by one RMW of n bytes: its checks (R230, R100), then what `k` does with its
keys. An object homed by a peer that is gone completes with 0x30 (R151). -/
def atObject (s : State) (f : FmtE) (addr n : Nat) (k : List Nat → State → Res) : Res :=
  let op : MemOp := ⟨f.c.getLsbD 0, n, .rmw, true, some (objScope f)⟩
  let reqs : List Req := [⟨0, addr⟩]
  match checkAccess s (accOf s.g) op (fun _ => active s) reqs with
  | .error r => wholeRaise s r
  | .ok ps =>
    if reqGone s op ps ⟨0, addr⟩ then
      .after s ⟨0x30, .c, 0, active s, BitVec.ofNat 64 addr, curPc s⟩
    else
      let keys := keysOf (spotsOf s s.g.who.loc.die op ps ⟨0, addr⟩)
      let (t, filed) := countAccess (noteWalks s (accOf s.g) op ps) (accOf s.g) op ps reqs
      withFiled s (k keys (performAt (if filed then notifyFiled t s.g.who.vf s.g.who.ident (active s) else t) (active s) keys))

/-- What an access to an object leaves, with the group as its operands left it and the cause that a proposal filed brings (R98). -/
def withTaken (s' u : State) : State := { u with g := { s'.g with pend := u.g.pend } }

/-- What the device keeps of a byte barrier. -/
def barRec (s : State) (key : Nat) : BarRec :=
  match s.wk.bars.find? fun b => b.key == key with
  | some b => b
  | none => ⟨key, none, [], [], []⟩

/-- Replaces what the device keeps of a byte barrier. -/
def setBarRec (s : State) (b : BarRec) : State :=
  { s with wk := { s.wk with bars := (s.wk.bars.filter fun x => x.key != b.key) ++ [b] } }

/-- A byte barrier as numbers: EXPECT, ARRIVED, flags with the reserved bits above them, OVERSHOOT (R84). -/
structure ByteBar where
  expect : Nat
  arrived : Nat
  armed : Bool
  phase : Bool
  ovf : Bool
  rest : Nat
  excess : Nat
deriving DecidableEq, Repr

/-- Reads a byte barrier at its keys. -/
def byteBar (s : State) (keys : List Nat) : ByteBar :=
  let x := stepNat s keys
  ⟨x % 2 ^ 32, x / 2 ^ 32 % 2 ^ 32, bit x 64, bit x 65, bit x 66, bits x 95 67, x / 2 ^ 96 % 2 ^ 32⟩

/-- The reserved bits of a byte barrier are not 0 (R84). -/
def byteBarBad (s : State) (keys : List Nat) : Bool :=
  let x := stepNat s keys
  bits x 95 67 != 0 || x / 2 ^ 128 != 0

/-- The 16 bytes that a byte barrier's fields fill. -/
def ByteBar.toNat (b : ByteBar) : Nat :=
  b.expect + 2 ^ 32 * b.arrived + 2 ^ 64 * ((if b.armed then 1 else 0) + (if b.phase then 2 else 0) +
    (if b.ovf then 4 else 0) + 8 * b.rest) + 2 ^ 96 * b.excess

/-- flip_if_due of R85 on the fields; true when it flips. -/
def flipIfDue (b : ByteBar) : ByteBar × Bool :=
  if b.armed && decide (b.expect ≤ b.arrived) then
    let o := b.arrived - b.expect
    ({ b with arrived := 0, armed := false, phase := !b.phase, ovf := b.ovf || o != 0, excess := o }, true)
  else (b, false)

/-- BBOV for a group, also while it is saved (R85). -/
def setBbov (s : State) (uid : Nat) : State :=
  let mine (c : Ctx) : Bool := c.live && c.who.uid == uid
  let set (c : Ctx) : Ctx := { c with flags := c.flags ||| bbov }
  { s with
    g := if mine s.g then set s.g else s.g
    others := mapWhere mine set s.others
    en := { s.en with saved := mapWhere (fun x => x.who.uid == uid) (fun x => { x with late := x.late ||| bbov }) s.en.saved } }

/-- Writes a byte barrier back after a step of the acting group or engine at a scope, which is an event of its own (R85, R89); a flip
hands what the phase counted to its observers, and BBOV to the group that armed it. The home remembers the step's footprint (R77). -/
def putByteBar (s : State) (scope : Nat) (release : Bool) (keys : List Nat) (b : ByteBar) : State :=
  let r := flipIfDue b
  let s := putStep s (active s) scope release (keys.take 16) keys r.1.toNat
  if r.2 then
    let rec_ := barRec s (keys.headD 0)
    let s := setBarRec s ⟨rec_.key, none, [], [], rec_.flips ++ [(b.phase, rec_.ids, rec_.rels)]⟩
    match r.1.excess == 0, rec_.armer with
    | false, some uid => setBbov s uid
    | _, _ => s
  else s

/-- An arrival of n bytes at a scope (R85), with the writes or the release that it counts. -/
def barArrival (s : State) (scope : Nat) (release : Bool) (keys : List Nat) (n : Nat) (ids : List Nat) (rels : List Rel) : State :=
  let b := byteBar s keys
  let rec_ := barRec s (keys.headD 0)
  let s := setBarRec s { rec_ with ids := rec_.ids ++ ids, rels := rec_.rels ++ rels }
  putByteBar s scope release keys { b with arrived := min (b.arrived + n) 0xFFFFFFFF }

/-- GBARM (R85, R296). -/
def execGbarm (f : FmtE) (s : State) : Host.Outcome State Fault Refusal :=
  issue s f.nas ⟨noAp s ++ objBad s f ++ kBad f.d 1, codes f.d 1 ++ codes f.a (objWidth f), codes f.d 1⟩ fun s =>
    match takeAll [(0, f.d, 1), (1, f.a, objWidth f)] s with
    | .error e => portStopWith s (scopeCauses s (some (objScope f))) e
    | .ok (os, s') =>
      let addr := if f.c.getLsbD 0 then (uni s os 1 0).toNat else (uniPair s os 1).toNat
      atObject s f addr 32 fun keys u =>
        let b := byteBar s keys
        match firstOf [(byteBarBad s keys, 0x63), (b.armed, 0x6B)] with
        | some c => .trap (precise s c)
        | none =>
          let u := withTaken s' u
          let rec_ := barRec u (keys.headD 0)
          let u := uniteActive (setBarRec u { rec_ with armer := some s.g.who.uid })
          let u := putByteBar u (objScope f) false keys { b with expect := (uni s os 0 0).toNat, armed := true }
          .ok (uniWindow s (putUniform u f.d.toNat (if b.phase then 1 else 0)) f.la (codes f.d 1) (destKeys s f.d 1))

/-- GBADD (R85, R296): a release at its scope. -/
def execGbadd (f : FmtE) (s : State) : Host.Outcome State Fault Refusal :=
  issue s f.nas ⟨noAp s ++ objBad s f ++ kBad f.d 1, codes f.d 1 ++ codes f.a (objWidth f), []⟩ fun s =>
    match takeAll [(0, f.d, 1), (1, f.a, objWidth f)] s with
    | .error e => portStopWith s (scopeCauses s (some (objScope f))) e
    | .ok (os, s') =>
      let addr := if f.c.getLsbD 0 then (uni s os 1 0).toNat else (uniPair s os 1).toNat
      match releaseStop s with
      | some r => r
      | none =>
        atObject s f addr 32 fun keys u =>
          let u := uniteActive (withTaken s' u)
          let u := arriveAll u u.g.ord (active s)
          let rels := [⟨knownIds u.g.ord (active s), objScope f, agentOf s.g⟩]
          .ok (barArrival u (objScope f) true keys (uni s os 0 0).toNat [] rels)

/-- An engine command of the group that stopped on a fault not yet delivered, on a barrier if one is given (R153). -/
def faultedCmd (s : State) (bar : Option Nat) : Option Cmd :=
  s.en.cmds.find? fun c =>
    c.uid == s.g.who.uid && c.fault.isSome &&
      (match bar with | some b => c.bar == some b | none => true)

/-- Delivers the fault of a command with ORIG = 2: PIDX shows its chunk, and the group's own PIDX is kept until gtret
(R153). The delivered fault is cleared. -/
def deliverCmd (s : State) (c : Cmd) : Res :=
  match c.fault with
  | none => .ok s
  | some (cause, addr) =>
    let chunk := c.todo.headD c.accepted
    let stop (x : Cmd) : Cmd := { x with halted := true, fault := none }
    let t := { s with
      g := { s.g with cmdFault := some (s.g.pidx, c.num), pidx := BitVec.ofNat 32 chunk }
      en := { s.en with cmds := mapWhere (fun x => x.num == c.num) stop s.en.cmds } }
    .stop (takeTrap t ⟨cause, .f, 2, active s, BitVec.ofNat 64 addr, 0⟩ (active s))

/-- What observing the flip of a phase with PHASE = `ph` brings (R85), of the flips from number `since` on: the first such phase, which
is the one waited for; nothing else is ordered. -/
def flipGain (s : State) (key scope : Nat) (ph : Bool) (since : Nat) : List Nat :=
  match ((barRec s key).flips.drop since).find? fun x => x.1 == ph with
  | some x => x.2.1 ++ acquired x.2.2 scope (agentOf s.g)
  | none => []

/-- How often a byte barrier has flipped. -/
def flipCount (s : State) (key : Nat) : Nat := (barRec s key).flips.length

/-- The effect of gbwait (R85, R86, R296); of one that has waited, the limit of its wait and how often the barrier had flipped when it
began. -/
def waitBody (f : FmtE) (waited : Option (Option Nat × Nat)) (s : State) : Res :=
  let w := if f.c.getLsbD 1 then 2 else 1
  match takeAll [(0, f.d, w), (1, f.a, objWidth f)] s with
  | .error e => portStopWith s (scopeCauses s (some (objScope f))) e
  | .ok (os, s') =>
    let addr := if f.c.getLsbD 0 then (uni s os 1 0).toNat else (uniPair s os 1).toNat
    atObject s f addr 32 fun keys u =>
      match faultedCmd s (some (keys.headD 0)) with
      | some c => deliverCmd s c
      | none =>
        let n := flipCount s (keys.headD 0)
        if (byteBar s keys).phase != (uni s os 0 0).getLsbD 0 then
          let u := withTaken s' u
          let since := match waited with | some x => x.2 | none => n - 1
          let u := learnFor u (flipGain u (keys.headD 0) (objScope f) ((uni s os 0 0).getLsbD 0) since) (active s)
          .ok (uniWindow s (putUniform u f.d.toNat 0) f.la (codes f.d 1) (destKeys s f.d 1))
        else
          let (limit, since) := match waited with
            | some x => x
            | none => (if f.c.getLsbD 1 then some (now s + (uni s os 0 1).toNat) else none, n)
          .wait (.flip f limit since) s

/-- What gbwait and gewait read and write; the causes of the word are those of its first issue. -/
def waitIo (f : FmtE) : Io := ⟨[], codes f.d (if f.c.getLsbD 1 then 2 else 1) ++ codes f.a (objWidth f), codes f.d 1⟩

/-- GBWAIT (R85, R86, R296). -/
def execGbwait (f : FmtE) (s : State) : Host.Outcome State Fault Refusal :=
  issue s f.nas { waitIo f with bad := noAp s ++ objBad s f ++ kBad f.d (if f.c.getLsbD 1 then 2 else 1) } (waitBody f none)

/-- BYTE_BARRIER_WAIT_END (R85): a waiting gbwait observes the flip and acquires. -/
def execByteBarrierWaitEnd (vf ident : Nat) (other : Bool) (s : State) : Host.Outcome State Fault Refusal :=
  dueOr s (resume s vf ident other fun _ w =>
    match w with
    | .flip f e n => some (f.nas, waitIo f, waitBody f (some (e, n)))
    | _ => none)

/-! ## Event words -/

/-- The effect of gewait with the limit given, if any (R302). -/
def eventBody (f : FmtE) (expiry : Option Nat) (first : Bool) (s : State) : Res :=
  let w := if f.c.getLsbD 1 then 2 else 1
  match takeAll [(0, f.d, w), (1, f.a, objWidth f)] s with
  | .error e => portStopWith s (scopeCauses s (some (objScope f))) e
  | .ok (os, s') =>
    let addr := if f.c.getLsbD 0 then (uni s os 1 0).toNat else (uniPair s os 1).toNat
    atObject s f addr 4 fun keys u =>
      let old := metNat s keys
      let hit := BitVec.ofNat 32 old &&& uni s os 0 0
      if hit ≠ 0 then
        let u := uniteActive (withTaken s' u)
        let u := acquireFrom u (objScope f) (keys.headD 0)
        let u := putObject u (active s) (objScope f) false keys (BitVec.ofNat 32 old &&& ~~~hit).toNat
        .ok (uniWindow s (putUniform u f.d.toNat hit) f.la (codes f.d 1) (destKeys s f.d 1))
      else
        let limit := if first && f.c.getLsbD 1 then some (now s + (uni s os 0 1).toNat) else expiry
        .wait (.event f limit) s

/-- GEWAIT (R302). -/
def execGewait (f : FmtE) (s : State) : Host.Outcome State Fault Refusal :=
  issue s f.nas { waitIo f with bad := noAp s ++ objBad s f ++ kBad f.d (if f.c.getLsbD 1 then 2 else 1) } (eventBody f none true)

/-- GEVPOST (R302): a release RMW. -/
def execGevpost (f : FmtE) (s : State) : Host.Outcome State Fault Refusal :=
  issue s f.nas ⟨noAp s ++ objBad s f ++ kBad f.d 1, codes f.d 1 ++ codes f.a (objWidth f), []⟩ fun s =>
    match takeAll [(0, f.d, 1), (1, f.a, objWidth f)] s with
    | .error e => portStopWith s (scopeCauses s (some (objScope f))) e
    | .ok (os, s') =>
      let addr := if f.c.getLsbD 0 then (uni s os 1 0).toNat else (uniPair s os 1).toNat
      match releaseStop s with
      | some r => r
      | none =>
        atObject s f addr 4 fun keys u =>
          let u := uniteActive (withTaken s' u)
          .ok (putObject u (active s) (objScope f) true keys
            (BitVec.ofNat 32 (metNat s keys) ||| uni s os 0 0).toNat)

/-- EVENT_WAIT_END (R302): a waiting gewait finds a bit of its mask set. -/
def execEventWaitEnd (vf ident : Nat) (other : Bool) (s : State) : Host.Outcome State Fault Refusal :=
  dueOr s (resume s vf ident other fun _ w =>
    match w with
    | .event f e => some (f.nas, waitIo f, eventBody f e false)
    | _ => none)

/-- A timed wait has reached its limit and still finds nothing (R86, R302): it completes with `x` in k[d]. -/
def expired (f : FmtE) (e : Option Nat) (x : Word) (still : State → Bool) (s : State) : Res :=
  match e with
  | none => .wait .held s
  | some t =>
    if t ≤ now s && still s then
      match takeAll [(0, f.d, 2), (1, f.a, objWidth f)] s with
      | .error r => portStop s r
      | .ok (_, s') => .ok (uniWindow s (putUniform s' f.d.toNat x) f.la (codes f.d 1) (destKeys s f.d 1))
    else .wait .held s

/-- A result is a wait. -/
def isWait (r : Res) : Bool := match r with | .wait _ _ => true | _ => false

/-- TIMED_WAIT_EXPIRY (R86, R302): the limit of a timed wait passes without a flip or a post. -/
def execTimedWaitExpiry (vf ident : Nat) (other : Bool) (s : State) : Host.Outcome State Fault Refusal :=
  dueOr s (resume s vf ident other fun _ w =>
    match w with
    | .flip f e n => some (f.nas, waitIo f, expired f e 1 fun s => isWait (waitBody f (some (e, n)) s))
    | .event f e => some (f.nas, waitIo f, expired f e 0 fun s => isWait (eventBody f e false s))
    | _ => none)

/-- A timer has run for a period of aclk since it last did, and starts again. -/
def periodDue (s : State) (timer period : Nat) : Option State :=
  if storeGet 0 s.mg.last timer + period ≤ now s then
    some { s with mg := { s.mg with last := storeSet 0 s.mg.last timer (now s) } }
  else none

end Sys2Proof.Machine
end

