-- ==== Sys2Proof/Machine/Device.lean ====
section
/-! DEFINITION. Accesses that the device makes through a context's translation (R83, R127), and acting on a context's behalf. -/

namespace Sys2Proof.Machine

/-! ## Translated accesses -/

/-- The keys of n bytes from an address on, by pieces that lie within 256 bytes; the pages are marked as used. -/
def vaPieces (a : Acc) (u : Use) : Nat → State → Nat → Nat → Except Halt (List Nat × State)
  | 0, s, _, _ => .ok ([], s)
  | f + 1, s, va, n =>
    if n = 0 then .ok ([], s)
    else
      let m := min n (256 - va % 256)
      match translate s a u va with
      | .bad cs => .error (.cause ((firstCause cs).getD 0x21) va)
      | .ok p =>
        if peerGone s (p.pa + va % 4096) || (upto 32).any fun l => linkLost s a.vf a.ident a.die l (p.pa + va % 4096) then .error (.cause 0x30 va)
        else if u == .store && (migBit p.pte || dupBit p.pte) then .error (.hold p.pte)
        else
          let keys := physKeys s (p.pa + va % 4096) m
          match vaPieces a u f (noteWalk s a u va p) (va + m) (n - m) with
          | .error e => .error e
          | .ok (t, s) => .ok (keys ++ t, s)

/-- The keys of n bytes at a virtual address (R83): every page translated in the given mode. -/
def vaKeys (s : State) (a : Acc) (u : Use) (va n : Nat) : Except Halt (List Nat × State) :=
  vaPieces a u (n / 256 + 2) s va n

/-- The sectors of n bytes whose home is remote, each with its page (R92). -/
def vaSectors (s : State) (a : Acc) (va n : Nat) : List (Nat × Page) :=
  (distinct ((upto (n / 64 + 2)).map fun i => min (va + 64 * i) (va + n - 1) / 64)).filterMap fun sec =>
    match translate s a .load (sec * 64) with
    | .bad _ => none
    | .ok g =>
      match placeOf s (g.pa + sec % 64 * 64) with
      | some p => if remote a.die p then some (sec, g) else none
      | none => none

/-- The note of a sector of a device access for a context. -/
def dirtyOf (s : State) (a : Acc) (x : Nat × Page) : DirtySector :=
  ⟨physKey s (x.2.pa + x.1 % 64 * 64), s.g.who.uid, a.vf, a.ident, a.mode, a.die, active s, x.1 * 64, x.2.pa, x.2.level, x.2.pte⟩

/-- Counts the sectors of a device access for a context that cross a port (R96, R398): every sector of an RMW or an engine
access to a remote home, of a walker's plain load the open choice, and of no read that a duplicate on the same die serves (R104). A
proposal filed in trapping mode reaches the context before its next issue. -/
def countVa (s : State) (a : Acc) (u : Use) (fixed : Bool) (va n : Nat) : State :=
  (vaSectors s a va n).foldl (fun s x =>
    if (u == .load && dupHere s a x.2.pte) || (!fixed && !Config.plainCrosses s.free x.1) then s
    else countLater s (dirtyOf s a x) (active s)) s

/-- The sectors that a plain store by a step leaves to be written back across a port (R244). -/
def dirtyVa (s : State) (a : Acc) (va n : Nat) : State :=
  (vaSectors s a va n).foldl (fun s x => leaveDirty s (dirtyOf s a x)) s

/-- What n bytes hold at their home (R77, R78): for an RMW by a walker or a step, or for a look that writes nothing. -/
def vaHome (s : State) (a : Acc) (u : Use) (va n : Nat) : Except Halt (Nat × State) :=
  match vaKeys s a u va n with
  | .error e => .error e
  | .ok (keys, s) => .ok (metNat s keys, performAt s (active s) keys)

/-- An acquire of n bytes at a scope by a walker or a step, performed at the home (R104). -/
def vaAcquire (s : State) (a : Acc) (scope va n : Nat) : Except Halt (Nat × State) :=
  match vaKeys s a .load va n with
  | .error e => .error e
  | .ok (keys, s) =>
    if mixedSize s keys then .error (.cause 0x31 va)
    else
      let t := acquireFrom (performAt s (active s) keys) scope (keys.headD 0)
      .ok (metNat s keys, noteStrong (countVa t a .store true va n) keys)

/-- A plain load of n bytes by a walker or a step acting for the group (R74, R83), which sees the group's own pending stores (R81). -/
def vaPlain (s : State) (a : Acc) (va n : Nat) : Except Halt (Nat × State) :=
  match vaKeys s a .load va n with
  | .error e => .error e
  | .ok (keys, s) =>
    let p := partyFor s (active s)
    let byte (x : Nat × Nat) : Byte := (forwarded s (active s) (va + x.2) x.1).getD (plainByte s p.ord p.lanes p.ag 0 x.1)
    .ok (natOfBytes ((keys.zip (upto keys.length)).map byte), countVa s a .load false va n)

/-- A read of n bytes of a key/value structure (R136, R269). -/
def vaStruct (s : State) (a : Acc) (va n : Nat) : Except Halt (Nat × State) :=
  match vaKeys s a .load va n with
  | .error e => .error e
  | .ok (keys, s) =>
    let p := partyFor s (active s)
    let cut := structTurn s
    let byte (x : Nat × Nat) : Byte := (forwarded s (active s) (va + x.2) x.1).getD (stepByte s p.ord p.lanes cut x.1)
    .ok (natOfBytes ((keys.zip (upto keys.length)).map byte), countVa s a .load false va n)

/-- A step on a key/value structure has been made. -/
def stepMade (s : State) : State := { s with ms := { s.ms with turn := s.ms.turn + 1 } }

/-- A plain store of n bytes by a step acting for the group. -/
def vaPut (s : State) (a : Acc) (va n x : Nat) : Except Halt State :=
  match vaKeys s a .store va n with
  | .error e => .error e
  | .ok (keys, s) =>
    let (ev, s) := takeFresh s
    let t := quieten (plainPut s (partyFor s (active s)) ev keys (bytesOfNat n x)) ev (quietLanes s (active s))
    let t := followLog t (active s) ev va ((upto n).zip keys)
    .ok (dirtyVa (learnFor t [ev] (active s)) a va n)

/-- Writes n bytes by an acquire-release RMW at tenant scope of the acting group (R132, R133). -/
def vaRmw (s : State) (a : Acc) (va n x : Nat) : Except Halt State :=
  match vaKeys s a .store va n with
  | .error e => .error e
  | .ok (keys, s) =>
    if mixedSize s keys then .error (.cause 0x31 va)
    else .ok (putObject (acquireFrom (countVa s a .store true va n) 3 (keys.headD 0)) (active s) 3 true keys x)

/-- Writes n bytes by a release at tenant scope that is no RMW: it ends the release chain that it finds (R72, R133, R135). -/
def vaRelease (s : State) (a : Acc) (va n x : Nat) : Except Halt State :=
  match vaKeys s a .store va n with
  | .error e => .error e
  | .ok (keys, s) =>
    if mixedSize s keys then .error (.cause 0x31 va)
    else
      let s := arriveAll (performAt (countVa s a .store true va n) (active s) keys) s.g.ord (active s)
      let (ev, s) := takeFresh s
      let p := partyFor s (active s)
      let s := strongPut s p ev 3 (relsOf p.ord p.lanes true 3 p.ag ev) keys (bytesOfNat n x)
      .ok (learnFor (noteStrong s keys) [ev] (active s))

/-! ## Acting for a context -/

/-- The agent that stands in for a context on whose behalf the device acts: in no group, team or cluster of its own (R69). -/
def standIn (a : Acc) (ids : List Nat) : Ctx :=
  { noCtx with
    who := { noCtx.who with vf := a.vf, ident := a.ident + 2 ^ 16, loc := ⟨a.die, 64, 0, 0, 0⟩ }
    mode := a.mode, s0 := ⟨true, 0, 0xFFFFFFFF, .none⟩, ord := learn noCtx.ord ids 0xFFFFFFFF }

/-- The state in which the stand-in acts. -/
def enter (s : State) (a : Acc) (ids : List Nat) : State := { s with g := standIn a ids, onAp := false, others := allCtx s }

/-- Gives the issue back to the context that had it in `s`. -/
def leave (s t : State) : State :=
  if s.g.live then { t with g := t.others.headD s.g, onAp := s.onAp, others := t.others.drop 1 }
  else { t with g := s.g, onAp := s.onAp }

/-- Runs a computation with a context's access rights and what is before it: also what is before its end. -/
def runAs {α : Type} (s : State) (a : Acc) (ids : List Nat) (m : State → Except Halt (α × State)) : Except Halt (α × List Nat × State) :=
  match m (enter s a ids) with
  | .error e => .error e
  | .ok (x, t) => .ok (x, knownIds t.g.ord 0xFFFFFFFF, leave s t)

/-- The device acts for a context, with what is before it. -/
def actAs (s : State) (a : Acc) (ids : List Nat) (f : State → State) : State := leave s (f (enter s a ids))

/-- What an instruction does when a step that it makes is halted (R100, R105, R151). -/
def haltRes (s : State) (h : Halt) : Res :=
  match h with
  | .hold pte => .wait .held (collapseAt s pte)
  | .cause c va =>
    if c = 0x30 then .after s ⟨0x30, .c, 0, active s, BitVec.ofNat 64 va, curPc s⟩ else .trap (preciseAt s c va)

end Sys2Proof.Machine
end

