-- ==== Sys2Proof/Machine/Table.lean ====
section
/-! DEFINITION. Steps of walkers and engines, and the block table that they share (06; R125 to R128, R132). -/

namespace Sys2Proof.Machine

/-! ## Steps of a walker or of an engine -/

/-- A computation that reads and writes for the group that acts, and may be stopped. -/
abbrev Kv (α : Type) := StateT State (Except Halt) α

/-- Stops with a cause. -/
def kvFail {α : Type} (c : Nat) : Kv α := fun _ => .error (.cause c 0)

/-- Stops with a cause if a condition holds. -/
def kvWhen (b : Bool) (c : Nat) : Kv Unit := if b then kvFail c else pure ()

/-- Waits while a condition holds. -/
def kvHold (b : Bool) : Kv Unit := fun s => if b then .error (.hold 0) else .ok ((), s)

/-- A plain load of n bytes. -/
def kvRd (a : Acc) (va n : Nat) : Kv Nat := fun s => vaPlain s a va n

/-- A read of n bytes of a structure (R269). -/
def kvStruct (a : Acc) (va n : Nat) : Kv Nat := fun s => vaStruct s a va n

/-- What an RMW of n bytes reads. -/
def kvHome (a : Acc) (va n : Nat) : Kv Nat := fun s => vaHome s a .store va n

/-- What n bytes hold at their home, for a step that does not write them. -/
def kvPeek (a : Acc) (va n : Nat) : Kv Nat := fun s => vaHome s a .load va n

/-- An acquire-release RMW at tenant scope. -/
def kvRmw (a : Acc) (va n x : Nat) : Kv Unit := fun s =>
  match vaRmw s a va n x with
  | .ok s => .ok ((), s)
  | .error e => .error e

/-- An acquire of n bytes at tenant scope. -/
def kvAcquire (a : Acc) (va n : Nat) : Kv Nat := fun s => vaAcquire s a 3 va n

/-- A release of n bytes at tenant scope. -/
def kvRelease (a : Acc) (va n x : Nat) : Kv Unit := fun s =>
  match vaRelease s a va n x with
  | .ok s => .ok ((), s)
  | .error e => .error e

/-- A plain write by who acts. -/
def kvPut (a : Acc) (va n x : Nat) : Kv Unit := fun s =>
  match vaPut s a va n x with
  | .ok s => .ok ((), s)
  | .error e => .error e

/-- Copies n bytes. -/
def kvCopy (a : Acc) (src dst n : Nat) : Kv Unit := do
  let x ← kvRd a src n
  kvPut a dst n x

/-- Runs a computation for each element of a list, in order. -/
def kvEach {α : Type} (f : α → Kv Unit) : List α → Kv Unit
  | [] => pure ()
  | x :: t => do f x; kvEach f t

/-- Collects the results of a computation over a list, in order. -/
def kvMap {α β : Type} (f : α → Kv β) : List α → Kv (List β)
  | [] => pure []
  | x :: t => do let y ← f x; let l ← kvMap f t; pure (y :: l)

/-- The state of a computation. -/
def kvState : Kv State := fun s => .ok (s, s)

/-- Changes the state. -/
def kvMod (f : State → State) : Kv Unit := fun s => .ok ((), f s)

/-- Replaces bits [hi:lo] of a value. -/
def setBits (x hi lo v : Nat) : Nat := x - (bits x hi lo <<< lo) + ((v % 2 ^ (hi + 1 - lo)) <<< lo)

/-- No block, tag, node or free entry. -/
def none32 : Nat := 0xFFFFFFFF

/-! ## Descriptors and the KV root -/

/-- A sequence descriptor (R125). -/
structure SeqDesc where
  at_ : Nat
  model : Nat
  version : Nat
  layers : Nat
  heads : Nat
  dim : Nat
  efmt : Nat
  length : Nat
  root : Nat
  tok : Nat
deriving DecidableEq, Repr

/-- The bytes of an element (R126). -/
def SeqDesc.esize (d : SeqDesc) : Nat := if d.efmt < 2 then 2 else 1

/-- H × D × e: the bytes of one token's keys in one layer (R126). -/
def SeqDesc.row (d : SeqDesc) : Nat := d.heads * d.dim * d.esize

/-- LS (R126). -/
def SeqDesc.ls (d : SeqDesc) : Nat := 32 * d.row

/-- The number format of the elements (R125). -/
def SeqDesc.fmt (d : SeqDesc) : Fmt := if d.efmt = 0 then bf16 else if d.efmt = 1 then f16 else if d.efmt = 2 then e4m3 else e5m2

/-- Reads a sequence descriptor (R125). -/
def readSeq (a : Acc) (va : Nat) : Kv SeqDesc := do
  let x ← kvStruct a va 64
  let layers := bits x 39 32
  let heads := bits x 47 40
  let bad := layers == 0 || heads == 0 || decide (64 < heads) || bits x 55 53 != 0 || decide (3 < bits x 59 56) ||
    bits x 63 60 != 0 || bits x 191 185 != 0 || bits x 511 192 != 0
  kvWhen bad 0x02
  pure ⟨va, bits x 15 0, bits x 31 16, layers, heads, 8 * (bits x 52 48 + 1), bits x 59 56, bits x 95 64, bits x 127 96, bits x 184 128⟩

/-- The KV root (R127). -/
structure KvRoot where
  at_ : Nat
  tbl : Nat
  count : Nat
  nodes : Nat
  nnodes : Nat
  tags : Nat
  win : Nat
deriving DecidableEq, Repr

/-- Reads the KV root of the acting group's VF: 0xA4 if it is not in use, 0x02 for a reserved value (R127). -/
def readRoot (a : Acc) : Kv KvRoot := do
  let s ← kvState
  let k := (vfReg s a.vf 0x050).toNat
  kvWhen (!bit k 63) 0xA4
  let at_ := bits k 56 6 * 64
  let x ← kvStruct a at_ 64
  let lg := bits x 68 64
  kvWhen (decide (lg < 4) || decide (24 < lg) || bits x 95 69 != 0 || bits x 511 448 != 0) 0x02
  pure ⟨at_, bits x 56 0, 2 ^ lg, bits x 184 128, bits x 223 192, bits x 312 256, bits x 376 320⟩

/-! ## The block table (R128) -/

/-- BADDR of an entry. -/
def eBaddr (x : Nat) : Nat := bits x 47 0
/-- REF of an entry. -/
def eRef (x : Nat) : Nat := bits x 63 48
/-- PIN of an entry. -/
def ePin (x : Nat) : Nat := bits x 71 64
/-- RWM of an entry. -/
def eRwm (x : Nat) : Nat := bits x 79 72
/-- VALID of an entry. -/
def eValid (x : Nat) : Bool := bit x 80
/-- PEND of an entry. -/
def ePend (x : Nat) : Bool := bit x 81
/-- FILL of an entry. -/
def eFill (x : Nat) : Nat := bits x 86 82
/-- PSTATE of an entry. -/
def ePstate (x : Nat) : Nat := bits x 89 87
/-- DREL of an entry. -/
def eDrel (x : Nat) : Bool := bit x 90
/-- RFAIL of an entry. -/
def eRfail (x : Nat) : Bool := bit x 91
/-- PROV of an entry. -/
def eProv (x : Nat) : Nat := bits x 127 96

/-- The address of an entry. -/
def entryVa (r : KvRoot) (b : Nat) : Nat := r.tbl + 16 * b

/-- The address of the block that an entry describes. -/
def blockVa (r : KvRoot) (e : Nat) : Nat := r.win + 256 * eBaddr e

/-- An entry as a walk or a check reads it. -/
def readEntry (a : Acc) (r : KvRoot) (b : Nat) : Kv Nat := kvStruct a (entryVa r b) 16

/-- One RMW on an entry. -/
def updEntry (a : Acc) (r : KvRoot) (b : Nat) (f : Nat → Nat) : Kv Unit := do
  let x ← kvHome a (entryVa r b) 16
  kvRmw a (entryVa r b) 16 (f x)

/-- Takes the first free entry (R128, R133): 0xA7 if there is none, 0xA4 if the list is malformed. The entry keeps its
BADDR; `fill`, `pstate` and `prov` are its new fields. -/
def takeFree (a : Acc) (r : KvRoot) (fill pstate prov : Nat) : Kv Nat := do
  let b ← kvHome a (r.at_ + 12) 4
  kvWhen (b == none32) 0xA7
  kvWhen (decide (r.count ≤ b)) 0xA4
  let x ← kvHome a (entryVa r b) 16
  kvWhen (eValid x) 0xA4
  kvRmw a (r.at_ + 12) 4 (eProv x)
  kvRmw a (entryVa r b) 16
    (eBaddr x + 2 ^ 48 + 2 ^ 80 * (1 + 4 * fill + 128 * pstate) + 2 ^ 96 * prov)
  pure b

/-- Puts an entry on the free list (R132). -/
def freeEntry (a : Acc) (r : KvRoot) (b x : Nat) : Kv Unit := do
  let f ← kvHome a (r.at_ + 12) 4
  kvRmw a (entryVa r b) 16 (setBits (setBits (setBits x 80 80 0) 90 90 0) 127 96 f)
  kvRmw a (r.at_ + 12) 4 b

/-- Adds a signed delta to REF (R132); the new REF. A delta of 0 changes nothing (R262). -/
def addRef (a : Acc) (r : KvRoot) (b : Nat) (delta : Int) : Kv Nat := do
  let x ← kvHome a (entryVa r b) 16
  let n := (eRef x : Int) + delta
  kvWhen (!eValid x || eDrel x || decide (n < 0) || decide (0xFFFF < n)) 0xA8
  let y := setBits x 63 48 n.toNat
  if delta = 0 then kvRmw a (entryVa r b) 16 x
  else if n = 0 then
    if ePin x = 0 then freeEntry a r b y
    else do
      kvRmw a (entryVa r b) 16 (setBits y 90 90 1)
      let c ← kvHome a (r.at_ + 28) 4
      kvRmw a (r.at_ + 28) 4 (min (c + 1) 0xFFFFFFFF)
  else kvRmw a (entryVa r b) 16 y
  pure n.toNat

/-- Pins a block; waits at PIN = 255 (R132). -/
def pinBlock (a : Acc) (r : KvRoot) (b : Nat) : Kv Unit := do
  let x ← kvHome a (entryVa r b) 16
  kvHold (ePin x == 255)
  kvRmw a (entryVa r b) 16 (setBits x 71 64 (ePin x + 1))

/-- Unpins a block; the last unpin completes a deferred release (R132). -/
def unpinBlock (a : Acc) (r : KvRoot) (b : Nat) : Kv Unit := do
  let x ← kvHome a (entryVa r b) 16
  let y := setBits x 71 64 (ePin x - 1)
  if ePin x = 1 && eDrel x then freeEntry a r b y else kvRmw a (entryVa r b) 16 y

end Sys2Proof.Machine
end

