-- ==== Sys2Proof/Machine/Records.lean ====
section
/-! DEFINITION. Records and their queues (R39 to R44, R64), joins (R53 to R55), and what the device does in memory on a
program's behalf after the instruction that asked for it (R132, R142). -/

namespace Sys2Proof.Machine

/-! ## Records -/

/-- CODE of a record (R39). -/
def recCode (x : Nat) : Nat := x % 2 ^ 57
/-- FRAME of a record. -/
def recFrame (x : Nat) : Nat := x / 2 ^ 64 % 2 ^ 64
/-- JOIN of a record. -/
def recJoin (x : Nat) : Nat := x / 2 ^ 128 % 2 ^ 64
/-- Bytes 24..31 of a record. -/
def recCtl (x : Nat) : Nat := x / 2 ^ 192 % 2 ^ 64
/-- PRIO of a record. -/
def recPrio (x : Nat) : Nat := bits (recCtl x) 1 0
/-- KIND of a record. -/
def recKind (x : Nat) : Nat := bits (recCtl x) 3 2
/-- CLASS of a record. -/
def recClass (x : Nat) : Nat := bits (recCtl x) 7 4
/-- TAKEN of a record. -/
def recTaken (x : Nat) : Bool := bit (recCtl x) 63

/-- A record with these fields. -/
def mkRecord (code frame join prio kind cls : Nat) : Nat :=
  code % 2 ^ 57 + 2 ^ 64 * (frame % 2 ^ 64) + 2 ^ 128 * (join % 2 ^ 64) + 2 ^ 192 * (prio + 4 * kind + 16 * cls)

/-- KIND or a reserved field holds a reserved value (R40). -/
def recReserved (x : Nat) : Bool := bits x 63 57 != 0 || recKind x == 3 || bits (recCtl x) 62 8 != 0

/-- The dispatcher's check of a popped record (R40); `cluster` 64 is the scalar die's set. -/
def recBad (cluster x : Nat) : Bool :=
  recReserved x || recCode x % 4 != 0 || (if cluster = 64 then recKind x != 1 else recKind x == 1)

/-! ## Record queues -/

/-- The header of a VF's queue for a cluster (32 d + c, 64 for the scalar die) and priority (R42). -/
def headerAt (s : State) (vf cluster prio : Nat) : Nat :=
  bits (vfReg s vf 0x100).toNat 56 6 * 64 + (cluster * 4 + prio) * 64

/-- LOG2 of a header. -/
def qLog (s : State) (h : Nat) : Nat := physNat s (h + 8) 4
/-- HEAD of a header. -/
def qHeadCount (s : State) (h : Nat) : Nat := physNat s (h + 12) 4
/-- TAIL of a header. -/
def qTailCount (s : State) (h : Nat) : Nat := physNat s (h + 16) 4

/-- LOG2 holds a reserved value (R42). -/
def qReserved (s : State) (h : Nat) : Bool := let l := qLog s h; decide (l < 4) || decide (16 < l)

/-- The queue is full (R42). -/
def qFull (s : State) (h : Nat) : Bool :=
  (qTailCount s h + 2 ^ 32 - qHeadCount s h) % 2 ^ 32 == 2 ^ qLog s h

/-- The slot of the record at a count. -/
def qSlot (s : State) (h n : Nat) : Nat := physNat s h 8 + 32 * (n % 2 ^ qLog s h)

/-- Counts one in the 32-bit field at an offset of a header; JERR saturates (R42). -/
def qCount (s : State) (h off : Nat) : State :=
  let x := physNat s (h + off) 4
  physPut s (h + off) 4 (if x = 0xFFFFFFFF then (if off = 24 then x else 0) else x + 1)

/-- Who acts writes a record into its queue, which is not full: slot and TAIL, a release at tenant scope (R43). The push is `ident`'s
from the cluster `issuer`. -/
def qWrite (s : State) (h data ident issuer : Nat) (ids : List Nat) : State :=
  let n := qTailCount s h
  let s := putObject s (active s) 3 true (physKeys s (qSlot s h n) 32) data
  let s := putObject s (active s) 3 true (physKeys s (h + 16) 4) ((n + 1) % 2 ^ 32)
  let rest := s.wk.notes.filter fun x => x.header != h || x.count != n
  { s with wk := { s.wk with notes := rest ++ [⟨h, n, ident, issuer, ids⟩] } }

/-- The cluster to which a context's pushes and joins go (R43, R54). -/
def issuingCluster (l : Loc) : Nat :=
  if l.die = 2 then 32 * (l.num / 32 % 2) + l.num % 32 else 32 * l.die + l.cluster

/-- The address of a node entry (R64). -/
def nodeAt (s : State) (n : Nat) : Nat := bits (devReg s 0x112).toNat 55 12 * 4096 + 32 * n

/-- The number of node entries (R64). -/
def nodeCount (s : State) : Nat := bits (devReg s 0x112).toNat 11 0

/-- The input queue of a node (R64). -/
def nodeQueue (s : State) (n : Nat) : Nat := physNat s (nodeAt s n + 8) 8

/-- The queue into which a record goes (R43, R64): none for a graph record whose node does not exist. -/
def queueOf (s : State) (vf cluster data : Nat) : Option Nat :=
  if recClass data = 15 then
    if nodeCount s ≤ recFrame data then none else some (nodeQueue s (recFrame data))
  else some (headerAt s vf (if recKind data = 1 then 64 else cluster) (recPrio data))

/-- What enqueueing a record comes to: it is queued or held in the overflow buffer, or discarded with a cause. -/
inductive Enq
  | done (s : State)
  | discard (s : State) (cause : Nat)
deriving DecidableEq, Repr

/-- A record that the device itself enqueues, as who acts (R44, R54): into the queue that it selects. A CLASS 15 continuation is not refused
for the mode of who joined: R40 tests the mode of a gcpush (DESIGN CHOICE, notes/assumptions/92.md). -/
def enqueue (s : State) (vf cluster data ident issuer : Nat) (ids : List Nat) : Enq :=
  match queueOf s vf cluster data with
  | none => .discard (qCount s (headerAt s vf cluster (recPrio data)) 20) 0x69
  | some h =>
    if qReserved s h then .discard (qCount s h 20) 0x63
    else if recReserved data || recTaken data then .discard (qCount s h 20) 0x02
    else if qFull s h then
      .done { s with wk := { s.wk with overflow := s.wk.overflow ++ [⟨vf, cluster, data, ident, issuer, ids⟩] } }
    else .done (qWrite s h data ident issuer ids)

/-- The device enqueues a record with the rights of `a`: what is left to do is the join of one that is discarded (R44, R54). -/
def enqueueAs (s : State) (a : Acc) (cluster data issuer : Nat) (ids : List Nat) : List Join × State :=
  match enqueue (enter s a ids) a.vf cluster data a.ident issuer ids with
  | .done t => ([], leave s t)
  | .discard t c =>
    (if recJoin data = 0 then [] else [⟨a, cluster, recPrio data, recJoin data, true, c, ids⟩], leave s t)

/-! ## Joins -/

/-- FAIL and CAUSE of a join block after a failing join (R53, R54). -/
def failedWord (word cause : Nat) : Nat := setBits (setBits word 15 8 cause) 0 0 1

/-- The RMW of a join by who acts (R54), on the first eight bytes of its block, whose COUNT is `count`: a release at tenant scope
that carries on what earlier joins released (R55). -/
def joinRmw (s : State) (keys : List Nat) (count : Nat) (fail : Bool) (cause : Nat) : State :=
  let s := if fail then putObject s (active s) 3 false (keys.drop 4) (failedWord (metNat s (keys.drop 4)) cause) else s
  putObject s (active s) 3 true (keys.take 4) (count - 1)

/-- The events that an acquire at tenant scope of the write at a key gains (R55, R72). -/
def gained (s : State) (key : Nat) : List Nat := acquired (relsAt s (active s) key) 3 (agentOf s.g)

/-- The access rights of a repair. -/
def Repair.acc (r : Repair) : Acc := ⟨r.vf, r.ident, r.mode, r.die⟩

/-- The join block of a repair's layer is at a key. -/
def Repair.joinsAt (r : Repair) (s : State) (key : Nat) : Bool :=
  match vaKeys s r.acc .load r.joinAt 4 with
  | .ok (keys, _) => keys.headD 0 == key
  | .error _ => false

/-- The repair whose layer join block is at a key: one that runs, else one that was abandoned (R140). -/
def layerJoin (s : State) (key : Nat) : Option Repair :=
  match s.en.repairs.find? fun r => r.stage == .layers && r.joinsAt s key with
  | some r => some r
  | none => s.en.repairs.find? fun r => r.stage == .gone && r.joinsAt s key

/-- Replaces a repair, or removes it. -/
def setRepair (s : State) (num : Nat) (r : Option Repair) : State :=
  { s with en := { s.en with repairs := (s.en.repairs.filter fun x => x.num != num) ++ r.toList } }

/-- What abandoning a repair comes to (R142); with `rwm` its blocks first get that watermark (R270). -/
def Repair.abandonment (r : Repair) (rwm : Option Nat) : Chore :=
  .abandon r.acc (r.blocks.map fun b => r.tbl + 16 * b) rwm r.ids
    (if r.join = 0 then none else some ⟨r.acc, r.cluster, r.prio, r.join, true, 0xA3, []⟩)

/-- The join that ends a repair (R140). -/
def Repair.finalJoin (r : Repair) : Chore := .join ⟨r.acc, r.cluster, r.prio, r.join, false, 0, r.ids⟩

/-- Anneal pushes no further record of an abandoned repair: those of its layer in an overflow buffer are dropped (R142). -/
def dropFrames (s : State) (r : Repair) : State :=
  let mine (o : Overflow) : Bool := o.vf == r.vf && o.ident == r.ident && r.stage == .layers && recJoin o.data == r.joinAt
  { s with wk := { s.wk with overflow := s.wk.overflow.filter fun o => !mine o } }

/-- The header that counts what a device join refuses (R54). -/
def refuseJoin (s : State) (j : Join) : State := qCount s (headerAt s j.acc.vf j.cluster j.prio) 24

/-- A block's CONT is enqueued when its COUNT reaches 0 (R54). -/
def continueJoin (s : State) (j : Join) (ids : List Nat) (cont : Nat) : List Chore × State :=
  let (more, s) := enqueueAs s j.acc j.cluster cont j.cluster ids
  (more.map .join, s)

/-- What follows the RMW of a join on the block at `key`, whose COUNT is now `left` (R54, R140, R142). A layer join block of a repair
signals Anneal; one whose repair was abandoned stays Anneal's until its COUNT is 0, while its CONT is as Anneal wrote it (DEDUCED,
notes/assumptions/79.md). -/
def afterJoin (s : State) (j : Join) (key left : Nat) (ids : List Nat) : List Chore × State :=
  match vaHome s j.acc .load (j.addr + 32) 32 with
  | .error _ => ([], s)
  | .ok (cont, _) =>
    match layerJoin s key with
    | none => if left = 0 then continueJoin s j ids cont else ([], s)
    | some r =>
      let gone : Option Repair := if left = 0 then none else some { r with stage := .gone }
      if r.stage == .gone then
        if left ≠ 0 then ([], s)
        else
          let s := setRepair s r.num none
          if cont = 0 then ([], s) else continueJoin s j ids cont
      else if j.fail then ([r.abandonment none], setRepair (dropFrames s r) r.num gone)
      else ([], s)

/-- A join by the device (R54). It waits for a page that is moving; a block that it cannot reach, or that is misaligned or spent, is
counted. -/
def joinStep (s : State) (j : Join) : Except State (List Chore × State) :=
  if j.addr % 64 != 0 then .ok ([], refuseJoin s j)
  else
    match vaKeys s j.acc .store j.addr 8 with
    | .error (.hold pte) => .error (collapseAt s pte)
    | .error (.cause _ _) => .ok ([], refuseJoin s j)
    | .ok (keys, t) =>
      let u := enter t j.acc j.ids
      let count := metNat u (keys.take 4)
      if count = 0 then .ok ([], refuseJoin t j)
      else
        let u := joinRmw u keys count j.fail j.cause
        let ids := gained u (keys.headD 0)
        .ok (afterJoin (leave t u) j (keys.headD 0) (count - 1) ids)

/-! ## Chores -/

/-- What abandonment does to one entry (R142, R270). -/
def failEntry (a : Acc) (at_ : Nat) (rwm : Option Nat) : Kv Unit := do
  match rwm with
  | some n => do
    let x ← kvHome a at_ 16
    kvRmw a at_ 16 (setBits x 79 72 n)
  | none => pure ()
  let x ← kvHome a at_ 16
  kvRmw a at_ 16 (setBits (setBits x 91 91 1) 81 81 0)

/-- A load of a window of a group is still in flight. -/
def stillFlying (s : State) (w : Option (Nat × Nat)) : Bool :=
  match w with
  | none => false
  | some (uid, since) => (s.g :: s.others).any fun c =>
      c.live && c.who.uid == uid && c.wins.any fun w => w.since == since && !w.srcs.isEmpty

/-- A chore is done, with what follows it, or waits. An entry of an abandoned repair that cannot be reached is left; an unpin that
cannot be made is tried again. -/
def choreStep (s : State) : Chore → Except State (List Chore × State)
  | .join j => joinStep s j
  | .abandon _ [] _ ids last => .ok (last.toList.map fun j => .join { j with ids := ids }, s)
  | .abandon a (e :: t) rwm ids last =>
    match runAs s a ids (failEntry a e rwm) with
    | .error (.hold pte) => .error (collapseAt s pte)
    | .error (.cause _ _) => .ok ([.abandon a t rwm ids last], s)
    | .ok (_, ids, u) => .ok ([.abandon a t rwm ids last], u)
  | .unpin a b ids after =>
    if stillFlying s after then .error s
    else
    match runAs s a ids (do let r ← readRoot a; unpinBlock a r b : Kv Unit) with
    | .error (.hold pte) => .error (collapseAt s pte)
    | .error (.cause _ _) => .error s
    | .ok (_, _, u) => .ok ([], u)

/-- A chore is left for later. -/
def keepChore (s : State) (x : Chore) : State := { s with en := { s.en with chores := s.en.chores ++ [x] } }

/-- Does chores and what follows them, in order; those that wait stay. -/
def runChores : Nat → State → List Chore → State
  | _, s, [] => s
  | 0, s, x :: t => { s with en := { s.en with chores := s.en.chores ++ x :: t } }
  | n + 1, s, x :: t =>
    match choreStep s x with
    | .error u => runChores n (keepChore u x) t
    | .ok (more, u) => runChores n u (more ++ t)

/-- How many chores one chore may bring about. -/
def choreFuel : Nat := 65536

/-- Does a chore. -/
def doChore (s : State) (x : Chore) : State := runChores choreFuel s [x]

/-- A repair whose final join has been made is over (R142). -/
def joinedRepairs (s : State) : State :=
  { s with en := { s.en with repairs := s.en.repairs.filter fun r => r.stage != .ending || s.en.chores.contains r.finalJoin } }

/-- Tries again the chores that wait. -/
def retryChores (s : State) : State :=
  match s.en.chores with
  | [] => s
  | l => joinedRepairs (runChores choreFuel { s with en := { s.en with chores := [] } } l)

/-- A join on the behalf of a record, gang request or repair, if it names a block. -/
def joinFor (s : State) (a : Acc) (cluster prio join : Nat) (fail : Bool) (cause : Nat) (ids : List Nat) : State :=
  if join = 0 then s else doChore s (.join ⟨a, cluster, prio, join, fail, cause, ids⟩)

/-- Abandons a repair (R142); the join block of its layer stays Anneal's. -/
def abandon (s : State) (r : Repair) (rwm : Option Nat) : State :=
  doChore (setRepair (dropFrames s r) r.num (if r.stage == .layers then some { r with stage := .gone } else none)) (r.abandonment rwm)

end Sys2Proof.Machine
end

