-- ==== Sys2Proof/Machine/Work.lean ====
section
/-! DEFINITION. Work (02; R37 to R55, R64, R65; R304 to R309): resources of cores, creating contexts, gang admission, the
dispatchers, the instructions that create, join and end work, and the end of a group. -/

namespace Sys2Proof.Machine

/-! ## Resources -/

/-- The number of a core: 256 d + 8 c + k on a compute die, 512 + s for a scalar core. -/
def coreNum (l : Loc) : Nat := coreId l

/-- The place of context `num` of partition `part` of a core. -/
def locOf (core part num : Nat) : Loc :=
  if 512 ≤ core then ⟨2, 0, core - 512, 0, 2 * (core - 512) + num⟩ else ⟨core / 256, core % 256 / 8, core % 8, part, num⟩

/-- The unit of a compute core, or the byte of a scalar core, in a row of the quantum table (R353). -/
def unitOf (core : Nat) : Nat :=
  if 512 ≤ core then 128 + (core - 512) else 64 * (core / 256) + 2 * (core % 256 / 8) + core % 8 / 4

/-- QCTL.ROW (R351). -/
def curRow (s : State) : Nat := bits (devReg s 0x111).toNat 20 16

/-- The VF that holds a core in the current row (R353, R355). -/
def coreVf (s : State) (core : Nat) : Option Nat :=
  match s.qt.rows[curRow s]? with
  | none => none
  | some r => let b := r.units.getD (unitOf core) 0; if bit b 7 then some (b % 16) else none

/-- A core is stopped, by ghalt or with its unit (R323, R380). -/
def coreStopped (s : State) (l : Loc) : Bool := s.mg.halted.contains (haltUnit l) || s.mg.cores.contains (coreNum l)

/-- The contexts of a partition that hold a group. -/
def usedCtx (s : State) (core part : Nat) : List Ctx :=
  (allCtx s).filter fun c => coreNum c.who.loc == core && c.who.loc.part == part

/-- The contexts that a partition has: 12, two on a scalar core. -/
def ctxSlots (core : Nat) : Nat := if 512 ≤ core then 2 else 12

/-- The partitions of a core. -/
def partsOf (core : Nat) : List Nat := if 512 ≤ core then [0] else [0, 1, 2, 3]

/-- The free contexts of a partition. -/
def freeCtx (s : State) (core part : Nat) : Nat := ctxSlots core - (usedCtx s core part).length

/-- The free contexts of a core. -/
def freeCore (s : State) (core : Nat) : Nat := ((partsOf core).map (freeCtx s core)).foldl (· + ·) 0

/-- The lowest free context number of a partition. -/
def freeNum (s : State) (core part : Nat) : Nat :=
  let taken := (usedCtx s core part).map fun c => if 512 ≤ core then c.who.loc.num % 2 else c.who.loc.num
  ((upto (ctxSlots core)).find? fun n => !taken.contains n).getD 0

/-- The free tiles of a partition: ATS = 16 less those held (R119). -/
def freeTiles (s : State) (core part : Nat) : Nat := 16 - ((usedCtx s core part).map (·.mx.held)).foldl (· + ·) 0

/-- The first of a list with the greatest number. -/
def mostOf (f : Nat → Nat) : List Nat → Option Nat
  | [] => none
  | x :: t => match mostOf f t with | some y => if f x < f y then some y else some x | none => some x

/-- The identifiers that a VF's contexts hold, saved ones among them (R349). -/
def usedIdents (s : State) (vf : Nat) : List Nat :=
  ((allCtx s).filter fun c => c.who.vf == vf).map (·.who.ident) ++
    (s.en.saved.filter fun x => x.who.vf == vf && x.by_ != 0).map (·.who.ident)

/-- The lowest free identifier of a VF's range (R349). -/
def freeIdent (s : State) (vf : Nat) : Option Nat :=
  let r := (vfReg s vf 0x107).toNat
  let used := usedIdents s vf
  ((upto (bits r 24 12)).map (bits r 11 0 + ·)).find? fun n => !used.contains n

/-- The regions of a core's vault that resident teams hold: start and length, in the vault. -/
def vaultTaken (s : State) (core : Nat) : List (Nat × Nat) :=
  (s.wk.gangs.filter fun g => !g.saved).flatMap fun g =>
    (g.teams.filter fun t => t.core == core && t.entry.vault != 0).map fun t => (t.base % 2 ^ 21, 4096 * t.entry.vault)

/-- The lowest start, on a 4 KiB boundary, of a free run of the core's vault (R50). -/
def vaultRun (taken : List (Nat × Nat)) (units : Nat) : Option Nat :=
  ((upto 512).map (4096 * ·)).find? fun a =>
    decide (a + 4096 * units ≤ 2 ^ 21) &&
      taken.all fun t => decide (t.1 + t.2 ≤ a) || decide (a + 4096 * units ≤ t.1)

/-- The vault address of a place in a core's own vault (R171). -/
def vaultBase (core off : Nat) : Nat := core % 256 * 2 ^ 21 + off

/-! ## Creating contexts -/

/-- Trap state of a new context (R147). -/
def emptyTrap : Trap := ⟨0, 0, 0, 0, 0, 0, 0, 0, [0, 0, 0, 0]⟩

/-- No order. -/
def emptyOrder : Order := ⟨[], [], []⟩

/-- A new context: slot 0 live at a pc, every register not given 0 (R41). -/
def newCtx (who : Who) (prio : Nat) (mode : Mode) (pc : Nat) (mask : Mask) (held : Nat) (regs : Store Word) (ids : List Nat) :
    Ctx :=
  { live := true, who := who, prio := prio, mode := mode, s0 := ⟨true, BitVec.ofNat 57 pc, mask, .none⟩, s1 := emptySlot
    iss := false, regs := regs, seq := emptySeq, hseq := emptySeq, flags := 0, flmask := 0, pidx := 0, rth := 0
    akv := 0, dsp := 0, dsh := 0, top := none, waitCnt := 0, stamp := none, trap := emptyTrap, pend := none, replays := []
    cmdFault := none, wins := [], ap := none, ord := learn emptyOrder ids 0xFFFFFFFF, unres := false
    mx := ⟨held, [], [], none, 0⟩, endCause := none, redo := none }

/-- k registers from k0 on with the given values. -/
def kRegs (vals : List Nat) : Store Word :=
  ((upto vals.length).zip vals).foldl (fun r x => storeSet 0 r (kKey x.1) (BitVec.ofNat 32 x.2)) []

/-- The translations that a former context of an identifier made stay under their root only (R109, R350). -/
def renewTlb (s : State) (vf ident : Nat) : State :=
  { s with ms := { s.ms with tlb := mapWhere (fun e => e.vf == vf && e.ident == some ident) (fun e => { e with ident := none }) s.ms.tlb } }

/-- The context-table entry of the creating context is copied into the new one's (R350). -/
def copyEntry (s : State) (vf from_ dst : Nat) : State :=
  physPut (renewTlb s vf dst) (ctxEntryAt s vf dst) 16 (physNat s (ctxEntryAt s vf from_) 16)

/-- Adds a context to those that run. -/
def addCtx (s : State) (c : Ctx) : State := { s with others := s.others ++ [c] }

/-- The push of a record (R43, R350): who made it from which cluster, and what is before it; for a record that reached the queue
by ordinary stores, the first identifier of the VF and the queue's own cluster. -/
def noteOf (s : State) (vf cluster h count : Nat) : PushNote :=
  match s.wk.notes.find? fun x => x.header == h && x.count == count with
  | some x => x
  | none => ⟨h, count, bits (vfReg s vf 0x107).toNat 11 0, cluster % 64, []⟩

/-- The access rights with which a record is read and its join is made. -/
def PushNote.acc (x : PushNote) (vf cluster : Nat) : Acc := ⟨vf, x.ident, .usr, if cluster = 64 then 2 else cluster / 32⟩

/-- Forgets the push of a record that has been taken. -/
def dropNote (s : State) (h count : Nat) : State :=
  { s with wk := { s.wk with notes := s.wk.notes.filter fun x => x.header != h || x.count != count } }

/-! ## Gangs -/

/-- A gang descriptor (R48). -/
structure GangDesc where
  span : Bool
  restart : Bool
  teams : List TeamEntry
deriving DecidableEq, Repr

/-- A team entry, or none if it holds a reserved value (R48). -/
def teamEntry (x : Nat) : Option TeamEntry :=
  let a := x / 2 ^ 128 % 2 ^ 32
  let b := x / 2 ^ 160 % 2 ^ 32
  let groups := bits a 4 0
  if groups = 0 || 16 < groups || 8 < bits a 8 5 || a / 512 != 0 || 512 < bits b 9 0 || b / 1024 != 0 ||
      x / 2 ^ 192 != 0 then none
  else some ⟨x % 2 ^ 57, x / 2 ^ 64 % 2 ^ 64, groups, bits a 8 5, bits b 9 0⟩

/-- Reads team entries through a translation. -/
def readTeams (a : Acc) : Nat → State → Nat → Except Halt (Option (List TeamEntry) × State)
  | 0, s, _ => .ok (some [], s)
  | n + 1, s, va =>
    match vaPlain s a va 32 with
    | .error e => .error e
    | .ok (x, s) =>
      match readTeams a n s (va + 32) with
      | .error e => .error e
      | .ok (t, s) =>
        .ok (match teamEntry x, t with | some e, some l => some (e :: l) | _, _ => none, s)

/-- Reads a gang descriptor (R48, R49): none if it is misaligned or holds a reserved value. -/
def readGang (s : State) (a : Acc) (va : Nat) : Except Halt (Option GangDesc × State) :=
  if va % 32 != 0 then .ok (none, s)
  else
    match vaPlain s a va 32 with
    | .error e => .error e
    | .ok (h, s) =>
      let n := bits h 9 0
      if n = 0 || 512 < n || h / 4096 != 0 then .ok (none, s)
      else
        match readTeams a n s (va + 32) with
        | .error e => .error e
        | .ok (t, s) => .ok (t.map fun l => ⟨bit h 10, bit h 11, l⟩, s)

/-- The cores that the search of R50 goes through, from the pushing cluster (32 d + c). -/
def searchCores (span : Bool) (cluster : Nat) : List Nat :=
  let c := cluster % 32
  let onDie (d : Nat) : List Nat := (upto 32).flatMap fun i => (upto 8).map fun k => 256 * d + 8 * ((c + i) % 32) + k
  if span then onDie 0 ++ onDie 1 else onDie (cluster / 32)

/-- What the controller knows of a core while it places teams: free contexts and tiles of each partition, vault regions
taken. -/
structure CoreRoom where
  core : Nat
  ctxs : List Nat
  tiles : List Nat
  vault : List (Nat × Nat)
deriving DecidableEq, Repr

/-- The room of a core now. -/
def roomOf (s : State) (core : Nat) : CoreRoom :=
  ⟨core, (partsOf core).map (freeCtx s core), (partsOf core).map (freeTiles s core), vaultTaken s core⟩

/-- The room of an idle core (R49). -/
def idleRoom (core : Nat) : CoreRoom := ⟨core, [12, 12, 12, 12], [16, 16, 16, 16], []⟩

/-- What a team has taken of a core, as far as the core has it: the rotation of R50 without its refusals. -/
def reserveGroups (tiles : Nat) : Nat → Nat → CoreRoom → CoreRoom
  | 0, _, r => r
  | n + 1, start, r =>
    match ((upto 4).map fun i => (start + i) % 4).find? fun p => r.ctxs.getD p 0 != 0 with
    | none => r
    | some p =>
      reserveGroups tiles n (p + 1)
        { r with ctxs := setAt r.ctxs p (r.ctxs.getD p 0 - 1), tiles := setAt r.tiles p (r.tiles.getD p 0 - tiles) }

/-- What a hold reserves on a chosen core (R47): the contexts, tiles and vault space that are free there, until it holds what the
team needs. While no free run of the vault is long enough, every free byte may become part of the one that the team needs. -/
def reserve (e : TeamEntry) (r : CoreRoom) : CoreRoom :=
  let r := reserveGroups e.tiles e.groups ((mostOf (fun p => r.ctxs.getD p 0) [0, 1, 2, 3]).getD 0) r
  if e.vault = 0 then r
  else { r with vault := r.vault ++ [match vaultRun r.vault e.vault with | some off => (off, 4096 * e.vault) | none => (0, 2 ^ 21)] }

/-- The room of a core that no hold reserves (R47). -/
def openRoom (s : State) (core : Nat) : CoreRoom :=
  s.wk.heads.foldl (fun r h => (h.cores.filter fun x => x.1 == core).foldl (fun r x => reserve x.2 r) r) (roomOf s core)

/-- Free contexts of a partition that no hold reserves. -/
def openCtx (s : State) (core part : Nat) : Nat := (openRoom s core).ctxs.getD part 0

/-- Free contexts of a core that no hold reserves. -/
def openCore (s : State) (core : Nat) : Nat := (openRoom s core).ctxs.foldl (· + ·) 0

/-- The partition of a core with the most free contexts, the lower on a tie (R45, R52). -/
def bestPart (s : State) (core : Nat) : Option Nat :=
  match mostOf (openCtx s core) (partsOf core) with
  | some p => if openCtx s core p = 0 then none else some p
  | none => none

/-- The partition of a core with the most contexts that nothing holds, among those that have as many such tiles (R47, R322, R356). -/
def loadPart (s : State) (core held : Nat) : Option Nat :=
  let r := openRoom s core
  mostOf (fun p => r.ctxs.getD p 0) ((partsOf core).filter fun p =>
    decide (0 < r.ctxs.getD p 0) && decide (held ≤ r.tiles.getD p 0))

/-- The partition of each group of a team in group index order, in rotation from the partition with the most free
contexts, with partitions that have none left skipped (R50); none if a group finds no room for its tiles. -/
def spread (tiles : Nat) : Nat → Nat → CoreRoom → Option (List Nat × CoreRoom)
  | 0, _, r => some ([], r)
  | n + 1, start, r =>
    match ((upto 4).map fun i => (start + i) % 4).find? fun p => r.ctxs.getD p 0 != 0 with
    | none => none
    | some p =>
      if r.tiles.getD p 0 < tiles then none
      else
        match spread tiles n (p + 1)
            { r with ctxs := setAt r.ctxs p (r.ctxs.getD p 0 - 1), tiles := setAt r.tiles p (r.tiles.getD p 0 - tiles) } with
        | some (t, r) => some (p :: t, r)
        | none => none

/-- Places a team on a core (R50): the partitions of its groups, the offset of its vault region, the room left. -/
def fitTeam (e : TeamEntry) (r : CoreRoom) : Option (List Nat × Nat × CoreRoom) :=
  match vaultRun r.vault e.vault, mostOf (fun p => r.ctxs.getD p 0) [0, 1, 2, 3] with
  | some off, some p =>
    match spread e.tiles e.groups p r with
    | some (ps, r) => some (ps, off, if e.vault = 0 then r else { r with vault := r.vault ++ [(off, 4096 * e.vault)] })
    | none => none
  | _, _ => none

/-- A team's place. -/
structure Placed where
  entry : TeamEntry
  core : Nat
  parts : List Nat
  off : Nat
deriving DecidableEq, Repr

/-- Places one team on the first room that can hold it. -/
def placeTeam (e : TeamEntry) : List CoreRoom → Option (Placed × List CoreRoom)
  | [] => none
  | r :: t =>
    match fitTeam e r with
    | some (ps, off, r') => some (⟨e, r.core, ps, off⟩, r' :: t)
    | none => match placeTeam e t with | some (p, t) => some (p, r :: t) | none => none

/-- Places every team of a gang in index order, or none (R50). -/
def placeTeams : List TeamEntry → List CoreRoom → Option (List Placed)
  | [], _ => some []
  | e :: t, rooms =>
    match placeTeam e rooms with
    | none => none
    | some (p, rooms) => match placeTeams t rooms with | some l => some (p :: l) | none => none

/-- A gang is inadmissible even on an idle tenant (R49): on the cores of the VF's shape. -/
def inadmissible (s : State) (vf cluster : Nat) (span : Bool) (teams : List TeamEntry) : Bool :=
  let mine (core : Nat) : Bool := s.qt.rows.any fun r => let b := r.units.getD (unitOf core) 0; bit b 7 && b % 16 == vf
  (placeTeams teams (((searchCores span cluster).filter mine).map idleRoom)).isNone

/-- Cores on which the dispatchers and the controllers may create contexts of a VF now (R44). -/
def usableCore (s : State) (vf core : Nat) : Bool := coreVf s core == some vf && !coreStopped s (locOf core 0 0)

/-- The identifiers that the next `n` contexts of a VF would get; none if there are not as many (R349, R50). -/
def takeIdents (s : State) (vf n : Nat) : Option (List Nat) :=
  let r := (vfReg s vf 0x107).toNat
  let used := usedIdents s vf
  let free := (((upto (bits r 24 12)).map (bits r 11 0 + ·)).filter fun i => !used.contains i).take n
  if free.length = n then some free else none

/-- Creates the groups of one team (R41, R50). -/
def createTeam (gang prio vf pusher idx teamId : Nat) (ids : List Nat) (p : Placed) :
    List (Nat × Nat) → Nat → State → State
  | [], _, s => s
  | (part, ident) :: t, gidx, s =>
    let base := if p.entry.vault = 0 then 0 else vaultBase p.core p.off
    let (uid, s) := takeFresh s
    let who : Who := ⟨vf, ident, locOf p.core part (freeNum s p.core part), .gang, false, some gang, some idx, teamId, gidx, 0, uid⟩
    let k := kRegs [p.entry.frame % 2 ^ 32, p.entry.frame / 2 ^ 32, idx, gidx, base, p.entry.groups]
    let s := addCtx (copyEntry s vf pusher ident) (newCtx who prio .usr p.entry.code 0xFFFFFFFF p.entry.tiles k ids)
    createTeam gang prio vf pusher idx teamId ids p t (gidx + 1) s

/-- Creates every team of a gang. -/
def createTeams (gang prio vf pusher : Nat) (ids : List Nat) : List Placed → Nat → List Nat → State → State
  | [], _, _, s => s
  | p :: t, idx, idents, s =>
    let (teamId, s) := takeFresh s
    let n := p.parts.length
    let s := createTeam gang prio vf pusher idx teamId ids p (p.parts.zip (idents.take n)) 0 s
    createTeams gang prio vf pusher ids t (idx + 1) (idents.drop n) s

/-- Admits a gang that finds room for every team (R50): the state with the groups of `g`, whose teams `entries` describes. -/
def admitGang (s : State) (g : Gang) (entries : List TeamEntry) : Option State :=
  let rooms := ((searchCores g.span g.cluster).filter (usableCore s g.vf)).map (openRoom s)
  match placeTeams entries rooms, takeIdents s g.vf ((entries.map (·.groups)).foldl (· + ·) 0) with
  | some ps, some idents =>
    let (num, s) := takeFresh s
    let teams := ps.map fun p => (⟨p.entry, p.core, if p.entry.vault = 0 then 0 else vaultBase p.core p.off⟩ : Team)
    some (createTeams num g.prio g.vf g.pusher g.ids ps 0 idents
      { s with wk := { s.wk with gangs := s.wk.gangs ++ [{ g with num := num, teams := teams }] } })
  | _, _ => none

/-! ## Dispatchers -/

/-- The records of a queue that have not been taken, oldest first: count and data (R46). -/
def queued (s : State) (h : Nat) : List (Nat × Nat) :=
  let hd := qHeadCount s h
  let n := (qTailCount s h + 2 ^ 32 - hd) % 2 ^ 32
  ((upto (min n 65536)).map fun i => let c := (hd + i) % 2 ^ 32; (c, physNat s (qSlot s h c) 32)).filter fun x =>
    !recTaken x.2

/-- Advances HEAD past the leading records that are taken (R46). -/
def advanceHead (h : Nat) : Nat → State → State
  | 0, s => s
  | n + 1, s =>
    let hd := qHeadCount s h
    if hd = qTailCount s h then s
    else if recTaken (physNat s (qSlot s h hd) 32) then advanceHead h n (physPut s (h + 12) 4 ((hd + 1) % 2 ^ 32))
    else s

/-- Takes a record (R46): the oldest of those not taken moves HEAD past it and past those taken; another gets its TAKEN bit. -/
def takeRecord (s : State) (h count : Nat) : State :=
  let s := advanceHead h 65536 (dropNote s h count)
  if count = qHeadCount s h then advanceHead h 65536 (physPut s (h + 12) 4 ((count + 1) % 2 ^ 32))
  else
    let at_ := qSlot s h count
    physPut s (at_ + 31) 1 (physNat s (at_ + 31) 1 ||| 128)

/-- CRQB.EN of a VF (R42). -/
def queuesOn (s : State) (vf : Nat) : Bool := (vfReg s vf 0x100).getLsbD 63

/-- The VF holds some core in the current row (R44, R353). -/
def inRow (s : State) (vf : Nat) : Bool :=
  match s.qt.rows[curRow s]? with
  | none => false
  | some r => r.units.any fun b => bit b 7 && b % 16 == vf

/-- The dispatchers serve a VF's queues: they are enabled and the VF holds a core in the current row (R44). -/
def served (s : State) (vf : Nat) : Bool := queuesOn s vf && inRow s vf

/-- What stands in a dispatcher's queues: a record, by its queue's header and its count; or a gang that is relaunched, at the head of
its queue (R65). -/
inductive Request
  | record (h count data : Nat)
  | again (q : Requeue)
deriving DecidableEq, Repr

/-- The priority of a request, and the number by which its head wait is kept. -/
def Request.key : Request → Nat × Nat
  | .record _ count data => (recPrio data, count)
  | .again q => (q.prio, 2 ^ 32 + q.num)

/-- The request is for a gang. -/
def Request.isGang (cluster : Nat) : Request → Bool
  | .record _ _ data => recKind data == 2 && !recBad cluster data && recClass data != 15
  | .again _ => true

/-- What a dispatcher sees: its requests in the order in which it would take them, by falling priority (R46). -/
def dispatchOrder (s : State) (vf cluster : Nat) : List Request :=
  [3, 2, 1, 0].flatMap fun p =>
    let h := headerAt s vf cluster p
    if qReserved s h then []
    else (s.wk.requeue.filter fun q => q.vf == vf && q.cluster == cluster && q.prio == p).map .again ++
      (queued s h).map fun x => .record h x.1 x.2

/-- The core on which a dispatcher places a lane-group or scalar record (R45). -/
def recordCore (s : State) (vf cluster : Nat) : Option Nat :=
  let cores := if cluster = 64 then (upto 48).map (512 + ·)
    else (upto 8).map fun k => 256 * (cluster / 32) + 8 * (cluster % 32) + k
  let ok := cores.filter fun c => usableCore s vf c && openCore s c != 0
  if cluster = 64 then ok.head? else mostOf (openCore s) ok

/-- Dispatches a record (R41, R43): the state with its group or scalar context. -/
def dispatchRecord (s : State) (vf cluster h count data : Nat) : Option State :=
  match recordCore s vf cluster, freeIdent s vf with
  | some core, some ident =>
    match bestPart s core with
    | none => none
    | some part =>
      let note := noteOf s vf cluster h count
      let (teamId, s) := takeFresh s
      let who : Who := ⟨vf, ident, locOf core part (freeNum s core part), .record, true, none, none, teamId, 0,
        recJoin data, teamId⟩
      let fr := recFrame data
      let jn := recJoin data
      let k := kRegs [fr % 2 ^ 32, fr / 2 ^ 32, jn % 2 ^ 32, jn / 2 ^ 32, recCtl data % 2 ^ 32]
      let mask : Mask := if cluster = 64 then 1 else 0xFFFFFFFF
      let s := takeRecord (copyEntry s vf note.ident ident) h count
      some (addCtx s (newCtx who (recPrio data) .usr (recCode data) mask 0 k note.ids))
  | _, _ => none

/-- Discards a record (R40): it is taken and counted, and its join fails with the cause. -/
def discardRecord (s : State) (vf cluster h count data cause : Nat) : State :=
  let note := noteOf s vf cluster h count
  let s := qCount (takeRecord s h count) h 20
  joinFor s (note.acc vf cluster) (cluster % 64) (recPrio data) (recJoin data) true cause note.ids

/-- A graph record in a queue other than its node's goes on to that, if the node exists and its queue is not full (R64): what a dispatcher
does with one that ordinary stores put into its queue, in whatever mode, the manual does not say (DESIGN CHOICE,
notes/assumptions/93.md). -/
def passGraph (s : State) (vf cluster h count data : Nat) : Option State :=
  if nodeCount s ≤ recFrame data then some (discardRecord s vf cluster h count data 0x69)
  else
    let q := nodeQueue s (recFrame data)
    if q = h || (!qReserved s q && qFull s q) then none
    else
      let note := noteOf s vf cluster h count
      let (more, s) := enqueueAs (takeRecord s h count) (note.acc vf cluster) (cluster % 64) data note.issuer note.ids
      some (runChores choreFuel s (more.map .join))

/-- The head wait that a dispatcher keeps for a gang request (R47). -/
def headWait (s : State) (vf cluster prio count : Nat) : Option HeadWait :=
  s.wk.heads.find? fun h => h.vf == vf && h.cluster == cluster && h.prio == prio && h.count == count

/-- Ends the head wait of an admitted or discarded gang request, and its hold. -/
def dropHead (s : State) (vf cluster prio count : Nat) : State :=
  { s with wk := { s.wk with heads := s.wk.heads.filter fun h =>
      !(h.vf == vf && h.cluster == cluster && h.prio == prio && h.count == count) } }

/-- HOLD of R47 in aclk. -/
def holdTime : Nat := 1200000

/-- The gang request at the head of a dispatcher. -/
def headGang (s : State) (vf cluster : Nat) : Option Request :=
  match dispatchOrder s vf cluster with
  | c :: _ => if c.isGang cluster then some c else none
  | [] => none

/-- The head of a dispatcher accrues wait, if it is a gang request (R47). -/
def accrueHead (dt vf cluster : Nat) (s : State) : State :=
  match headGang s vf cluster with
  | none => s
  | some c =>
    let (prio, count) := c.key
    match headWait s vf cluster prio count with
    | some w => { s with wk := { s.wk with heads := mapWhere (· == w) (fun h => { h with waited := h.waited + dt }) s.wk.heads } }
    | none => { s with wk := { s.wk with heads := s.wk.heads ++ [⟨vf, cluster, prio, count, dt, false, []⟩] } }

/-- The heads that accrue wait in some aclk (R47). -/
def accrue (s : State) (dt : Nat) : State :=
  (upto 16).foldl (fun s vf => if queuesOn s vf then (upto 64).foldl (fun s c => accrueHead dt vf c s) s else s) s

/-- A gang as a request asks for it, with no team placed yet. -/
def askedGang (vf cluster prio join pusher issuer : Nat) (d : GangDesc) (ids ended : List Nat) : Gang :=
  ⟨0, vf, cluster, prio, join, d.span, d.restart, [], none, false, pusher, issuer, ids, ended⟩

/-- What a gang request that stands in a queue comes to (R49, R50): admitted (true), discarded, or left waiting. The search begins at
the cluster of the queue, also for a request pushed to a cluster that its instruction named (DESIGN CHOICE,
notes/assumptions/80.md). -/
def tryRecord (s : State) (vf cluster h count data : Nat) : Option (Bool × State) :=
  let note := noteOf s vf cluster h count
  let prio := recPrio data
  let drop (s : State) (c : Nat) : Option (Bool × State) :=
    some (false, dropHead (discardRecord s vf cluster h count data c) vf cluster prio count)
  let a := note.acc vf cluster
  match runAs s a note.ids fun s => readGang s a (recFrame data) with
  | .error (.cause c _) => drop s c
  | .error (.hold _) => none
  | .ok (none, _, s) => drop s 0x69
  | .ok (some d, _, s) =>
    if inadmissible s vf cluster d.span d.teams then drop s 0x6A
    else
      let g := askedGang vf cluster prio (recJoin data) note.ident note.issuer d note.ids []
      (admitGang (dropHead s vf cluster prio count) g d.teams).map fun s => (true, takeRecord s h count)

/-- A relaunched gang is admitted, or its join fails when it no longer could be (R65). -/
def tryAgain (s : State) (q : Requeue) : Option (Bool × State) :=
  let s := dropHead { s with wk := { s.wk with requeue := s.wk.requeue.filter (· != q) } } q.vf q.cluster q.prio (2 ^ 32 + q.num)
  if inadmissible s q.vf q.cluster q.span q.entries then
    some (false, joinFor s ⟨q.vf, q.pusher, .usr, q.cluster / 32⟩ q.issuer q.prio q.join true 0x68 q.ended)
  else
    (admitGang s (askedGang q.vf q.cluster q.prio q.join q.pusher q.issuer ⟨q.span, q.restart, q.entries⟩ q.ids q.ended)
      q.entries).map fun s => (true, s)

/-- What a gang request comes to. -/
def tryRequest (s : State) (vf cluster : Nat) : Request → Option (Bool × State)
  | .record h count data => tryRecord s vf cluster h count data
  | .again q => tryAgain s q

/-- The first request of a list, behind a waiting head, whose resources are free now (R46): a record, or a gang request, which the
admission controller then admits. -/
def backfill (s : State) (vf cluster : Nat) : List Request → Option State
  | [] => none
  | c :: t =>
    if c.isGang cluster then
      match tryRequest s vf cluster c with | some (true, s) => some s | _ => backfill s vf cluster t
    else
      match c with
      | .again _ => backfill s vf cluster t
      | .record h count data =>
        if recBad cluster data || recClass data == 15 then backfill s vf cluster t
        else match dispatchRecord s vf cluster h count data with | some s => some s | none => backfill s vf cluster t

/-- The headers of a dispatcher's queues whose oldest record is taken already: it is passed over without count (R46). -/
def passTaken (s : State) (vf cluster : Nat) : Option State :=
  let stuck (h : Nat) : Bool :=
    !qReserved s h && qHeadCount s h != qTailCount s h && recTaken (physNat s (qSlot s h (qHeadCount s h)) 32)
  (([3, 2, 1, 0].map (headerAt s vf cluster)).find? stuck).map fun h => advanceHead h 65536 s

/-- What a dispatcher does with the request at its head, if it can be placed now: dispatches a record, discards it, passes it on to its
node, or has a gang request admitted or discarded (R46). -/
def dispatchHead (s : State) (vf cluster : Nat) (c : Request) : Option State :=
  if c.isGang cluster then (tryRequest s vf cluster c).map (·.2)
  else
    match c with
    | .again _ => none
    | .record h count data =>
      if recBad cluster data then some (discardRecord s vf cluster h count data 0x02)
      else if recClass data == 15 then passGraph s vf cluster h count data
      else dispatchRecord s vf cluster h count data

/-- A gang request whose head wait has reached HOLD stops backfill in a dispatcher's queues (R47). -/
def holding (s : State) (vf cluster : Nat) : Bool :=
  s.wk.heads.any fun h => h.vf == vf && h.cluster == cluster && (h.held || decide (holdTime ≤ h.waited))

/-- What a dispatcher does (R46): the dispatcher of a cluster (32 d + c, 64 for the scalar die) dispatches or discards its
head, or backfills behind a head that cannot be placed, unless a gang request holds backfill. -/
def dispatchStep (vf cluster : Nat) (s : State) : Host.Outcome State Fault Refusal :=
  if !served s vf then .next s
  else
    match passTaken s vf cluster with
    | some t => .next t
    | none =>
      match dispatchOrder s vf cluster with
      | [] => .next s
      | c :: t =>
        match dispatchHead s vf cluster c with
        | some u => .next u
        | none => dueOr s (if holding s vf cluster then none else backfill s vf cluster t)

/-- The cores that a hold chooses, one for each team in index order (R47). -/
def holdCores (s : State) (vf cluster : Nat) (span : Bool) (teams : List TeamEntry) : List (Nat × TeamEntry) :=
  let cores := (searchCores span cluster).filter (usableCore s vf)
  teams.foldl (fun acc e =>
    match mostOf (freeCore s) (cores.filter fun c => !acc.any fun x => x.1 == c) with
    | some c => acc ++ [(c, e)]
    | none => acc) []

/-- What a gang request asks for, if its descriptor can be read. -/
def askedTeams (s : State) (vf cluster : Nat) : Request → Option GangDesc
  | .again q => some ⟨q.span, q.restart, q.entries⟩
  | .record h count data =>
    let note := noteOf s vf cluster h count
    match runAs s (note.acc vf cluster) note.ids fun s => readGang s (note.acc vf cluster) (recFrame data) with
    | .ok (d, _, _) => d
    | .error _ => none

/-- HOLD_REACHED (R47): the head wait of a gang request reaches HOLD, and cores are chosen for its teams. -/
def execHoldReached (vf cluster : Nat) (s : State) : Host.Outcome State Fault Refusal :=
  match headGang s vf cluster with
  | none => .next s
  | some c =>
    match headWait s vf cluster c.key.1 c.key.2, askedTeams s vf cluster c with
    | some w, some d =>
      if w.held || decide (w.waited < holdTime) then .next s
      else
        let hold : HeadWait := { w with held := true, cores := holdCores s vf cluster d.span d.teams }
        .next { s with wk := { s.wk with heads := mapWhere (· == w) (fun _ => hold) s.wk.heads } }
    | _, _ => .next s

/-- What the admission controller does (R50): it admits the gang at the head of a cluster's queues when every team finds a core; a
request that fails its checks is discarded. -/
def admissionStep (vf cluster : Nat) (s : State) : Host.Outcome State Fault Refusal :=
  if !served s vf then .next s
  else
    match headGang s vf cluster with
    | none => .next s
    | some c => dueOr s ((tryRequest s vf cluster c).map (·.2))

/-- OVERFLOW_RETRY (R54): a record in the overflow buffer is queued if its queue has room, or discarded if its header has
come to hold a reserved LOG2 (R44). -/
def execOverflowRetry (n : Nat) (s : State) : Host.Outcome State Fault Refusal :=
  match s.wk.overflow[n]? with
  | none => .next s
  | some o =>
    let a : Acc := ⟨o.vf, o.ident, .usr, if o.cluster = 64 then 2 else o.cluster / 32⟩
    if (queueOf s o.vf o.cluster o.data).any fun h => !qReserved s h && qFull s h then .next s
    else
      let t := { s with wk := { s.wk with overflow := s.wk.overflow.take n ++ s.wk.overflow.drop (n + 1) } }
      let (more, t) := enqueueAs t a (o.cluster % 64) o.data o.issuer o.ids
      .next (runChores choreFuel t (more.map .join))

/-! ## Graph mode (R64) -/

/-- N of a node, and its PRIO. -/
def nodeN (s : State) (n : Nat) : Nat × Nat := let x := physNat s (nodeAt s n + 16) 4; (bits x 5 0, bits x 7 6)

/-- A node entry holds a reserved value. Bits [31:8] of the word of N and PRIO, which the manual does not name, are held to be
reserved and 0 (PRESUMED, notes/assumptions/81.md). -/
def nodeBad (s : State) (n : Nat) : Bool :=
  let x := physNat s (nodeAt s n + 16) 4
  bits x 5 0 == 0 || decide (32 < bits x 5 0) || x / 256 != 0

/-- The cluster whose dispatcher serves a node's queue: the one to which its header belongs, if it lies in the VF's array (R42,
R368). The manual does not say which serves another; here it is cluster 0 (DESIGN CHOICE, notes/assumptions/82.md). -/
def headerCluster (s : State) (vf h : Nat) : Nat :=
  let b := bits (vfReg s vf 0x100).toNat 56 6 * 64
  if b ≤ h && h < b + 64 * 4 * 65 then (h - b) / 256 else 0

/-- A group of origin GRAPH for a node, from the records popped together (R41, R64). -/
def launchNode (s : State) (vf cluster node h : Nat) (mine : List (Nat × Nat)) : Option State :=
  match recordCore s vf cluster, freeIdent s vf with
  | some core, some ident =>
    match bestPart s core with
    | none => none
    | some part =>
      let notes := mine.map fun x => noteOf s vf cluster h x.1
      let pusher := (notes.head?.map (·.ident)).getD 0
      let at_ := nodeAt s node
      let code := physNat s at_ 8
      let n := mine.length
      let prio := (nodeN s node).2
      let (teamId, s) := takeFresh s
      let who : Who := ⟨vf, ident, locOf core part (freeNum s core part), .graph, true, none, none, teamId, 0, 0, teamId⟩
      let regs := ((upto n).zip mine).foldl (fun r x =>
        (upto 8).foldl (fun r i => storeSet 0 r (vKey i x.1) (BitVec.ofNat 32 (x.2.2 / 2 ^ (32 * i)))) r)
        (kRegs [at_ % 2 ^ 32, at_ / 2 ^ 32, n])
      let s := mine.foldl (fun s x => takeRecord s h x.1) (copyEntry s vf pusher ident)
      some (addCtx s (newCtx who prio .mch (code % 2 ^ 57) (lowOnes n) 0 regs (notes.flatMap (·.ids))))
  | _, _ => none

/-- GRAPH_NODE_LAUNCH (R64): the dispatcher pops N records of a node's input queue at once and launches one group of origin GRAPH
with them, while it serves the VF and has a core of it (R44). There is one node table for the device, and the manual does not say for
which VF a node's group runs: it is the one that the step names (DESIGN CHOICE, notes/assumptions/94.md). A record that fails the check of R40 is discarded when it is popped, and a
reserved value in the entry discards the record. -/
def execGraphNodeLaunch (vf node : Nat) (s : State) : Host.Outcome State Fault Refusal :=
  let h := nodeQueue s node
  if !served s vf || nodeCount s ≤ node || qReserved s h then .next s
  else
    let cluster := headerCluster s vf h
    let recs := queued s h
    let n := (nodeN s node).1
    match recs, nodeBad s node with
    | (count, data) :: _, true => .next (discardRecord s vf cluster h count data 0x69)
    | _, _ =>
      if recs.length < n || n = 0 || nodeBad s node then .next s
      else
        match (recs.take n).find? fun x => recBad cluster x.2 with
        | some (count, data) => .next (discardRecord s vf cluster h count data 0x02)
        | none => dueOr s (launchNode s vf cluster node h (recs.take n))

/-! ## Ends -/

/-- A gang still has a live or saved group. -/
def gangAlive (s : State) (gang : Nat) : Bool :=
  (allCtx s).any (fun c => c.who.gang == some gang) || s.en.saved.any fun x => x.by_ != 0 && x.who.gang == some gang

/-- Ends a gang whose last group has ended: its regions are free and its JOIN is joined (R51). -/
def endGang (s : State) (gang : Nat) : State :=
  if gangAlive s gang then s
  else
    match s.wk.gangs.find? fun g => g.num == gang with
    | none => s
    | some g =>
      let s := { s with wk := { s.wk with gangs := s.wk.gangs.filter fun x => x.num != gang } }
      joinFor s ⟨g.vf, g.pusher, .usr, g.cluster / 32⟩ g.issuer g.prio g.join g.fail.isSome (g.fail.getD 0) g.ended

/-- Marks a gang as failed by a cause. -/
def failGang (s : State) (gang cause : Nat) : State :=
  { s with wk := { s.wk with gangs := mapWhere (fun g => g.num == gang) (fun g => { g with fail := some cause }) s.wk.gangs } }

/-- A group of a gang has ended, with this before its end (R55). -/
def noteEnd (s : State) (gang : Nat) (ids : List Nat) : State :=
  let more (g : Gang) : Gang := { g with ended := g.ended ++ ids.filter fun i => !g.ended.contains i }
  { s with wk := { s.wk with gangs := mapWhere (fun g => g.num == gang) more s.wk.gangs } }

/-- A context that holds no group. -/
def deadCtx (c : Ctx) : Ctx := { c with live := false, ap := none, mx := ⟨0, [], [], none, 0⟩ }

/-- Removes a context: its identifier and tiles are free, and what the arrays hold of it is gone (R16, R119). -/
def removeCtx (s : State) (vf ident : Nat) : State :=
  let s := withdraw (dropMatrix s vf ident) vf ident
  let own (v i : Nat) : Bool := v == vf && i == ident
  let uid := match ctxOf s vf ident with | some c => c.who.uid | none => 0
  let repairs := s.en.repairs.filter fun r => !(own r.vf r.ident && r.stage == .measure)
  { s with
    en := { s.en with
      repairs := repairs, splices := s.en.splices.filter fun x => x.uid != uid
      resting := s.en.resting.filter fun x => x.1 != uid && x.2 != uid }
    g := if isCtx vf ident s.g then deadCtx s.g else s.g
    others := s.others.filter fun c => !isCtx vf ident c }

/-- The delivered cause by which a context ends (R51): one of fate E, or one whose handler did not return from it. -/
def endedBy (c : Ctx) : Option Nat :=
  match c.endCause with
  | some x => some x
  | none => if hmode c then some (bits c.trap.tcause.toNat 7 0) else none

/-- A group that ends hands over no more chunks (R300): its commands have those that were accepted, and one that has none left to run is over, its block
unpinned (R132). -/
def closeCmds (s : State) (uid : Nat) : State :=
  let mine (c : Cmd) : Bool := c.uid == uid && decide (c.accepted < c.chunks)
  let idle := s.en.cmds.filter fun c => mine c && c.todo.isEmpty
  { s with en := { s.en with
      cmds := mapWhere mine (fun c => { c with chunks := c.accepted }) (s.en.cmds.filter fun c => !(mine c && c.todo.isEmpty))
      chores := s.en.chores ++ idle.filterMap fun c => c.pin.map fun b => .unpin ⟨c.vf, c.ident, c.mode, c.die⟩ b c.ids none } }

/-- The context ends (R16): a cause of fate E fails the join of its record (R54, R156); a delivered cause that its handler did not
return from fails its gang (R51). -/
def finishCtx (s : State) (c : Ctx) : State :=
  let ids := knownIds c.ord 0xFFFFFFFF
  let s := closeCmds (removeCtx s c.who.vf c.who.ident) c.who.uid
  match c.who.gang with
  | none =>
    match c.endCause with
    | some x => joinFor s (accOf c) (issuingCluster c.who.loc) c.prio c.who.join true x ids
    | none => s
  | some g => endGang (noteEnd (match endedBy c with | some x => failGang s g x | none => s) g ids) g

/-- GROUP_END (R16): a group whose slots are empty and whose region holds no entry ends. An unresolvable side-log entry
is delivered first (R81, R152); entries still pending hold the end back, and so does a trap not yet taken. -/
def execGroupEnd (vf ident : Nat) (s : State) : Host.Outcome State Fault Refusal :=
  match ctxOf s vf ident with
  | none => .next s
  | some c =>
    let held := c.endCause.isNone && (c.pend.isSome || c.redo.isSome || !c.replays.isEmpty || c.wins.any fun w => w.gone != 0)
    if c.s0.valid || c.s1.valid || depthOf c.dsp != 0 || held then .next s
    else if c.unres && c.endCause.isNone then
      dueOr s (onCtx s vf ident fun t =>
        takeTrap t ⟨0x26, .a, 3, (curSlot c).mask, 0, 0⟩ (curSlot c).mask)
    else if c.endCause.isNone && s.ms.log.any fun e => e.vf == vf && e.ident == ident then
      .next s
    else .next (finishCtx s c)

/-- The teams of a gang that have not retired (R65). -/
def unretired (s : State) (g : Gang) : List TeamEntry :=
  ((upto g.teams.length).filter fun i => (allCtx s).any fun c => c.who.gang == some g.num && c.who.team == some i).map
    fun i => (g.teams.getD i ⟨⟨0, 0, 1, 0, 0⟩, 0, 0⟩).entry

/-- What the loss of the die link does to one gang (R65): its groups end; it is relaunched at the head of its queue on the die that
goes on, in the cluster of the same number there (DESIGN CHOICE, notes/assumptions/83.md), or its join fails. A relaunch into a header
whose LOG2 is reserved is discarded (R44). -/
def loseLink (die : Nat) (s : State) (g : Gang) : State :=
  let live := unretired s g
  let ends := (allCtx s).filter fun c => c.who.gang == some g.num
  let ended := g.ended ++ ends.flatMap fun c => knownIds c.ord 0xFFFFFFFF
  let s := ends.foldl (fun s c => removeCtx s c.who.vf c.who.ident) s
  let s := { s with wk := { s.wk with gangs := s.wk.gangs.filter fun x => x.num != g.num } }
  let cluster := 32 * die + g.cluster % 32
  let h := headerAt s g.vf cluster g.prio
  let a : Acc := ⟨g.vf, g.pusher, .usr, die⟩
  if !g.restart then joinFor s a g.issuer g.prio g.join true 0x68 ended
  else if qReserved s h then joinFor (qCount s h 20) a g.issuer g.prio g.join true 0x63 ended
  else
    let (num, s) := takeFresh s
    let q : Requeue := ⟨num, g.vf, cluster, g.prio, g.join, true, false, live, g.pusher, g.issuer, g.ids, ended⟩
    { s with wk := { s.wk with requeue := s.wk.requeue ++ [q] } }

/-- A gang has teams on both compute dies. -/
def spansDies (g : Gang) : Bool := (g.teams.any fun t => decide (t.core < 256)) && g.teams.any fun t => decide (256 ≤ t.core)

/-- Home moves between the dies are abandoned by the loss of their link (R103). -/
def abandonHomeMoves (s : State) : State :=
  let hbm (pfn : Nat) : Option Nat := match placeOf s (4096 * pfn) with | some p => if p.tier = 1 then some p.die else none | none => none
  let cross (m : Move) : Bool := match hbm m.oldPfn, hbm m.newPfn with | some a, some b => a != b | _, _ => false
  { s with ld := { s.ld with moves := mapWhere cross (fun m => { m with abandoned := true }) s.ld.moves } }

/-- DIE_LINK_LOSS (R65): the link between CD0 and CD1 fails, and `die` goes on with the gangs that are restarted. -/
def execDieLinkLoss (die : Nat) (s : State) : Host.Outcome State Fault Refusal :=
  .next (abandonHomeMoves ((s.wk.gangs.filter fun g => spansDies g && !g.saved).foldl (loseLink (die % 2)) s))

/-! ## Instructions that create, join and end work -/

/-- GSPAWN (R52, R304). -/
def execGspawn (f : FmtR) (s : State) : Host.Outcome State Fault Refusal :=
  issue s f.nas
    ⟨coreOnly s ++ kBad f.d 1 ++ (if f.a.toNat ≤ 40 then [] else [0x03]) ++ kBad f.b 2,
      codes f.a 8 ++ codes f.b 2, codes f.d 1⟩ fun s =>
    match takeAll [(1, f.a, 8), (2, f.b, 2)] s with
    | .error e => portStop s e
    | .ok (os, s') =>
      let core := coreNum s.g.who.loc
      let mates := (allCtx s).filter fun c => c.who.vf == s.g.who.vf && c.who.teamId == s.g.who.teamId
      match bestPart s core, freeIdent s s.g.who.vf, s.g.who.team.isSome && decide (16 ≤ mates.length) with
      | some part, some ident, false =>
        let groups := match s.wk.gangs.find? fun g => some g.num == s.g.who.gang, s.g.who.team with
          | some g, some i => (g.teams.getD i ⟨⟨0, 0, 0, 0, 0⟩, 0, 0⟩).entry.groups
          | _, _ => 0
        let gidx := ((upto 512).map (groups + ·)).find? fun i => !mates.any fun c => c.who.gidx == i
        let (tid, t) := takeFresh (uniteActive s')
        let who : Who := ⟨s.g.who.vf, ident, locOf core part (freeNum s core part), .spawn, s.g.who.recClass,
          s.g.who.gang, s.g.who.team, if s.g.who.team.isSome then s.g.who.teamId else tid, gidx.getD 0, 0, tid⟩
        let ks := (upto 16).foldl (fun r i => storeSet 0 r (kKey i) (kAt s.g i)) []
        let regs := (upto 8).foldl (fun r i =>
          (upto 32).foldl (fun r l => storeSet 0 r (vKey i l) ((os.getD 0 (.k [])).word s i l)) r) ks
        let ids := knownIds t.g.ord (active s)
        let c := newCtx who s.g.prio s.g.mode ((uniPair s os 1).toNat % 2 ^ 57) (active s) 0 regs ids
        let t := addCtx (copyEntry t s.g.who.vf s.g.who.ident ident) c
        .ok (putUniform t f.d.toNat 0)
      | _, _, _ => .ok (putUniform s' f.d.toNat 1)

/-- The eight words of a record from k registers. -/
def recordOf (s : State) (os : List Opnd) (n : Nat) : Nat :=
  natOfBytes ((upto 8).flatMap fun i => bytesOfNat 4 (uni s os n i).toNat)

/-- The causes of the record that gcpush or glaunch pushes (R40, R49, R305), with the state after the descriptor was
read. -/
def pushCheck (s : State) (cluster data : Nat) : Except Halt (Option Nat × State) :=
  if recReserved data || recTaken data then .ok (some 0x02, s)
  else if recClass data = 15 && (s.g.mode == .usr || s.g.mode == .sup) then .ok (some 0x66, s)
  else if recKind data = 2 then
    match readGang s (accOf s.g) (recFrame data) with
    | .error e => .error e
    | .ok (none, s) => .ok (some 0x69, s)
    | .ok (some d, s) => .ok (if inadmissible s s.g.who.vf cluster d.span d.teams then some 0x6A else none, s)
  else .ok (none, s)

/-- Pushes a record for the group (R43): status 0 queued, 1 full. A graph record whose node does not exist counts in the DROP of the header
that its PRIO has in the set of the issuing or named cluster (DESIGN CHOICE, notes/assumptions/95.md). A reserved LOG2 of the header is one cause among those of the
record (R44, R154). -/
def pushRecord (s s' : State) (d : RegCode) (cluster data : Nat) : Res :=
  match pushCheck s' cluster data with
  | .error e => haltRes s e
  | .ok (some c, _) =>
    let unserved := match queueOf s s.g.who.vf cluster data with | some h => qReserved s h | none => false
    .trap (precise s ((firstCause (if unserved then [c, 0x63] else [c])).getD c))
  | .ok (none, s') =>
    match queueOf s s.g.who.vf cluster data with
    | none =>
      let t := qCount s' (headerAt s s.g.who.vf cluster (recPrio data)) 20
      .ok (putUniform (joinFor t (accOf s.g) cluster (recPrio data) (recJoin data) true 0x69 (knownIds s.g.ord (active s))) d.toNat 0)
    | some h =>
      if qReserved s h then .trap (precise s 0x63)
      else
        match releaseStop s with
        | some r => r
        | none =>
          if qFull s h then .ok (putUniform s' d.toNat 1)
          else
            let t := uniteActive s'
            let t := arriveAll t t.g.ord (active s)
            let ids := knownIds t.g.ord (active s)
            withFiled s (.ok (putUniform (qWrite t h data s.g.who.ident (issuingCluster s.g.who.loc) ids) d.toNat 0))

/-- GCPUSH (R43, R305). -/
def execGcpush (f : FmtR) (s : State) : Host.Outcome State Fault Refusal :=
  let named := f.x.getLsbD 0
  issue s f.nas
    ⟨noAp s ++ kBad f.d 1 ++ kBad f.a 8 ++ (if named then kBad f.b 1 else if f.b = 0 then [] else [0x02]),
      codes f.a 8 ++ (if named then codes f.b 1 else []), codes f.d 1⟩ fun s =>
    match takeAll ((1, f.a, 8) :: if named then [(2, f.b, 1)] else []) s with
    | .error e => portStop s e
    | .ok (os, s') =>
      let target := (uni s os 1 0).toNat
      if named && target / 64 != 0 then .trap (precise s 0x02)
      else pushRecord s s' f.d (if named then target else issuingCluster s.g.who.loc) (recordOf s os 0)

/-- GLAUNCH (R49, R305). -/
def execGlaunch (f : FmtR) (s : State) : Host.Outcome State Fault Refusal :=
  issue s f.nas ⟨noAp s ++ kBad f.d 1 ++ kBad f.a 2 ++ kBad f.b 2, codes f.a 2 ++ codes f.b 2, codes f.d 1⟩ fun s =>
    match takeAll [(1, f.a, 2), (2, f.b, 2)] s with
    | .error e => portStop s e
    | .ok (os, s') =>
      pushRecord s s' f.d (issuingCluster s.g.who.loc)
        (mkRecord 0 (uniPair s os 0).toNat (uniPair s os 1).toNat (f.x.toNat % 4) 2 0)

/-- The keys of a join block's first eight bytes: a cause of its translation comes before its misalignment (R54, R154). -/
def joinKeys (s s' : State) (addr : Nat) : Except Res (List Nat × State) :=
  match vaKeys s' (accOf s.g) .store addr 8 with
  | .error (.hold pte) => .error (if addr % 64 ≠ 0 then .trap (precise s 0x65) else haltRes s (.hold pte))
  | .error e => .error (haltRes s e)
  | .ok x => if addr % 64 ≠ 0 then .error (.trap (precise s 0x65)) else .ok x

/-- GCJOIN (R54, R306). -/
def execGcjoin (f : FmtR) (s : State) : Host.Outcome State Fault Refusal :=
  issue s f.nas ⟨noAp s ++ kBad f.a 2 ++ kBad f.b 1, codes f.a 2 ++ codes f.b 1, []⟩ fun s =>
    match takeAll [(1, f.a, 2), (2, f.b, 1)] s with
    | .error e => portStop s e
    | .ok (os, s') =>
      let addr := (uniPair s os 0).toNat
      let w := (uni s os 1 0).toNat
      if bits w 7 1 != 0 || w / 65536 != 0 then .trap (precise s 0x02)
      else
        match joinKeys s s' addr with
        | .error r => r
        | .ok (keys, t) =>
          match releaseStop s with
          | some r => r
          | none =>
            let count := metNat t (keys.take 4)
            if mixedSize s (keys.take 4) || (w % 2 == 1 && mixedSize s (keys.drop 4)) then .trap (preciseAt s 0x31 addr)
            else if count = 0 then .trap (precise s 0x65)
            else
              let t := joinRmw (uniteActive (countVa t (accOf s.g) .store true addr 8)) keys count (w % 2 == 1) (bits w 15 8)
              let ids := gained t (keys.headD 0)
              let j : Join := ⟨accOf s.g, issuingCluster s.g.who.loc, s.g.prio, addr, w % 2 == 1, bits w 15 8, ids⟩
              let (more, t) := afterJoin t j (keys.headD 0) (count - 1) ids
              withFiled s (.ok (runChores choreFuel t more))

/-- GAPON (R30, R34, R307). -/
def execGapon (f : FmtR) (s : State) : Host.Outcome State Fault Refusal :=
  issue s f.nas ⟨coreOnly s ++ kBad f.d 1 ++ kBad f.a 2, codes f.a 2, codes f.d 1⟩ fun s =>
    match takeAll [(1, f.a, 2)] s with
    | .error e => portStop s e
    | .ok (os, s') =>
      if s.g.ap.isSome then .ok (putUniform s' f.d.toNat 2)
      else
        let used := ((usedCtx s (coreNum s.g.who.loc) s.g.who.loc.part).filterMap (·.ap)).map (·.num)
        match [0, 1].find? fun n => !used.contains n with
        | none => .ok (putUniform s' f.d.toNat 1)
        | some n =>
          let t := putUniform (uniteActive s') f.d.toNat 0
          let a : Ap := ⟨n, BitVec.ofNat 57 (uniPair s os 0).toNat, [], emptySeq, .running, [[], [], [], []],
            knownIds t.g.ord (active s), [],
            (t.g.ord.seen.filter fun x => (x.lanes &&& active s) != 0).map fun x => { x with lanes := 0xFFFFFFFF }⟩
          .ok { t with g := { t.g with ap := some a } }

/-- GAPOFF (R35, R307). -/
def execGapoff (f : FmtR) (s : State) : Host.Outcome State Fault Refusal :=
  issue s f.nas ⟨coreOnly s, [], []⟩ fun s => .ok { s with g := { s.g with ap := none } }

/-- The value that a gid selector names (R308), in lane l. -/
def gidValue (s : State) (sel l : Nat) : Word :=
  let w := s.g.who
  match sel with
  | 0 => if w.loc.die = 2 then BitVec.ofNat 32 (w.loc.num + 2 ^ 14)
    else BitVec.ofNat 32 (w.loc.num + 16 * w.loc.part + 64 * w.loc.core + 512 * w.loc.cluster + 2 ^ 14 * w.loc.die)
  | 1 => match w.team with | some t => BitVec.ofNat 32 t | none => 0xFFFFFFFF
  | 2 => match w.team with | some _ => BitVec.ofNat 32 w.gidx | none => 0xFFFFFFFF
  | 3 =>
    match s.wk.gangs.find? fun g => some g.num == w.gang, w.team with
    | some g, some i => BitVec.ofNat 32 (g.teams.getD i ⟨⟨0, 0, 0, 0, 0⟩, 0, 0⟩).entry.groups
    | _, _ => 0xFFFFFFFF
  | 4 => BitVec.ofNat 32 (w.vf + 65536 * w.ident)
  | 5 => BitVec.ofNat 32 ((devReg s 0x180).toNat % 65536)
  | 6 => BitVec.ofNat 32 (s.g.prio + 4 * (match w.origin with | .record => 0 | .gang => 1 | .spawn => 2 | .graph => 3))
  | 7 => active s
  | _ => if w.loc.die = 2 then 0 else BitVec.ofNat 32 l

/-- GID (R308). -/
def execGid (f : FmtI) (s : State) : Host.Outcome State Fault Refusal :=
  let sel := f.imm.toNat
  issue s f.nas ⟨if sel = 8 && !isV f.d then [0x03] else [], [], codes f.d 1⟩ fun s =>
    if !apRoom s (destKs f.d 1) then .wait .held s
    else if isV f.d then .ok (putLanes s f.d.toNat (allLanes s.g) (gidValue s sel))
    else .ok (putUniform s f.d.toNat (gidValue s sel 0))

/-- GYIELD (R26, R309): the issue itself sets the last-issue stamp and the wait counter. -/
def execGyield (f : FmtR) (s : State) : Host.Outcome State Fault Refusal :=
  issue s f.nas ⟨noAp s, [], []⟩ fun s => .ok s

/-- GMFENCE (R87, R301). -/
def execGmfence (f : FmtR) (s : State) : Host.Outcome State Fault Refusal :=
  issue s f.nas ⟨coreOnly s ++ kBad f.d 1, [], codes f.d 1⟩ fun s =>
    let n := s.g.mx.batch
    if 16 ≤ n && matrixBusy s s.g (some (n - 16)) then .wait .held s
    else
      let t := putUniform s f.d.toNat (BitVec.ofNat 32 (n % 16))
      .ok { t with g := { t.g with mx := { t.g.mx with batch := n + 1 } } }

/-- GMWAIT (R87, R301). -/
def execGmwait (f : FmtI) (s : State) : Host.Outcome State Fault Refusal :=
  issue s f.nas ⟨coreOnly s ++ kBad f.a 1, codes f.a 1, []⟩ fun s =>
    match takeAll [(1, f.a, 1)] s with
    | .error e => portStop s e
    | .ok (os, s') =>
      let b := ((uni s os 0 0).toNat + f.imm.toNat) % 16
      let back := (s.g.mx.batch + 15 - b) % 16
      if back < s.g.mx.batch && matrixBusy s s.g (some (s.g.mx.batch - 1 - back)) then .wait .held s
      else .ok s'

end Sys2Proof.Machine
end

