-- ==== Sys2Proof/Machine/Kv.lean ====
section
/-! DEFINITION. Key/value structures (06, 13; R124 to R145, R257 to R271): sequences, the block table, radix trees,
appends, splices, repairs by Anneal, loads of blocks, and ring tables. -/

namespace Sys2Proof.Machine

/-! ## Radix trees (R130, R131) -/

/-- START of a node. -/
def nStart (x : Nat) : Nat := bits x 31 0
/-- LEN of a node. -/
def nLen (x : Nat) : Nat := bits x 38 32
/-- BOFF of a node. -/
def nBoff (x : Nat) : Nat := bits x 42 39
/-- NCH of a node. -/
def nCh (x : Nat) : Nat := bits x 45 43
/-- SHR of a node. -/
def nShr (x : Nat) : Bool := bit x 46
/-- BLK i of a node. -/
def nBlk (x i : Nat) : Nat := bits x (95 + 32 * i) (64 + 32 * i)
/-- NODE of child i. -/
def nKid (x i : Nat) : Nat := bits x (223 + 64 * i) (192 + 64 * i)
/-- FIRST of child i. -/
def nFirst (x i : Nat) : Nat := bits x (255 + 64 * i) (224 + 64 * i)
/-- The end of a node's run. -/
def nEnd (x : Nat) : Nat := nStart x + nLen x

/-- A node fails a check of R131. -/
def nodeRefused (x : Nat) : Bool := bits x 63 47 != 0 || decide (64 < nLen x + nBoff x) || decide (5 < nCh x)

/-- The address of a node. -/
def nodeVa (r : KvRoot) (n : Nat) : Nat := r.nodes + 64 * n

/-- Reads a node that the pool holds and that passes the checks. -/
def readNode (a : Acc) (r : KvRoot) (n : Nat) : Kv Nat := do
  kvWhen (decide (r.nnodes ≤ n)) 0xA4
  let x ← kvStruct a (nodeVa r n) 64
  kvWhen (nodeRefused x) 0xA4
  pure x

/-- The child that a walk takes for a token: by FIRST, else the overflow link (R131). -/
def childFor (x key : Nat) : Option Nat :=
  match (upto (nCh x)).find? fun i => nFirst x i == key with
  | some i => some i
  | none => (upto (nCh x)).find? fun i => nFirst x i == none32

/-- The token identity at a position. -/
def tokAt (a : Acc) (d : SeqDesc) (p : Nat) : Kv Nat := kvStruct a (d.tok + 4 * p) 4

/-- A block index that a walk may return. -/
def liveBlock (a : Acc) (r : KvRoot) (b : Nat) : Kv Unit := do
  kvWhen (decide (r.count ≤ b)) 0xA4
  let e ← readEntry a r b
  kvWhen (!eValid e) 0xA4

/-- The walk of R131 from a node: the node that covers a position, its value and the run offset. -/
def walkNode (a : Acc) (r : KvRoot) (d : SeqDesc) (pos : Nat) : Nat → Nat → Kv (Nat × Nat × Nat)
  | 0, _ => kvFail 0xA4
  | f + 1, n => do
    let x ← readNode a r n
    kvWhen (decide (pos < nStart x)) 0xA4
    if pos < nEnd x then do
      let o := pos - nStart x + nBoff x
      liveBlock a r (nBlk x (o / 16))
      pure (n, x, o)
    else do
      let key ← tokAt a d (nEnd x)
      match childFor x key with
      | none => kvFail 0xA4
      | some i => walkNode a r d pos f (nKid x i)

/-- HOPS of R131, and the first node. -/
def walkFuel : Nat := 4097

/-- Resolves a position of a sequence (R131). -/
def walkPos (a : Acc) (r : KvRoot) (d : SeqDesc) (pos : Nat) : Kv (Nat × Nat × Nat) := do
  kvWhen (decide (d.length ≤ pos)) 0xA4
  walkNode a r d pos walkFuel d.root

/-! ## Appends (R133) -/

/-- The child of a node for a token, through overflow links; none if no list names it. -/
def findChild (a : Acc) (r : KvRoot) (key : Nat) : Nat → Nat → Kv (Option Nat)
  | 0, _ => pure none
  | f + 1, x =>
    match (upto (nCh x)).find? fun i => nFirst x i == key with
    | some i => pure (some (nKid x i))
    | none =>
      match (upto (nCh x)).find? fun i => nFirst x i == none32 with
      | none => pure none
      | some i => do
        let y ← readNode a r (nKid x i)
        findChild a r key f y

/-- Descends into empty nodes placed for the next token (R133). -/
def descend (a : Acc) (r : KvRoot) (p key : Nat) : Nat → Nat → Nat → Kv (Nat × Nat)
  | 0, n, x => pure (n, x)
  | f + 1, n, x =>
    if nEnd x ≠ p then pure (n, x)
    else do
      match ← findChild a r key walkFuel x with
      | none => pure (n, x)
      | some c => do
        let y ← readNode a r c
        if nStart y = p && nLen y = 0 then descend a r p key f c y else pure (n, x)

/-- The leaf of R133: its index, value, and the offset of the next token; 0xA4 if it fails. -/
def leafOf (a : Acc) (r : KvRoot) (d : SeqDesc) : Kv (Nat × Nat × Nat) := do
  let p := d.length
  let (n, x) ←
    if p = 0 then do let x ← readNode a r d.root; pure (d.root, x)
    else do let (n, x, _) ← walkPos a r d (p - 1); pure (n, x)
  let key ← tokAt a d p
  let (n, x) ← descend a r p key walkFuel n x
  kvWhen (decide (p + nBoff x < nStart x) || decide (64 < p + nBoff x - nStart x)) 0xA4
  pure (n, x, p + nBoff x - nStart x)

/-- Appends one token (R133): the block's address, the slot, and the block index. -/
def append (a : Acc) (seq : Nat) : Kv (Nat × Nat × Nat) := do
  let d ← readSeq a seq
  let r ← readRoot a
  let (n, x, o) ← leafOf a r d
  kvWhen (nShr x) 0xA9
  kvWhen (o == 64) 0xA4
  let b := nBlk x (o / 16)
  let slot := o % 16
  let b ←
    if b = none32 then do
      kvWhen (slot != 0) 0xA4
      let y ← takeFree a r 1 0 none32
      kvPut a (nodeVa r n + 8 + 4 * (o / 16)) 4 y
      pure y
    else do
      kvWhen (decide (r.count ≤ b)) 0xA4
      let e ← kvHome a (entryVa r b) 16
      kvWhen (!eValid e || (eRef e == 0 && eDrel e)) 0xA4
      kvWhen (decide (1 < eRef e)) 0xA1
      kvRmw a (entryVa r b) 16 (setBits e 86 82 (slot + 1))
      pure b
  kvPut a (nodeVa r n + 4) 4 (bits x 63 32 + 1)
  kvRelease a (seq + 8) 4 (d.length + 1)
  let e ← kvPeek a (entryVa r b) 16
  kvMod stepMade
  pure (blockVa r e, slot, b)

/-! ## The forms that walk, count and append -/

/-- What a structure computation comes to for an instruction. -/
def kvRes {α : Type} (s s' : State) (m : Kv α) (k : α → State → Res) : Res :=
  match m s' with
  | .error e => haltRes s e
  | .ok (x, t) => withFiled s (k x t)

/-- Writes the results of a group attention form under its window (R260). -/
def kvResult (s t : State) (f : FmtE) (vals : List Word) : Res :=
  .ok (uniWindow s (putUniforms t f.d.toNat vals) f.la (codes f.d vals.length) (destKeys s f.d vals.length))

/-- What a group attention form does in memory, as far as other accesses order it: plain loads, a strong access, or a release. -/
inductive KvOrd
  | plain | strong | release
deriving DecidableEq, Repr

/-- What goes before a group attention form (R78, R81, R151). -/
def kvStop (s : State) : KvOrd → Option Res
  | .plain => none
  | .strong => (goneStop s (active s)).map .stop
  | .release => releaseStop s

/-- A group attention form with its sources (place, code, width), destination width and computation. -/
def kvForm (f : FmtE) (bad : State → List Nat) (srcs : List (Nat × RegCode × Nat)) (w : Nat) (ord : KvOrd)
    (fn : State → List Opnd → Acc → Kv (List Word)) (s : State) : Host.Outcome State Fault Refusal :=
  issue s f.nas ⟨bad s ++ srcsBad srcs ++ alignBad f.d w, srcCodes srcs, codes f.d w⟩ fun s =>
    if !apRoom s (destKs f.d w) then .wait .held s
    else
      match takeAll srcs s with
      | .error e => portStop s e
      | .ok (os, s') =>
        match kvStop s ord with
        | some r => r
        | none => kvRes s (uniteActive s') (fn s os (accOf s.g)) fun vals t => kvResult s t f vals

/-- A number as a word. -/
def word32 (n : Nat) : Word := BitVec.ofNat 32 n

/-- GKVWALK (R261). -/
def execGkvwalk (f : FmtE) (s : State) : Host.Outcome State Fault Refusal :=
  kvForm f (fun _ => if isK f.d then [] else [0x03]) [(0, f.d, 1), (1, f.a, 2)] 2 .plain (fun s os a => do
    let d ← readSeq a (uniPair s os 1).toNat
    let r ← readRoot a
    let (_, x, o) ← walkPos a r d (uni s os 0 0).toNat
    pure [word32 (nBlk x (o / 16)), word32 (o % 16)]) s

/-- GKVWALK with c = 1 (R261). -/
def execGkvwalkNode (f : FmtE) (s : State) : Host.Outcome State Fault Refusal :=
  kvForm f (fun _ => if isK f.d then [] else [0x03]) [(0, f.d, 1), (1, f.a, 2)] 2 .plain (fun s os a => do
    let d ← readSeq a (uniPair s os 1).toNat
    let r ← readRoot a
    let (n, _, o) ← walkPos a r d (uni s os 0 0).toNat
    pure [word32 n, word32 o]) s

/-- GKVREF (R132, R262). -/
def execGkvref (f : FmtE) (s : State) : Host.Outcome State Fault Refusal :=
  kvForm f noAp [(0, f.d, 1), (1, f.a, 1)] 1 .release (fun s os a => do
    let r ← readRoot a
    let b := (uni s os 1 0).toNat
    kvWhen (decide (r.count ≤ b)) 0xA4
    let n ← addRef a r b (uni s os 0 0).toInt
    kvMod stepMade
    pure [word32 n]) s

/-- GKVNEW (R133, R263). -/
def execGkvnew (f : FmtE) (s : State) : Host.Outcome State Fault Refusal :=
  kvForm f noAp [(1, f.a, 2)] 4 .release (fun s os a => do
    let (va, slot, b) ← append a (uniPair s os 0).toNat
    pure [word32 va, word32 (va / 2 ^ 32), word32 slot, word32 b]) s

/-- GREPWM with c = 0 (R266): acquires at tenant scope. -/
def execGrepwm (f : FmtE) (s : State) : Host.Outcome State Fault Refusal :=
  kvForm f noAp [(1, f.a, 1)] 1 .strong (fun s os a => do
    let r ← readRoot a
    let b := (uni s os 0 0).toNat
    kvWhen (decide (r.count ≤ b)) 0xA4
    let e ← kvAcquire a (entryVa r b) 16
    pure [word32 (eRwm e + (if ePend e then 256 else 0) + (if eRfail e then 512 else 0) +
      (if eValid e then 1024 else 0) + 2048 * ePstate e)]) s

/-- GPROV with c = 0 (R267). -/
def execGprov (f : FmtE) (s : State) : Host.Outcome State Fault Refusal :=
  kvForm f noAp [(1, f.a, 1)] 4 .plain (fun s os a => do
    let r ← readRoot a
    let b := (uni s os 0 0).toNat
    kvWhen (decide (r.count ≤ b)) 0xA4
    let e ← kvRd a (entryVa r b) 16
    if eProv e = none32 then pure [0xFFFFFFFF, 0xFFFFFFFF, 0xFFFFFFFF, 0xFFFFFFFF]
    else do
      let x ← kvRd a (r.tags + 16 * eProv e) 16
      pure (natWords 4 x)) s

/-- GPROV with c = 1 (R267). -/
def execGprovEnt (f : FmtE) (s : State) : Host.Outcome State Fault Refusal :=
  kvForm f noAp [(1, f.a, 1)] 2 .plain (fun s os a => do
    let r ← readRoot a
    let b := (uni s os 0 0).toNat
    kvWhen (decide (r.count ≤ b)) 0xA4
    let e ← kvRd a (entryVa r b) 16
    pure [word32 (bits e 79 48), word32 (bits e 95 80)]) s

/-! ## Ring tables (R144, R145, R268) -/

/-- Bytes 2 [2:1] of an entry: KIND; a normal entry without tokens acts as pass-through. -/
def ringKind (e : Nat) : Nat := if bits e 18 17 = 0 && bits e 95 64 = 0 then 2 else bits e 18 17

/-- The table is malformed. -/
def ringBad (h : Nat) (es : List Nat) (e : Nat) : Bool :=
  let skips := es.filter fun x => ringKind x == 1
  let subOf (x : Nat) : Nat := bits x 31 24
  h % 256 == 0 || h / 256 != 0 ||
    (es.any fun x => bits x 18 17 == 3 || bits x 23 19 != 0 || bits x 127 96 != 0 || (bits x 18 17 == 2 && bits x 95 64 != 0)) ||
    (skips.any fun x => match es[subOf x]? with | some y => ringKind y != 0 | none => true) ||
    (skips.any fun x => decide (1 < (skips.filter fun y => subOf y == subOf x).length)) ||
    (es.all fun x => ringKind x == 1) || (match es[e]? with | some x => ringKind x == 1 | none => true)

/-- What gring computes (R145). -/
def ringStep (es : List Nat) (e step : Nat) : List Word :=
  let live := (upto es.length).filter fun i => ringKind (es.getD i 0) != 1
  let nl := live.length
  let j := (live.findIdx? fun i => i == e).getD 0
  let succ := live.getD ((j + 1) % nl) 0
  let origin := live.getD ((j + nl - step % nl) % nl) 0
  let skip := ((upto es.length).find? fun i => ringKind (es.getD i 0) == 1 && bits (es.getD i 0) 31 24 == origin).getD 255
  let x := es.getD succ 0
  let y := es.getD origin 0
  [word32 (succ + 256 * origin + 65536 * skip + 2 ^ 24 * bits x 16 16), word32 (bits x 15 0), word32 (bits y 63 32),
    word32 (bits y 95 64)]

/-- GRING (R144, R145, R268). -/
def execGring (f : FmtE) (s : State) : Host.Outcome State Fault Refusal :=
  kvForm f (fun _ => if isK f.d then [] else [0x03]) [(0, f.d, 2), (1, f.a, 2)] 4 .plain (fun s os a => do
    let va := (uniPair s os 1).toNat
    let h ← kvRd a va 16
    let es ← kvMap (fun i => kvRd a (va + 16 + 16 * i) 16) (upto (h % 256))
    let e := (uni s os 0 0).toNat % 256
    kvWhen (ringBad h es e) 0xAA
    pure (ringStep es e (uni s os 0 1).toNat)) s

/-! ## Long forms -/

/-- Runs the steps after a progress point; each that is done moves PIDX (R153). What stopped it, if anything, and the
state with every finished step. -/
def runSteps : List (Kv Unit) → Nat → Nat → State → Option Halt × State
  | [], _, _, s => (none, s)
  | m :: t, i, from_, s =>
    if i < from_ then runSteps t (i + 1) from_ s
    else
      match m s with
      | .error e => (some e, s)
      | .ok (_, s') => runSteps t (i + 1) from_ (stepMade { s' with g := { s'.g with pidx := word32 (i + 1) } })

/-- A long instruction is stopped: PIDX and the finished steps stay (R153). -/
def stopLong (s t : State) (h : Halt) : Res :=
  match h with
  | .hold pte => .wait .held (collapseAt t pte)
  | .cause c va =>
    if c = 0x30 then .after t ⟨0x30, .c, 0, active s, BitVec.ofNat 64 va, curPc s⟩
    else .wait .none (raiseNow t (preciseAt s c va) (active s))

/-! ## Splices (R134, R135) -/

/-- A splice descriptor. -/
structure SpliceDesc where
  seq : Nat
  pos : Nat
  list : List Nat
  ns : Nat
  nt : Nat
deriving DecidableEq, Repr

/-- Reads a splice descriptor (R134). -/
def readSplice (a : Acc) (va : Nat) : Kv SpliceDesc := do
  let x ← kvRd a va 64
  let nb := bits x 98 96
  let blk (i : Nat) : Nat := bits x (159 + 32 * i) (128 + 32 * i)
  let bad := bits x 63 57 != 0 || nb == 0 || decide (4 < nb) || bits x 127 99 != 0 ||
    ((upto 4).any fun i => decide (nb ≤ i) && blk i != none32) || bits x 511 320 != 0
  kvWhen bad 0x02
  pure ⟨bits x 56 0, bits x 95 64, (upto nb).map blk, bits x 287 256, bits x 319 288⟩

/-- Where P falls. -/
inductive SpliceCase
  | inside | atStart | atRoot | atEnd
deriving DecidableEq, Repr

/-- What the steps of a splice work on: the node N (or the leaf), its parent and the place in it, the offset of P in N,
the nodes after NS. -/
structure SplicePlan where
  m : Nat
  kase : SpliceCase
  n : Nat
  x : Nat
  parent : Nat
  kid : Nat
  o : Nat
  after : List Nat
deriving DecidableEq, Repr

/-- The sequence's path before a splice: nodes in order, with the place of each in its parent. Identities from P onward
have moved up by M (R134). -/
def oldPath (a : Acc) (r : KvRoot) (d : SeqDesc) (p m : Nat) : Nat → Nat → Nat → Kv (List (Nat × Nat × Nat))
  | 0, _, _ => kvFail 0xA4
  | f + 1, n, i => do
    let x ← readNode a r n
    if d.length ≤ nEnd x then pure [(n, x, i)]
    else do
      let key ← tokAt a d (if nEnd x < p then nEnd x else nEnd x + m)
      match childFor x key with
      | none => kvFail 0xA4
      | some j => do
        let t ← oldPath a r d p m f (nKid x j) j
        pure ((n, x, i) :: t)

/-- The nodes after NS once it is linked: `pos` is where the next one starts in the new numbering. -/
def newPath (a : Acc) (r : KvRoot) (d : SeqDesc) (m : Nat) : Nat → Nat → Nat → Kv (List Nat)
  | 0, _, _ => kvFail 0xA4
  | f + 1, x, pos =>
    if d.length + m ≤ pos then pure []
    else do
      let key ← tokAt a d pos
      match childFor x key with
      | none => kvFail 0xA4
      | some j => do
        let y ← readNode a r (nKid x j)
        let t ← newPath a r d m f y (pos + nLen y)
        pure (nKid x j :: t)

/-- The block indices that a node uses. -/
def usedBlocks (r : KvRoot) (x : Nat) : List Nat := ((upto 4).map (nBlk x)).filter fun b => decide (b < r.count)

/-- The FILL values of the listed blocks, after check 2 of R135 if asked. -/
def spliceFills (a : Acc) (r : KvRoot) (check : Bool) (l : List Nat) : Kv (List Nat) :=
  kvMap (fun i => do
    let b := l.getD i 0
    kvWhen (decide (r.count ≤ b)) 0xA4
    let e ← readEntry a r b
    kvWhen (check && (!eValid e || (decide (i + 1 < l.length) && eFill e != 16))) 0xA4
    pure (eFill e)) (upto l.length)

/-- Check 3 of R135 on one block. -/
def spliceTag (a : Acc) (r : KvRoot) (d : SeqDesc) (b : Nat) : Kv Unit := do
  let e ← readEntry a r b
  kvWhen (eProv e == none32) 0xA2
  let t ← kvRd a (r.tags + 16 * eProv e) 16
  kvWhen (bits t 95 80 != d.model || bits t 111 96 != d.version) 0xA2

/-- The plan of a splice whose NS is not linked yet, with the checks of R135 if `check`. -/
def splicePlan (a : Acc) (r : KvRoot) (d : SeqDesc) (q : SpliceDesc) (check : Bool) : Kv SplicePlan := do
  kvWhen (decide (d.length < q.pos)) 0xA4
  let fills ← spliceFills a r check q.list
  let m := fills.foldl (· + ·) 0
  if check then kvEach (spliceTag a r d) q.list else pure ()
  let path ← oldPath a r d q.pos m walkFuel d.root 0
  let k := (path.findIdx? fun e => decide (nStart e.2.1 ≤ q.pos) && decide (q.pos < nEnd e.2.1)).getD path.length
  let atEnd := q.pos == d.length
  kvWhen (!atEnd && decide (path.length ≤ k)) 0xA4
  let (n, x, o) ←
    if atEnd then leafOf a r d
    else do
      let e := path.getD k (0, 0, 0)
      pure (e.1, e.2.1, q.pos - nStart e.2.1 + nBoff e.2.1)
  let kase : SpliceCase :=
    if atEnd then .atEnd else if nStart x < q.pos then .inside else if k = 0 then .atRoot else .atStart
  if check then do
    kvEach (fun e => kvEach (fun b => do let y ← readEntry a r b; kvWhen (ePend y) 0xA9) (usedBlocks r e.2.1)) path
    kvWhen (if atEnd then nShr x || nCh x == 5 else (path.drop k).any fun e => nShr e.2.1) 0xA9
    let need := q.ns :: if kase = .inside then [q.nt] else []
    let free ← kvPeek a (r.at_ + 12) 4
    kvWhen ((kase == .inside && o % 16 != 0 && free == none32) ||
      (need.any fun i => decide (r.nnodes ≤ i) || i == d.root || path.any fun e => e.1 == i) ||
      (kase == .inside && q.ns == q.nt)) 0xA7
  else pure ()
  let after := match kase with | .inside => path.drop (k + 1) | .atEnd => [] | _ => path.drop k
  pure ⟨m, kase, n, x, (path.getD (k - 1) (0, 0, 0)).1, (path.getD k (0, 0, 0)).2.2, o, after.map (·.1)⟩

/-- Changes REF of a block that is in use by a signed delta, with no test of its own (R135, R140); past 0xFFFF it is open. -/
def stepRef (a : Acc) (r : KvRoot) (b : Nat) (delta : Int) : Kv Nat := do
  let x ← kvHome a (entryVa r b) 16
  let s ← kvState
  let n := (eRef x : Int) + delta
  let ref := if 0xFFFF < n then Config.refOver s.free % 2 ^ 16 else n.toNat
  kvRmw a (entryVa r b) 16 (setBits x 63 48 ref)
  pure ref

/-- Sets PSTATE displaced in a block whose REF is 1. -/
def displace (a : Acc) (r : KvRoot) (b : Nat) : Kv Unit := do
  let x ← kvPeek a (entryVa r b) 16
  if eRef x = 1 then kvRmw a (entryVa r b) 16 (setBits x 89 87 3) else pure ()

/-- Copies slots from `slot` on of every layer of a block (R126). -/
def copySlots (a : Acc) (d : SeqDesc) (src dst slot : Nat) : Kv Unit :=
  kvEach (fun i =>
    let off := i / 2 * d.ls + i % 2 * 16 * d.row + slot * d.row
    kvCopy a (src + off) (dst + off) ((16 - slot) * d.row)) (upto (2 * d.layers))

/-- The block from which NT begins: x of step 1, or the block that holds P. -/
def spliceBlock (a : Acc) (r : KvRoot) (va : Nat) (p : SplicePlan) : Kv Nat := do
  let s ← kvState
  if p.o % 16 = 0 then pure (nBlk p.x (p.o / 16))
  else
    match (s.en.splices.filter fun x => x.uid == s.g.who.uid && x.desc == va).getLast? with
    | some x => pure x.block
    | none => pure (Config.spliceBlock s.free % r.count)

/-- Step 1 of R135. -/
def spliceStep1 (a : Acc) (r : KvRoot) (d : SeqDesc) (va : Nat) (p : SplicePlan) : Kv Unit :=
  if p.kase ≠ .inside || p.o % 16 = 0 then pure ()
  else do
    let b := nBlk p.x (p.o / 16)
    kvWhen (decide (r.count ≤ b)) 0xA4
    pinBlock a r b
    let e ← kvPeek a (entryVa r b) 16
    let x ← takeFree a r (eFill e) 3 (eProv e)
    pinBlock a r x
    let y ← kvPeek a (entryVa r x) 16
    copySlots a d (blockVa r e) (blockVa r y) (p.o % 16)
    unpinBlock a r x
    unpinBlock a r b
    kvMod fun s => { s with en := { s.en with splices := s.en.splices ++ [⟨s.g.who.uid, va, x⟩] } }

/-- The two words at byte 0 of a node. -/
def nodeHead (start len boff nch : Nat) : Nat := start % 2 ^ 32 + 2 ^ 32 * (len + 128 * boff + 2048 * nch)

/-- The 16 bytes of block indices; unlisted places are unused. -/
def nodeBlocks (l : List Nat) : Nat := ((upto 4).map fun i => l.getD i none32 * 2 ^ (32 * i)).foldl (· + ·) 0

/-- Step 2 of R135. -/
def spliceStep2 (a : Acc) (r : KvRoot) (q : SpliceDesc) (va : Nat) (p : SplicePlan) : Kv Unit :=
  if p.kase ≠ .inside then pure ()
  else do
    let first ← spliceBlock a r va p
    let blks := first :: (upto 4).filterMap fun i => if p.o / 16 < i then some (nBlk p.x i) else none
    let x := nodeHead (q.pos + p.m) (nEnd p.x - q.pos) (p.o % 16) (nCh p.x) + 2 ^ 64 * nodeBlocks blks +
      2 ^ 192 * (p.x / 2 ^ 192)
    kvPut a (nodeVa r q.nt) 64 x
    kvEach (displace a r) ((usedBlocks r x).filter fun b => p.o % 16 == 0 || b != first)

/-- Step 3 of R135. -/
def spliceStep3 (a : Acc) (r : KvRoot) (d : SeqDesc) (q : SpliceDesc) (p : SplicePlan) : Kv Unit := do
  let first ← if p.kase = .atEnd then pure 0 else tokAt a d (q.pos + p.m)
  let kid := match p.kase with | .inside => q.nt | _ => p.n
  let kids := if p.kase = .atEnd then 0 else kid + 2 ^ 32 * first
  kvPut a (nodeVa r q.ns) 64 (nodeHead q.pos p.m 0 (if p.kase = .atEnd then 0 else 1) + 2 ^ 64 * nodeBlocks q.list +
    2 ^ 192 * kids)

/-- Step 4 of R135: the link of NS and the references. A node that P cuts keeps the blocks of its own run only (R136, R346; DEDUCED,
notes/assumptions/102.md). -/
def spliceStep4 (a : Acc) (r : KvRoot) (d : SeqDesc) (q : SpliceDesc) (p : SplicePlan) : Kv Unit := do
  let first ← tokAt a d q.pos
  let link := q.ns + 2 ^ 32 * first
  match p.kase with
  | .inside => do
    let kept := (p.o + 15) / 16
    kvPut a (nodeVa r p.n + 24) 40 link
    kvPut a (nodeVa r p.n + 8) 16 (nodeBlocks ((upto kept).map (nBlk p.x)))
    kvPut a (nodeVa r p.n + 4) 4 (bits (nodeHead 0 (q.pos - nStart p.x) (nBoff p.x) 1) 63 32 + if nShr p.x then 2 ^ 14 else 0)
  | .atStart => kvRmw a (nodeVa r p.parent + 24 + 8 * p.kid) 8 link
  | .atRoot => kvRmw a (q.seq + 12) 4 q.ns
  | .atEnd => do
    kvPut a (nodeVa r p.n + 24 + 8 * nCh p.x) 8 link
    kvPut a (nodeVa r p.n + 4) 4 (bits p.x 63 32 + 2 ^ 11)
  kvEach (fun b => do
    let n ← stepRef a r b 1
    if n = 1 then updEntry a r b fun x => setBits x 89 87 2 else pure ()) q.list

/-- Step 5 + i of R135 on one node. -/
def spliceShift (a : Acc) (r : KvRoot) (m n : Nat) : Kv Unit := do
  let x ← readNode a r n
  kvPut a (nodeVa r n) 4 ((nStart x + m) % 2 ^ 32)
  kvEach (displace a r) (usedBlocks r x)

/-- How many of the nodes that follow NS already begin where the new numbering puts them. -/
def shiftedRun (a : Acc) (r : KvRoot) : List Nat → Nat → Kv Nat
  | [], _ => pure 0
  | n :: t, pos => do
    let x ← readNode a r n
    if nStart x = pos then do let c ← shiftedRun a r t (pos + nLen x); pure (c + 1) else pure 0

/-- The nodes that follow NS and that step 5 + i shifts, when NS is linked (R135): NT is none of them, for step 2 wrote it in place.
The node with the index NT is that one if it began in its place before any node was shifted: then one more node than PIDX counts
stands where it belongs. -/
def exceptTail (a : Acc) (r : KvRoot) (q : SpliceDesc) (m done : Nat) (l : List Nat) : Kv (List Nat) := do
  let c ← shiftedRun a r l (q.pos + m)
  pure (if l.head? = some q.nt ∧ done < c then l.drop 1 else l)

/-- The steps of a splice from a progress point on, and M. -/
def spliceSteps (a : Acc) (va pidx : Nat) : Kv (Nat × List (Kv Unit) × SeqDesc × SpliceDesc) := do
  let q ← readSplice a va
  let d ← readSeq a q.seq
  let r ← readRoot a
  if pidx < 4 then do
    let p ← splicePlan a r d q (pidx == 0)
    pure (p.m, [spliceStep1 a r d va p, spliceStep2 a r q va p, spliceStep3 a r d q p, spliceStep4 a r d q p] ++
      p.after.map (spliceShift a r p.m), d, q)
  else do
    let fills ← spliceFills a r false q.list
    let m := fills.foldl (· + ·) 0
    let ns ← readNode a r q.ns
    let l ← newPath a r d m walkFuel ns (q.pos + m)
    let l ← exceptTail a r q m (pidx - 4) l
    pure (m, [pure (), pure (), pure (), pure ()] ++ l.map (spliceShift a r m), d, q)

/-- Forgets the blocks that step 1 of earlier splices with a descriptor took. -/
def dropSplices (s : State) (a : Acc) (va : Nat) : State :=
  { s with en := { s.en with splices := s.en.splices.filter fun x => !(x.uid == s.g.who.uid && x.desc == va) } }

/-- GSPLICE (R135, R264). -/
def execGsplice (f : FmtE) (s : State) : Host.Outcome State Fault Refusal :=
  issue s f.nas ⟨noAp s ++ kBad f.a 2, codes f.a 2, codes f.d 1⟩ fun s =>
    match takeAll [(1, f.a, 2)] s with
    | .error e => portStop s e
    | .ok (os, s') =>
      let a := accOf s.g
      let va := (uniPair s os 0).toNat
      match releaseStop s with
      | some r => r
      | none =>
        kvRes s (uniteActive s') (spliceSteps a va s.g.pidx.toNat) fun (m, steps, d, q) t =>
          let t := if s.g.pidx = 0 then dropSplices t a va else t
          if steps.length < s.g.pidx.toNat then .trap (precise s 0x0B)
          else
            match runSteps steps 0 s.g.pidx.toNat t with
            | (some h, t) => stopLong s t h
            | (none, t) =>
              match kvRelease a (q.seq + 8) 4 (d.length + m) t with
              | .error h => stopLong s t h
              | .ok (_, t) =>
                let t := stepMade t
                kvResult s (dropSplices { t with g := { t.g with pidx := 0 } } a va) f [word32 m]

/-! ## Repairs (R137 to R142, R343, R344) -/

/-- A repair descriptor (R138). -/
structure RepairDesc where
  seq : Nat
  pos : Nat
  n : Nat
  cp : Nat
  prio : Nat
  fresh : Nat
  kcode : Nat
  scr : Nat
  join : Nat
deriving DecidableEq, Repr

/-- Reads a repair descriptor. -/
def readRepair (a : Acc) (va : Nat) : Kv RepairDesc := do
  let x ← kvRd a va 64
  let q : RepairDesc := ⟨bits x 56 0, bits x 95 64, bits x 127 96, bits x 135 128, bits x 137 136, bits x 248 192,
    bits x 312 256, bits x 376 320, bits x 447 384⟩
  let bad := bits x 63 57 != 0 || q.n == 0 || decide (4096 < q.n) || bits x 191 138 != 0 || bits x 255 249 != 0 ||
    bits x 319 313 != 0 || bits x 383 377 != 0 || bits x 511 448 != 0 || q.scr % 64 != 0 || q.kcode % 4 != 0
  kvWhen bad 0x02
  pure q

/-- A length rounded up to 64 bytes. -/
def up64 (n : Nat) : Nat := (n + 63) / 64 * 64

/-- The position list in the scratch area (R343). -/
def scrList (scr n : Nat) : Nat := scr + 64 + up64 ((n + 7) / 8)

/-- The join block of a layer in the scratch area, given how many frames a layer has (R343). -/
def scrLayer (scr n frames cp layer : Nat) : Nat :=
  scrList scr n + up64 (4 * n) + (layer - (cp + 1)) * (64 + up64 (32 * frames))

/-- The selected tokens among the first `done` of the range, by the bitmap (R343). -/
def selectedOf (a : Acc) (q : RepairDesc) (done : Nat) : Kv (List Nat) := do
  let m ← kvRd a (q.scr + 64) (up64 ((q.n + 7) / 8))
  pure ((upto (min done q.n)).filter (bit m))

/-- The deviation of R139 from pairs of elements. -/
def deviation (f : Fmt) (e : Nat) (ks fr : Nat) : Nat → Nat → Nat → Nat
  | 0, _, dv => dv
  | n + 1, i, dv =>
    let el (x : Nat) : Nat := (fWiden f f32 (x / 2 ^ (8 * e * i) % 2 ^ (8 * e))).1
    let t := (fSub f32 (el ks) (el fr)).1
    deviation f e ks fr n (i + 1) (fAdd f32 dv (fMul f32 t t).1).1

/-- Measures token j (R139, R140). -/
def measure (a : Acc) (r : KvRoot) (d : SeqDesc) (q : RepairDesc) (j : Nat) : Kv Unit := do
  let (_, x, o) ← walkPos a r d (q.pos + j)
  let b := nBlk x (o / 16)
  pinBlock a r b
  let e ← kvPeek a (entryVa r b) 16
  let ks ← kvRd a (blockVa r e + q.cp * d.ls + o % 16 * d.row) d.row
  let fr ← kvRd a (q.fresh + (j * (q.cp + 1) + q.cp) * 2 * d.row) d.row
  let s ← kvState
  let dv := deviation d.fmt d.esize ks fr (d.heads * d.dim) 0 0
  let picked := !(fLt f32 dv s.g.rth.toNat || fEq f32 dv s.g.rth.toNat)
  let old ← kvRd a (q.scr + 64 + j / 8) 1
  let before ← selectedOf a q j
  kvPut a (q.scr + 64 + j / 8) 1 (setBits old (j % 8) (j % 8) (if picked then 1 else 0))
  if picked then kvPut a (scrList q.scr q.n + 4 * before.length) 4 (q.pos + j) else pure ()
  unpinBlock a r b

/-- Copies the block of a selected token if other sequences refer to it (R140, R344). -/
def privatise (a : Acc) (r : KvRoot) (d : SeqDesc) (q : RepairDesc) (j : Nat) : Kv Unit := do
  let (n, x, o) ← walkPos a r d (q.pos + j)
  let b := nBlk x (o / 16)
  let e ← kvPeek a (entryVa r b) 16
  if eRef e ≤ 1 then pure ()
  else do
    pinBlock a r b
    let y ← takeFree a r (eFill e) 2 (eProv e)
    pinBlock a r y
    let z ← kvPeek a (entryVa r y) 16
    copySlots a d (blockVa r e) (blockVa r z) 0
    unpinBlock a r y
    unpinBlock a r b
    kvPut a (nodeVa r n + 8 + 4 * (o / 16)) 4 y
    let _ ← stepRef a r b (-1)
    pure ()

/-- The blocks that hold the selected tokens. -/
def markedBlocks (a : Acc) (r : KvRoot) (d : SeqDesc) (q : RepairDesc) (picks : List Nat) : Kv (List Nat) := do
  let l ← kvMap (fun j => do let (_, x, o) ← walkPos a r d (q.pos + j); pure (nBlk x (o / 16))) picks
  pure (distinct l)

/-- Writes layers 0..CP of a selected token from FRESH (R140). -/
def checkpoint (a : Acc) (r : KvRoot) (d : SeqDesc) (q : RepairDesc) (j : Nat) : Kv Unit := do
  let (_, x, o) ← walkPos a r d (q.pos + j)
  let b := nBlk x (o / 16)
  pinBlock a r b
  let e ← kvPeek a (entryVa r b) 16
  kvEach (fun i =>
    kvCopy a (q.fresh + (j * (q.cp + 1) * 2 + i) * d.row)
      (blockVa r e + i / 2 * d.ls + i % 2 * 16 * d.row + o % 16 * d.row) d.row) (upto (2 * (q.cp + 1)))
  unpinBlock a r b

/-- The checks of R140 that need the sequence. -/
def repairChecks (a : Acc) (r : KvRoot) (d : SeqDesc) (q : RepairDesc) : Kv Unit := do
  kvWhen (decide (d.length < q.pos + q.n)) 0xA4
  let l ← kvMap (fun j => walkPos a r d (q.pos + j)) (upto q.n)
  kvEach (fun e => do
    let y ← readEntry a r (nBlk e.2.1 (e.2.2 / 16))
    kvWhen (ePend y || nShr e.2.1) 0xA9) l

/-- The steps of grepair (R140), by progress point. -/
def repairSteps (a : Acc) (r : KvRoot) (d : SeqDesc) (q : RepairDesc) : List (Kv Unit) :=
  (upto q.n).map (measure a r d q) ++
    [do let l ← selectedOf a q q.n; kvEach (privatise a r d q) l,
     do
      let l ← selectedOf a q q.n
      let bs ← markedBlocks a r d q l
      kvEach (fun b => updEntry a r b fun x => setBits (setBits x 81 81 1) 79 72 0) bs,
     do
      let l ← selectedOf a q q.n
      kvEach (checkpoint a r d q) l
      let bs ← markedBlocks a r d q l
      kvEach (fun b => updEntry a r b fun x => setBits x 79 72 (q.cp + 1)) bs
      kvPut a q.scr 4 l.length]

/-! ## Anneal's records -/

/-- Writes a layer's join block and frames (R140, R343): the join block's address and the number of frames; with no
layer left it ends the repair of the marked blocks. -/
def annealLayer (r : Repair) : Kv (Option (Nat × Nat)) := do
  let a := r.acc
  let bs (f : Nat → Nat) : Kv Unit := kvEach (fun b => do
    let x ← kvHome a (r.tbl + 16 * b) 16
    kvRmw a (r.tbl + 16 * b) 16 (f x)) r.blocks
  if r.layers ≤ r.layer || r.picked.isEmpty then do
    bs fun x => setBits (setBits x 81 81 0) 89 87 4
    pure none
  else do
    let count := r.picked.length
    let frames := (count + 31) / 32
    let at_ := scrLayer r.scr r.range frames r.cp r.layer
    kvEach (fun i =>
      kvPut a (at_ + 64 + 32 * i) 32 (r.seqAt + 2 ^ 64 * r.layer + 2 ^ 96 * min 32 (count - 32 * i) +
        2 ^ 128 * (scrList r.scr r.range + 128 * i) + 2 ^ 192 * at_)) (upto frames)
    kvPut a at_ 64 frames
    pure (some (at_, frames))

/-- Pushes the records of a layer's frames (R43, R140), from frame i on. One that is discarded fails the layer's join, which abandons
the repair: no further record is then pushed (R142). -/
def pushFrames (r : Repair) (at_ : Nat) (ids : List Nat) : Nat → Nat → State → State
  | 0, _, s => s
  | n + 1, i, s =>
    match enqueueAs s r.acc r.cluster (mkRecord r.kcode (at_ + 64 + 32 * i) at_ r.prio 0 0) r.cluster ids with
    | ([], s) => pushFrames r at_ ids n (i + 1) s
    | (more, s) => runChores choreFuel s (more.map .join)

/-- No abandoned repair holds a join block any more (R140): a new layer begins there. -/
def dropGone (s : State) (vf at_ : Nat) : State :=
  { s with en := { s.en with repairs := s.en.repairs.filter fun x => !(x.stage == .gone && x.vf == vf && x.joinAt == at_) } }

/-- Anneal goes on with a repair: the next layer's records, or its end (R140). -/
def annealGo (s : State) (r : Repair) : Except Halt State :=
  match runAs s r.acc r.ids (annealLayer r) with
  | .error e => .error e
  | .ok (none, ids, s) =>
    let last : Repair := { r with stage := .ending, ids := ids }
    .ok (joinedRepairs (if r.join = 0 then setRepair s r.num none else doChore (setRepair s r.num (some last)) last.finalJoin))
  | .ok (some (at_, frames), ids, s) =>
    let s := setRepair (dropGone s r.vf at_) r.num (some { r with stage := .layers, joinAt := at_, ids := ids })
    .ok (pushFrames r at_ ids frames 0 s)

/-- A computation beside which a cause holds: R154 chooses among it and the computation's own. -/
def kvBeside {α : Type} (b : Bool) (c : Nat) (m : Kv α) : Kv α := fun s =>
  if !b then m s
  else
    match m s with
    | .error (.cause e va) => .error (if causeRank e < causeRank c then .cause e va else .cause c 0)
    | _ => .error (.cause c 0)

/-- GREPAIR (R140, R265). -/
def execGrepair (f : FmtE) (s : State) : Host.Outcome State Fault Refusal :=
  issue s f.nas ⟨noAp s ++ kBad f.a 2, codes f.a 2, codes f.d 1⟩ fun s =>
    match takeAll [(1, f.a, 2)] s with
    | .error e => portStop s e
    | .ok (os, s') =>
      let a := accOf s.g
      let va := (uniPair s os 0).toNat
      let pidx := s.g.pidx.toNat
      let plan : Kv (KvRoot × SeqDesc × RepairDesc × List Nat) := do
        let q ← readRepair a va
        let d ← readSeq a q.seq
        kvWhen (decide (d.layers ≤ q.cp)) 0x02
        let r ← kvBeside (decide (q.n + 3 < pidx)) 0x0B (readRoot a)
        if pidx = 0 then repairChecks a r d q else pure ()
        let l ← selectedOf a q pidx
        pure (r, d, q, l)
      let isMine (x : Repair) : Bool := x.vf == a.vf && x.ident == a.ident && x.desc == va && x.stage == .measure
      match releaseStop s with
      | some r => r
      | none =>
        kvRes s (uniteActive s') plan fun (r, d, q, sel) t =>
          let (num, t) := match t.en.repairs.find? isMine with | some x => (x.num, t) | none => takeFresh t
          let base : Repair := ⟨num, a.vf, a.ident, a.mode, a.die, issuingCluster s.g.who.loc, q.seq, va, q.prio, q.cp,
            d.layers, q.kcode, q.scr, q.join, r.tbl, q.n, [], [], .measure, q.cp + 1, 0, false, []⟩
          let done (t : State) (n : Nat) : Res := kvResult s { t with g := { t.g with pidx := 0 } } f [word32 n]
          if t.en.repairs.any fun x => x.num == num && x.abort then done (setRepair t num none) sel.length
          else
            let found : Kv (List Nat × List Nat) := do
              let l ← selectedOf a q q.n
              let bs ← markedBlocks a r d q l
              pure (l, bs)
            let kept (t : State) : Repair :=
              { base with
                blocks := if t.g.pidx.toNat < q.n + 2 then [] else match found t with | .ok (x, _) => x.2 | .error _ => []
                ids := knownIds t.g.ord (active s) }
            match runSteps (repairSteps a r d q) 0 pidx t with
            | (some h, t) => stopLong s (setRepair t num (some (kept t))) h
            | (none, t) =>
              match found t with
              | .error h => stopLong s (setRepair t num (some (kept t))) h
              | .ok ((l, bs), t) =>
                let ready : Repair := { base with picked := l, blocks := bs, ids := knownIds t.g.ord (active s) }
                match annealGo t ready with
                | .ok t => done t l.length
                | .error (.hold pte) => .wait .held (collapseAt (setRepair t num (some ready)) pte)
                | .error (.cause _ _) => done (abandon (setRepair t num (some ready)) ready none) l.length

/-- A step of the device that a page holds back: it begins the collapse of the page's duplicates (R105), if it has any. -/
def heldStep (s : State) (pte : Nat) : Host.Outcome State Fault Refusal := .next (collapseAt s pte)

/-- The keys of the join block of a repair's layer. -/
def ljoinKeys (s : State) (r : Repair) : List Nat :=
  match vaKeys s r.acc .load r.joinAt 4 with
  | .ok (keys, _) => keys
  | .error _ => []

/-- COUNT of a repair's layer has reached 0 (R140). -/
def layerDone (s : State) (r : Repair) : Bool :=
  let keys := ljoinKeys s r
  r.stage == .layers && keys.length == 4 && homeNat s keys == 0

/-- What Anneal's acquire of the final join of the layer gains (R141). -/
def layerIds (s : State) (r : Repair) : List Nat :=
  r.ids ++ gained (enter s r.acc r.ids) ((ljoinKeys s r).headD 0)

/-- The advance of RWM in the marked blocks (R141). -/
def advanceRwm (r : Repair) : Kv Unit := kvEach (fun b => do
  let x ← kvHome r.acc (r.tbl + 16 * b) 16
  kvRmw r.acc (r.tbl + 16 * b) 16 (setBits x 79 72 (r.layer + 1))) r.blocks

/-- LAYER_JOIN_COMPLETE (R140, R141): a layer's COUNT has reached 0; RWM moves on and the next layer begins. Anneal pauses
while the VF holds no cores (R142). -/
def execLayerJoinComplete (n : Nat) (s : State) : Host.Outcome State Fault Refusal :=
  match s.en.repairs.find? fun r => r.num == n && r.stage == .layers with
  | none => .next s
  | some r =>
    let holds := (upto 560).any fun c => coreVf s c == some r.vf
    if !layerDone s r || !holds then .next s
    else
      match runAs s r.acc (layerIds s r) (advanceRwm r) with
      | .error (.hold pte) => heldStep s pte
      | .error (.cause _ _) => .next (abandon s r none)
      | .ok (_, ids, t) =>
        let r' : Repair := { r with layer := r.layer + 1, ids := ids }
        match annealGo (stepMade t) r' with
        | .ok t => .next t
        | .error (.hold pte) => heldStep s pte
        | .error (.cause _ _) => .next (abandon (setRepair t r.num (some r')) r' none)

/-- An abort meets a repair (R142). A layer whose final join has reached Anneal is taken first: RWM advances, and no further record is
pushed (R270). A grepair that has not completed stops at its next issue, and a final join that still waits for its page is not made. -/
def abortRepair (s : State) (r : Repair) : State :=
  if layerDone s r then doChore (setRepair (dropFrames s r) r.num none) ({ r with ids := layerIds s r }.abandonment (some (r.layer + 1)))
  else
    let s := { s with en := { s.en with chores := s.en.chores.filter fun x => !(r.stage == .ending && x == r.finalJoin) } }
    let s := abandon s r none
    if r.stage == .measure then setRepair s r.num (some { r with abort := true, join := 0, blocks := [] }) else s

/-- GREPWM with c = 1 (R142, R266): abandons every repair of a sequence that is in progress. -/
def execGrepwmAbort (f : FmtE) (s : State) : Host.Outcome State Fault Refusal :=
  let low := s.g.mode == .usr
  issue s f.nas ⟨noAp s ++ (if low then [0x0C] else []) ++ kBad f.a 2, codes f.a 2, codes f.d 1⟩ fun s =>
    match takeAll [(1, f.a, 2)] s with
    | .error e => portStop s e
    | .ok (os, s') =>
      let va := (uniPair s os 0).toNat
      let hit := s.en.repairs.filter fun r => r.vf == s.g.who.vf && r.seqAt == va && !r.abort && r.stage != .gone
      if !bit (vfReg s s.g.who.vf 0x050).toNat 63 then .trap (precise s 0xA4)
      else kvResult s (hit.foldl abortRepair s') f [word32 hit.length]

/-! ## Loads of blocks (R143, R257, R258) -/

/-- What the tests of R143 come to. -/
inductive BlockTest
  | fails (c : Nat)
  | stalls
  | reads (stale : Bool)
deriving DecidableEq, Repr

/-- The tests of R143 on an entry and its tag for layer y. -/
def blockTest (d : SeqDesc) (e y : Nat) (tag : Option Nat) (mode : Nat) : BlockTest :=
  let wrong := match tag with
    | some t => bits t 95 80 != d.model || bits t 111 96 != d.version || decide (y < bits t 119 112) || decide (bits t 127 120 < y)
    | none => false
  let late := decide (eRwm e ≤ y)
  if !eValid e then .fails 0xA4
  else if wrong then .fails 0xA2
  else if eRfail e && late then .fails 0xA3
  else if ePend e && late then
    (if mode = 0 then .stalls else if mode = 1 then .reads true else if mode = 2 then .fails 0xA3 else .fails 0x02)
  else .reads false

/-- Steps 1 to 3 of R258: the window address of the part and its words, and whether the data are stale. A block whose release is
deferred, or that 255 engines stream, is waited for. -/
def openBlock (a : Acc) (seq b y part mode : Nat) : Kv (Nat × Nat × Bool) := do
  let d ← readSeq a seq
  let r ← readRoot a
  kvWhen (decide (r.count ≤ b) || decide (d.layers ≤ y)) 0xA4
  let e ← kvAcquire a (entryVa r b) 16
  kvWhen (!eValid e) 0xA4
  let tag ← if eProv e = none32 then pure none else do let t ← kvRd a (r.tags + 16 * eProv e) 16; pure (some t)
  match blockTest d e y tag mode with
  | .fails c => kvFail c
  | .stalls => kvHold true; pure (0, 0, false)
  | .reads stale => do
    kvHold (eDrel e)
    pinBlock a r b
    pure (blockVa r e + y * d.ls + part * 16 * d.row, 4 * d.row, stale)

/-- The address of the word of a part that a lane reads (R257): the window address of the part and its words, word k[a + 3], the offset. -/
def partWord (base words w3 : Nat) (off : Int) (l : Nat) : Nat :=
  base + 4 * (((bits w3 31 9 : Int) + 32 * off + l) % (words : Int)).toNat

/-- The part that vkvld names, as the descriptors and the entry now stand. -/
def partOfBlock (a : Acc) (seq b y part : Nat) : Kv (Nat × Nat) := do
  let d ← readSeq a seq
  let r ← readRoot a
  let e ← kvPeek a (entryVa r b) 16
  pure (blockVa r e + y * d.ls + part * 16 * d.row, 4 * d.row)

/-- VKVLD (R143, R257, R258). The pin is given back once the loads have returned. -/
def execVkvld (f : FmtM) (s : State) : Host.Outcome State Fault Refusal :=
  let mark := s.g.akv.toNat % 4 == 1
  let regs := codes f.d 1 ++ if mark then [70] else []
  issue s f.nas ⟨coreOnly s ++ vBad f.d 1 ++ kBad f.a 4, codes f.a 4, regs⟩ fun s =>
    match takeAll [(1, f.a, 4)] s with
    | .error e => portStop s e
    | .ok (os, s') =>
      let a := accOf s.g
      let w3 := (uni s os 0 3).toNat
      let b := (uni s os 0 2).toNat
      if active s = 0 then .ok s'
      else
        match goneStop s (active s) with
        | some t => .stop t
        | none =>
        kvRes s s' (openBlock a (uniPair s os 0).toNat b (bits w3 7 0) (bits w3 8 8) (s.g.akv.toNat % 4))
          fun (base, words, stale) t =>
            let reqs : List Req := (lanesOf (active s)).map fun l => ⟨l, partWord base words w3 f.off.toInt l⟩
            let op : MemOp := ⟨false, 4, .load, false, none⟩
            match checkAccess t a op ownLane reqs with
            | .error (.wait x _) => .wait x s
            | .error r => r
            | .ok ps =>
              let (vals, gone, addr, u, filed) := doLoads t a op false ownLane reqs ps
              let u := putReturned u f.d.toNat (vals.map fun v => (v.1, wordsOf 4 v.2))
              let done := active s &&& ~~~gone
              let u := if mark then
                  putMask u 6 (if stale then mAt u.g 6 ||| done else mAt u.g 6 &&& ~~~done)
                else u
              let u := keepChore u (.unpin a b (knownIds u.g.ord (active s)) (some (s.g.who.uid, u.fresh)))
              finishAccess (openLoad s u f.la.toNat regs
                (laneKeys f.d.toNat 1 (active s) ++ if mark then [mKey 6] else []) gone addr (loadSrcs t a op reqs ps)) ps op reqs filed

end Sys2Proof.Machine
end

