-- ==== Sys2Proof/Machine/Engines.lean ====
section
/-! DEFINITION. Engine commands (15; R83, R85, R100, R132, R153, R297 to R300, R364): copy, fill, gather, scatter and
collectives; the chunks that engines complete. -/

namespace Sys2Proof.Machine

/-! ## Descriptors -/

/-- The access rights of a command (R83). -/
def Cmd.acc (c : Cmd) : Acc := ⟨c.vf, c.ident, c.mode, c.die⟩

/-- BB of a descriptor. -/
def dBar (x : Nat) : Nat := bits x 191 128

/-- LEN of a copy or collective. -/
def dLen (x : Nat) : Nat := bits x 223 192

/-- CS of a copy. -/
def copyChunk (x : Nat) : Nat := 64 * 2 ^ bits x 227 224

/-- BV of a copy descriptor. -/
def copyBv (x : Nat) : Bool := bit x 232
/-- DV of a copy descriptor. -/
def copyDv (x : Nat) : Bool := bit x 233
/-- SV of a copy descriptor. -/
def copySv (x : Nat) : Bool := bit x 234

/-- A copy descriptor holds a reserved value (R297). -/
def copyBad (x : Nat) : Bool := dLen x == 0 || decide (10 < bits x 227 224) || bits x 231 228 != 0 || bits x 255 235 != 0 || bits x 511 288 != 0

/-- COUNT of a gather or scatter. -/
def gatCount (x : Nat) : Nat := bits x 287 256
/-- ES of a gather or scatter. -/
def gatSize (x : Nat) : Nat := 4 * 2 ^ bits x 290 288
/-- The elements of a chunk. -/
def gatChunk (x : Nat) : Nat := max 1 (64 * 2 ^ bits x 299 296 / gatSize x)
/-- BV of a gather descriptor. -/
def gatBv (x : Nat) : Bool := bit x 304
/-- DV of a gather descriptor. -/
def gatDv (x : Nat) : Bool := bit x 305

/-- A gather or scatter descriptor holds a reserved value (R298). -/
def gatBad (x : Nat) (add : Bool) : Bool :=
  gatCount x == 0 || decide (2 ^ 24 < gatCount x) || decide (4 < bits x 290 288) || bits x 295 291 != 0 ||
    decide (10 < bits x 299 296) || bits x 303 300 != 0 || bits x 511 306 != 0 || (add && bits x 290 288 != 2)

/-- The element size of a collective's operation (R299). -/
def collSize (x : Nat) : Nat := if bits x 227 224 = 1 then 2 else 4

/-- CGRP of a collective. -/
def collGroup (x : Nat) : Nat := bits x 239 232

/-- The address of a collective group entry (R364). -/
def cgrpAt (s : State) (vf x : Nat) : Nat := bits (vfReg s vf 0x10B).toNat 55 12 * 4096 + 256 * collGroup x

/-- NMEM of a collective group. -/
def cgrpCount (s : State) (vf x : Nat) : Nat := physNat s (cgrpAt s vf x) 1
/-- The package's own rank. -/
def cgrpOwn (s : State) (vf x : Nat) : Nat := physNat s (cgrpAt s vf x + 1) 1
/-- The peer of a rank, 0x7F for the package itself. -/
def cgrpPeer (s : State) (vf x r : Nat) : Nat := physNat s (cgrpAt s vf x + 8 + r) 1 % 128

/-- The bytes that a collective writes at each member (R299). -/
def collTotal (kind : CmdKind) (n len : Nat) : Nat :=
  match kind with
  | .allGather => n * len
  | .reduceScatter => len / n
  | _ => len

/-- A collective's descriptor, LEN or group is refused (R299, R364). -/
def collBad (s : State) (vf : Nat) (kind : CmdKind) (x : Nat) : Bool :=
  let n := cgrpCount s vf x
  let unit := if kind == .reduceScatter then n * collSize x else collSize x
  decide (5 < bits x 227 224) || bits x 231 228 != 0 || bits x 511 240 != 0 || n == 0 || decide (72 < n) ||
    decide (n ≤ cgrpOwn s vf x) || cgrpPeer s vf x (cgrpOwn s vf x) != 0x7F || dLen x % unit != 0

/-! ## Starts -/

/-- What a start needs to know of its command: its kind, whether its descriptor is refused, its chunks, whether BB and
the data are in vault space, and the block to pin. -/
structure Start where
  kind : CmdKind
  bad : State → Nat → Bool
  chunks : State → Nat → Nat
  barVault : Nat → Bool
  vault : Nat → Bool
  pin : Nat → Option Nat
  long : Bool

/-- The keys of a command's barrier (R84, R297): none if it counts into none. -/
def barKeys (s : State) (a : Acc) (die bb : Nat) (vault : Bool) : Except Halt (List Nat × State) :=
  if vault then
    if bb % 32 != 0 then .error (.cause 0x24 bb)
    else if bb / 2 ^ 29 != 0 then .error (.cause 0x25 bb)
    else .ok (vaultKeys die bb 32, s)
  else if bb = 0 then .ok ([], s)
  else if bb % 32 != 0 then .error (.cause 0x24 bb)
  else vaKeys s a .store bb 32

/-- The keys of the barrier of a command's descriptor. -/
def barKeysOf (a : Acc) (die x : Nat) (vault : Bool) : Kv (List Nat) := fun s => barKeys s a die (dBar x) vault

/-- Pins a block for a command. -/
def pinFor (a : Acc) (b : Option Nat) : Kv Unit :=
  match b with
  | none => pure ()
  | some b => do
    let r ← readRoot a
    kvWhen (decide (r.count ≤ b)) 0xA4
    pinBlock a r b

/-- The cause of a computation that stops with one, with its address. -/
def kvCause {α : Type} (r : Except Halt α) : List (Nat × Nat) :=
  match r with
  | .error (.cause c va) => [(c, va)]
  | _ => []

/-- The cause that R154 chooses among some, each with its address. -/
def chosen (l : List (Nat × Nat)) : Option (Nat × Nat) :=
  match firstCause (l.map (·.1)) with
  | none => none
  | some c => l.find? fun x => x.1 == c

/-- What a start that raises a cause does; an access that completes with 0x30 is no precise cause (R151). -/
def startStop (s : State) (l : List (Nat × Nat)) : Option Res :=
  match chosen (l.filter fun x => x.1 != 0x30) with
  | some (c, va) => some (.trap (preciseAt s c va))
  | none => (l.head?).map fun x => haltRes s (.cause x.1 x.2)

/-- The causes of a start once its descriptor `x` has been read in state `t` (R189, R190, R297, R300). -/
def startCauses (p : Start) (s t : State) (a : Acc) (pidx x : Nat) : List (Nat × Nat) :=
  let die := s.g.who.loc.die
  let todo := decide (pidx < p.chunks t x)
  (if p.bad t x then [(0x02, 0)] else []) ++ (if die = 2 && (p.barVault x || p.vault x) then [(0x05, 0)] else []) ++
    (if p.chunks t x < pidx then [(0x0B, 0)] else []) ++ kvCause (barKeys t a die (dBar x) (p.barVault x)) ++
    kvCause (pinFor a (if todo then p.pin x else none) t)

/-- The command whose chunks before PIDX the acting group's start has handed over (R300). -/
def openCmd (s : State) (kind : CmdKind) (x pidx : Nat) : Option Cmd :=
  s.en.cmds.find? fun c => c.uid == s.g.who.uid && c.kind == kind && c.desc == x && c.accepted == pidx && decide (pidx < c.chunks)

/-- A command takes in some chunks, with what is before them. -/
def Cmd.takeIn (c : Cmd) (chunks ids : List Nat) : Cmd :=
  { c with accepted := c.accepted + chunks.length, todo := c.todo ++ chunks, ids := c.ids ++ ids.filter fun i => !c.ids.contains i }

/-- The engines' commands with a command in its place, the last where it is new. -/
def placeCmd (s : State) (c : Cmd) : List Cmd :=
  if s.en.cmds.any (·.num == c.num) then mapWhere (·.num == c.num) (fun _ => c) s.en.cmds
  else if c.todo.isEmpty then s.en.cmds else s.en.cmds ++ [c]

/-- The chunks that one issue of a start hands to the engine (R300): the one at PIDX, or all of a command without progress points. -/
def handed (p : Start) (n pidx : Nat) : List Nat := (upto n).filter fun j => !p.long || j == pidx

/-- Starts a command (R83, R297 to R300). A start with a progress point hands over one chunk at an issue, and stands at the point after it until it issues
again; with the last it completes and PIDX is 0. A block is pinned with the first chunk. -/
def startCmd (p : Start) (f : FmtE) (s : State) : Host.Outcome State Fault Refusal :=
  issue s f.nas ⟨noAp s ++ kBad f.a 2, codes f.a 2, []⟩ fun s =>
    match takeAll [(1, f.a, 2)] s with
    | .error e => portStopWith s (scopeCauses s (some (f.c.toNat / 4))) e
    | .ok (os, s') =>
      let a := accOf s.g
      let pidx := if p.long then s.g.pidx.toNat else 0
      let scope := (scopeCauses s (some (f.c.toNat / 4))).map fun c => (c, 0)
      match kvRd a (uniPair s os 0).toNat 64 (uniteActive s') with
      | .error h =>
        match startStop s (scope ++ kvCause (α := Unit) (.error h)) with
        | some r => r
        | none => haltRes s h
      | .ok (x, t) =>
        match startStop s (scope ++ startCauses p s t a pidx x) with
        | some r => r
        | none =>
          match releaseStop s with
          | some r => r
          | none =>
            let die := s.g.who.loc.die
            let n := p.chunks t x
            let more := handed p n pidx
            let old := if p.long then openCmd s p.kind x pidx else none
            let pin := if more.isEmpty || old.isSome then none else p.pin x
            kvRes s t (do let keys ← barKeysOf a die x (p.barVault x); pinFor a pin; pure keys) fun keys t =>
              let t := arriveAll t t.g.ord (active s)
              let (num, t) := takeFresh t
              let new : Cmd := ⟨num, a.vf, a.ident, s.g.who.uid, a.mode, die, p.kind, x, keys.head?, p.barVault x, n, pidx, [], pin, none,
                false, []⟩
              let t := { t with en := { t.en with cmds := placeCmd t ((old.getD new).takeIn more (knownIds t.g.ord (active s))) } }
              if p.long && decide (pidx + 1 < n) then
                .stop (setG t { t.g with pidx := BitVec.ofNat 32 (pidx + 1), waitCnt := 0, stamp := some (now s), ap := s.g.ap })
              else .ok (setG t (if p.long then { t.g with pidx := 0 } else t.g))

/-- The start of a copy or fill. -/
def copyStart (kind : CmdKind) : Start :=
  ⟨kind, fun _ x => copyBad x, fun _ x => (dLen x + copyChunk x - 1) / copyChunk x, copyBv,
    fun x => copyDv x || copySv x, fun x => if bits x 287 256 = none32 then none else some (bits x 287 256), true⟩

/-- The start of a gather or scatter. -/
def gatherStart (kind : CmdKind) : Start :=
  ⟨kind, fun _ x => gatBad x (kind == .scatterAddF || kind == .scatterAddN),
    fun _ x => (gatCount x + gatChunk x - 1) / gatChunk x, gatBv, gatDv, fun _ => none, true⟩

/-- The start of a collective, in chunks of 4 KiB. -/
def collStart (kind : CmdKind) (vf : Nat) : Start :=
  ⟨kind, fun s x => collBad s vf kind x, fun s x => (collTotal kind (cgrpCount s vf x) (dLen x) + 4095) / 4096, fun _ => false,
    fun _ => false, fun _ => none, false⟩

/-- GCOPY (R297). -/
def execGcopy (f : FmtE) (s : State) : Host.Outcome State Fault Refusal := startCmd (copyStart .copy) f s
/-- GCOPY with c[1:0] = 1, fill (R297). -/
def execGcopyFill (f : FmtE) (s : State) : Host.Outcome State Fault Refusal := startCmd (copyStart .fill) f s
/-- GGATHER (R298). -/
def execGgather (f : FmtE) (s : State) : Host.Outcome State Fault Refusal := startCmd (gatherStart .gather) f s
/-- GSCATTER (R298). -/
def execGscatter (f : FmtE) (s : State) : Host.Outcome State Fault Refusal := startCmd (gatherStart .scatter) f s
/-- GSCATTER with an FP32 add (R298). -/
def execGscatterAddf (f : FmtE) (s : State) : Host.Outcome State Fault Refusal := startCmd (gatherStart .scatterAddF) f s
/-- GSCATTER with a 32-bit add (R298). -/
def execGscatterAddn (f : FmtE) (s : State) : Host.Outcome State Fault Refusal := startCmd (gatherStart .scatterAddN) f s
/-- GCOLL all-reduce (R299). -/
def execGcollAllreduce (f : FmtE) (s : State) : Host.Outcome State Fault Refusal := startCmd (collStart .allReduce s.g.who.vf) f s
/-- GCOLL all-gather (R299). -/
def execGcollAllgather (f : FmtE) (s : State) : Host.Outcome State Fault Refusal := startCmd (collStart .allGather s.g.who.vf) f s
/-- GCOLL reduce-scatter (R299). -/
def execGcollReducescatter (f : FmtE) (s : State) : Host.Outcome State Fault Refusal :=
  startCmd (collStart .reduceScatter s.g.who.vf) f s
/-- GCOLL broadcast (R299). -/
def execGcollBroadcast (f : FmtE) (s : State) : Host.Outcome State Fault Refusal := startCmd (collStart .broadcast s.g.who.vf) f s

/-! ## Chunks -/

/-- A write that a chunk makes: in vault space or not, its address, size and value, and the reduction that it is, if one
(code of R236). -/
structure EngWrite where
  vault : Bool
  at_ : Nat
  size : Nat
  val : Nat
  red : Option Nat
deriving DecidableEq, Repr

/-- Keys of a vault range of a command (0x25 beyond the vaults). -/
def engVault (die va n : Nat) : Except Halt (List Nat) := if va / 2 ^ 29 != 0 then .error (.cause 0x25 va) else .ok (vaultKeys die va n)

/-- A plain read by an engine (R83). -/
def engRead (c : Cmd) (vault : Bool) (va n : Nat) : Kv Nat := fun s =>
  if vault then
    match engVault c.die va n with
    | .error e => .error e
    | .ok keys => .ok (natOfBytes (keys.map (plainByte s s.g.ord (active s) (agentOf s.g) 0)), s)
  else
    match vaKeys s c.acc .load va n with
    | .error e => .error e
    | .ok (keys, s) =>
      .ok (natOfBytes (keys.map (plainByte s s.g.ord (active s) (agentOf s.g) 0)), countVa s c.acc .load true va n)

/-- A write by an engine (R83, R298), which arrives at its home: the event of a plain one, which no other write of its chunk has before it. A reduction is an
RMW, which the homes' check of sizes may stop (R77). -/
def engWrite (c : Cmd) (w : EngWrite) : Kv (List Nat) := fun s =>
  let put (keys : List Nat) (s : State) : Except Halt (List Nat × State) :=
    match w.red with
    | some code =>
      if mixedSize s keys then .error (.cause 0x31 w.at_)
      else .ok ([], putObject s (active s) 3 false keys (reduceValue code (metNat s keys) w.val))
    | none =>
      let (ev, s) := takeFresh s
      .ok ([ev], arrivedPut s (partyFor s (active s)) ev keys (bytesOfNat w.size w.val))
  if w.vault then
    match engVault c.die w.at_ w.size with
    | .error e => .error e
    | .ok keys => put keys s
  else
    match vaKeys s c.acc .store w.at_ w.size with
    | .error e => .error e
    | .ok (keys, s) => put keys (countVa s c.acc .store true w.at_ w.size)

/-- Byte i of a copy's chunk where source and destination may overlap: what the source held before the chunk's own writes,
or what the chunk writes there, in no defined order (R297). -/
def overlapByte (free : Nat) (v : List Byte) (src dst : Nat) : Nat → Nat → Byte
  | 0, i => v.getD i 0
  | f + 1, i =>
    if decide (dst ≤ src + i) && decide (src + i < dst + v.length) && !Config.overlapOld free i then
      overlapByte free v src dst f (src + i - dst)
    else v.getD i 0

/-- The writes of a copy's or fill's chunk (R297). -/
def copyWrites (c : Cmd) (j : Nat) : Kv (List EngWrite) := do
  let cs := copyChunk c.desc
  let n := min (cs * (j + 1)) (dLen c.desc) - cs * j
  let src := bits c.desc 63 0
  let dst := bits c.desc 127 64
  let x ←
    if c.kind = .fill then pure (natOfBytes ((upto n).map fun i => BitVec.ofNat 8 (src / 2 ^ (8 * ((cs * j + i) % 8)))))
    else do
      let v ← engRead c (copySv c.desc) (src + cs * j) n
      let s ← kvState
      if copySv c.desc != copyDv c.desc then pure v
      else pure (natOfBytes ((upto n).map (overlapByte s.free (bytesOfNat n v) (src + cs * j) (dst + cs * j) n)))
  pure [⟨copyDv c.desc, dst + cs * j, n, x, none⟩]

/-- The writes of a gather's or scatter's chunk (R298). Each index and each element is a request of its own at a fabric port, which R398 leaves open
(DESIGN CHOICE, notes/assumptions/100.md). -/
def gatherWrites (c : Cmd) (j : Nat) : Kv (List EngWrite) := do
  let x := c.desc
  let per := gatChunk x
  let es := gatSize x
  let lo := per * j
  let n := min (lo + per) (gatCount x) - lo
  let vault := gatDv x
  kvMap (fun k => do
    let i := lo + k
    let idx ← engRead c false (bits x 127 64 + 4 * i) 4
    let tbl := bits x 63 0 + idx * es
    let dns := bits x 255 192 + i * es
    if c.kind = .gather then do
      let v ← engRead c false tbl es
      pure ⟨vault, dns, es, v, none⟩
    else do
      let v ← engRead c vault dns es
      let red := match c.kind with | .scatterAddF => some 2 | .scatterAddN => some 0 | _ => none
      pure ⟨false, tbl, es, v, red⟩) (upto n)

/-- One step of a collective's reduction (R299). -/
def collOp (op a b : Nat) : Nat :=
  match op with
  | 0 => (fAdd f32 a b).1
  | 1 => (fAdd bf16 a b).1
  | 2 => (a + b) % 2 ^ 32
  | 3 => fMax f32 a b
  | 4 => fMin f32 a b
  | _ => (maxS (BitVec.ofNat 32 a) (BitVec.ofNat 32 b)).toNat

/-- One level of the tree: an element that meets the padding is unchanged. -/
def collLevel (op : Nat) : List Nat → List Nat
  | a :: b :: t => collOp op a b :: collLevel op t
  | t => t

/-- The tree over the ranks. -/
def collTree (op : Nat) : Nat → List Nat → Nat
  | 0, l => l.headD 0
  | n + 1, l => collTree op n (collLevel op l)

/-- A reduced element; NaN results are canonical. -/
def collElem (op : Nat) (l : List Nat) : Nat :=
  let v := collTree op 7 l
  if (op = 0 || op = 3 || op = 4) && fIsNan f32 v then fNan f32
  else if op = 1 && fIsNan bf16 v then fNan bf16 else v

/-- The bytes of a reduced chunk from what each rank gives to it. -/
def collReduce (op es : Nat) (parts : List (List Byte)) (n : Nat) : Nat :=
  natOfBytes ((upto (n / es)).flatMap fun i =>
    bytesOfNat es (collElem op (parts.map fun p => natOfBytes ((p.drop (es * i)).take es))))

/-- The writes of a collective's chunk (R299), given what each rank contributes to its bytes; this member's own part is
read from its source. -/
def collWrites (c : Cmd) (j : Nat) (peers : List (List Byte)) : Kv (List EngWrite) := do
  let s ← kvState
  let x := c.desc
  let ranks := cgrpCount s c.vf x
  let own := cgrpOwn s c.vf x
  let len := dLen x
  let lo := 4096 * j
  let n := min (lo + 4096) (collTotal c.kind ranks len) - lo
  let src := bits x 63 0
  kvWhen ((upto ranks).any fun r => let q := cgrpPeer s c.vf x r; q != 0x7F && !bit (storeGet 0 s.hub.peers q).toNat 48) 0x30
  let mine ←
    match c.kind with
    | .allGather =>
      let from_ := max lo (own * len)
      let to_ := min (lo + n) ((own + 1) * len)
      if to_ ≤ from_ then pure []
      else do
        let v ← engRead c false (src + (from_ - own * len)) (to_ - from_)
        pure (List.replicate (from_ - lo) 0 ++ (bytesOfNat (to_ - from_) v).map (·.toNat))
    | .reduceScatter => do let v ← engRead c false (src + own * (len / ranks) + lo) n; pure ((bytesOfNat n v).map (·.toNat))
    | .broadcast => if own = 0 then do let v ← engRead c false (src + lo) n; pure ((bytesOfNat n v).map (·.toNat)) else pure []
    | _ => do let v ← engRead c false (src + lo) n; pure ((bytesOfNat n v).map (·.toNat))
  let parts := (upto ranks).map fun r => if r = own then mine.map (BitVec.ofNat 8) else peers.getD r []
  let v :=
    match c.kind with
    | .allGather => natOfBytes ((upto n).map fun i => (parts.getD ((lo + i) / len) []).getD i 0)
    | .broadcast => natOfBytes ((parts.getD 0 []).take n)
    | _ => collReduce (bits x 227 224) (collSize x) parts n
  pure [⟨false, bits x 127 64 + lo, n, v, none⟩]

/-- The writes of a chunk. -/
def chunkWrites (c : Cmd) (j : Nat) (peers : List (List Byte)) : Kv (List EngWrite) :=
  match c.kind with
  | .copy | .fill => copyWrites c j
  | .gather | .scatter | .scatterAddF | .scatterAddN => gatherWrites c j
  | _ => collWrites c j peers

/-- Every chunk of a command has been accepted and has run. -/
def Cmd.over (c : Cmd) : Bool := c.todo.isEmpty && decide (c.chunks ≤ c.accepted)

/-- Replaces a command, or removes it when its last chunk is done. -/
def setCmd (s : State) (c : Cmd) : State :=
  if c.over then { s with en := { s.en with cmds := s.en.cmds.filter fun x => x.num != c.num } }
  else { s with en := { s.en with cmds := mapWhere (fun x => x.num == c.num) (fun _ => c) s.en.cmds } }

/-- A chunk stops with a cause at an address, 0 for none (R100, R147, R153): the command keeps its progress and that chunk comes
first. -/
def faultCmd (s : State) (c : Cmd) (j cause va : Nat) : State :=
  setCmd s { c with fault := some (cause, va), todo := j :: c.todo.filter (· != j) }

/-- The unpin at the end of a command (R132). -/
def unpinFor (s : State) (c : Cmd) : State :=
  match c.pin with
  | none => s
  | some b => doChore s (.unpin c.acc b c.ids none)

/-- A chunk's writes, and their arrival at the barrier of the command (R85), counted where the barrier's home is remote (R398): the barrier's key. -/
def chunkBody (c : Cmd) (j : Nat) (peers : List (List Byte)) : Kv (Option Nat) := do
  let ws ← chunkWrites c j peers
  let keys ← barKeysOf c.acc c.die c.desc c.barVault
  let evs ← kvMap (engWrite c) ws
  kvMod fun s => learnFor s evs.flatten (active s)
  let t ← kvState
  let new := (knownIds t.g.ord 0xFFFFFFFF).filter fun i => !c.ids.contains i
  if keys.isEmpty then pure ()
  else kvMod fun s => barArrival (if c.barVault then s else countVa s c.acc .store true (dBar c.desc) 32) 3 false keys ((ws.map (·.size)).foldl (· + ·) 0) new []
  pure keys.head?

/-- What a chunk comes to: it is done, it has begun a collapse (R100), or it does not happen now. -/
def runChunk (s : State) (c : Cmd) (j : Nat) (peers : List (List Byte)) : Option State :=
  match runAs s c.acc c.ids (chunkBody c j peers) with
  | .error (.hold pte) => let t := collapseAt s pte; if t.ld = s.ld then none else some t
  | .error (.cause e va) => some (faultCmd s c j e va)
  | .ok (key, _, u) =>
    let c' : Cmd := { c with todo := c.todo.filter (· != j), bar := key }
    some (if c'.over then unpinFor (setCmd u c') c' else setCmd u c')

/-- ENGINE_CHUNK_COMPLETE (R85, R297 to R299): an accepted chunk of a command runs to its end or stops on a fault. `peers` is
what each rank contributes to the chunk of a collective. -/
def execEngineChunkComplete (cmd chunk : Nat) (peers : List (List Byte)) (s : State) : Host.Outcome State Fault Refusal :=
  match s.en.cmds.find? fun c => c.num == cmd with
  | none => .next s
  | some c =>
    if c.halted || c.fault.isSome || !c.todo.contains chunk then .next s
    else dueOr s (runChunk s c chunk peers)

/-- A command is a collective. -/
def isColl (c : Cmd) : Bool :=
  match c.kind with
  | .allReduce | .allGather | .reduceScatter | .broadcast => true
  | _ => false

/-- COLLECTIVE_MISMATCH (R299): members' commands differ, and this member's stops with 0x6C. -/
def execCollectiveMismatch (cmd : Nat) (s : State) : Host.Outcome State Fault Refusal :=
  match s.en.cmds.find? fun c => c.num == cmd && isColl c && c.fault.isNone && !c.halted with
  | none => .next s
  | some c => .next (faultCmd s c (c.todo.headD 0) 0x6C 0)

end Sys2Proof.Machine
end

