-- ==== Sys2Proof/Machine/Place.lean ====
section
/-! DEFINITION. Placement (04, 15; R93 to R109, R303, R359, R360): the placement forms, hotness epochs, the Ladle's moves
and duplicates, and the replay of side logs. -/

namespace Sys2Proof.Machine

/-! ## Pages -/

/-- A page as a placement form finds it in the page tables. -/
structure PlaceLeaf where
  level : Nat
  pteAt : Nat
  pte : Nat
  pa : Nat
deriving DecidableEq, Repr

/-- The page that holds an address, by a walk from the context's root; none if there is none. -/
def leafOfVa (s : State) (a : Acc) (va : Nat) : Option PlaceLeaf :=
  if 2 ^ 57 ≤ va then none
  else match walk s a va with | .leaf l at_ pte => some ⟨l, at_, pte, leafPa s va l pte⟩ | .stop _ => none

/-- The page, after the address and translation checks (R303): the cause that they raise. -/
def checkedLeaf (s : State) (a : Acc) (va : Nat) : Except Nat PlaceLeaf :=
  if 2 ^ 57 ≤ va then .error 0x21
  else
    match walk s a va with
    | .stop c => .error c
    | .leaf l at_ pte =>
      match firstCause (leafCauses s a .load va l at_ pte) with
      | some c => .error c
      | none => .ok ⟨l, at_, pte, leafPa s va l pte⟩

/-- STRICT forbids a tier (R93). -/
def strictForbids (pte tier : Nat) : Bool := bit pte 10 && bits pte 9 8 != 0 && bits pte 9 8 != tier

/-- A placement form on the page of {k[a+1], k[a]}, whose causes are those of a load of it, but that no data are read (R230, R245, R303): `fn` has the page, the second operand's word and the state. -/
def placeForm (f : FmtR) (dbad : List Nat) (w : List Nat) (b : Bool) (fn : State → State → Nat → PlaceLeaf → Word → Res)
    (s : State) : Host.Outcome State Fault Refusal :=
  issue s f.nas ⟨noAp s ++ dbad ++ kBad f.a 2 ++ (if b then kBad f.b 1 else []), codes f.a 2 ++ (if b then codes f.b 1 else []), w⟩
    fun s =>
      match takeAll ((1, f.a, 2) :: if b then [(2, f.b, 1)] else []) s with
      | .error e => portStop s e
      | .ok (os, s') =>
        let va := (uniPair s os 0).toNat
        let x := uni s os 1 0
        if b && (x.toNat % 4 == 0 || x.toNat / 8 != 0) then .trap (precise s 0x02)
        else
          match checkedLeaf s (accOf s.g) va with
          | .error c => haltRes s' (.cause c va)
          | .ok p => fn s s' va p x

/-- Writes an entry at its home by one RMW (R303). -/
def putPte (s : State) (at_ pte : Nat) : State := physPut s at_ 8 pte

/-- How many frames of 4 KiB, with an entry each, the page of a leaf of level 5 has (R352). -/
def leafPages (level pte : Nat) : Nat := if level = 5 && bit pte 63 then 16 else 1

/-- The first entry of a page of 1 or 16 frames. -/
def firstEntry (at_ pages : Nat) : Nat := if pages = 16 then at_ / 128 * 128 else at_

/-- Changes the entries of a page, all 16 of a 64 KiB page (R352). -/
def markEntries (s : State) (at_ pages : Nat) (f : Nat → Nat) : State :=
  let base := firstEntry at_ pages
  (upto pages).foldl (fun s i => putPte s (base + 8 * i) (f (physNat s (base + 8 * i) 8))) s

/-- PINQ.QUOTA and PINQ.USED of a VF. -/
def pinq (s : State) (vf : Nat) : Nat × Nat := let x := (vfReg s vf 0x106).toNat; (bits x 15 0, bits x 31 16)

/-- Writes PINQ.USED. -/
def setPinsUsed (s : State) (vf n : Nat) : State :=
  setVfReg s vf 0x106 (BitVec.ofNat 64 ((pinq s vf).1 + 65536 * (n % 65536)))

/-- GPIN (R95, R303). -/
def execGpin (f : FmtR) (s : State) : Host.Outcome State Fault Refusal :=
  placeForm f (kBad f.d 1) (codes f.d 1) false (fun s s' _ p _ =>
    let (quota, used) := pinq s s.g.who.vf
    if bit p.pte 11 then .ok (putUniform s' f.d.toNat 0)
    else if bit p.pte 12 then .wait .held s
    else if used < quota then
      let t := markEntries s' p.pteAt (leafPages p.level p.pte) fun x => setBits x 11 11 1
      .ok (putUniform (setPinsUsed t s.g.who.vf (used + 1)) f.d.toNat 0)
    else .ok (putUniform s' f.d.toNat 1)) s

/-- GUNPIN (R95, R303). -/
def execGunpin (f : FmtR) (s : State) : Host.Outcome State Fault Refusal :=
  placeForm f [] [] false (fun s s' _ p _ =>
    let used := (pinq s s.g.who.vf).2
    if bit p.pte 11 then
      let t := markEntries s' p.pteAt (leafPages p.level p.pte) fun x => setBits x 11 11 0
      .ok (setPinsUsed t s.g.who.vf (used - 1))
    else .ok s') s

/-- How a form that files a proposal ends (R98): 0x41 with fate A in trapping mode. -/
def filedRes (t : State) (trap : Bool) : Res := if trap then .after t ⟨0x41, .a, 0, active t, 0, 0⟩ else .ok t

/-- GHINT (R95, R303). -/
def execGhint (f : FmtR) (s : State) : Host.Outcome State Fault Refusal :=
  placeForm f [] [] true (fun s s' va p x =>
    let tier := x.toNat % 4
    if bit p.pte 11 || strictForbids p.pte tier then .ok s'
    else
      let (t, trap) := fileProposal s' (accOf s.g) (srcDie s) va p.level p.pte (actFor p.pte tier, tier, x.toNat / 4 % 2) false
      filedRes t trap) s

/-- GDUP (R95, R303): onto the issuing die, LPDDR-6 for the scalar die. -/
def execGdup (f : FmtR) (s : State) : Host.Outcome State Fault Refusal :=
  placeForm f (kBad f.d 1) (codes f.d 1) false (fun s s' va p _ =>
    let src := srcDie s
    let tier := if src = 2 then 2 else 1
    let (n, c) := pageSize p.level p.pte
    let out := s.ld.proposals.any fun q => q.names s.g.who.vf (rootOf s (accOf s.g)) (va >>> n <<< n)
    if bit p.pte 11 || strictForbids p.pte tier || 2 ≤ c || out then .ok (putUniform s' f.d.toNat 1)
    else
      let (t, trap) := fileProposal s' (accOf s.g) src va p.level p.pte (2, tier, src) true
      filedRes (putUniform t f.d.toNat 0) trap) s

/-- The placement word (R95). -/
def placeWord (s : State) (va : Nat) : Word :=
  match leafOfVa s (accOf s.g) va with
  | none => 0
  | some p =>
    let (n, _) := pageSize p.level p.pte
    let base := p.pa >>> n <<< n
    match placeOf s base with
    | none => 0
    | some q =>
      let hbm := q.tier == 1
      let die := if hbm && q.die = 1 then 4 else 0
      let stack := if hbm then q.member % 4 else 0
      let here := dupHere s (accOf s.g) p.pte
      let count := storeGet 0 s.ld.hot (hotKey (rootOf s (accOf s.g)) s.g.who.vf (srcDie s) va p.level p.pte)
      word32 (q.tier + die + 8 * stack + 64 * bits p.pte 11 11 + 128 * bits p.pte 10 10 + 256 * bits p.pte 13 12 +
        (if here then 1024 else 0) + 65536 * min count 0xFFFF)

/-- GWHERE (R95, R303): it never faults. -/
def execGwhere (f : FmtR) (s : State) : Host.Outcome State Fault Refusal :=
  issue s f.nas ⟨kBad f.a 2, codes f.a 2, codes f.d 1⟩ fun s =>
    if !apRoom s (destKs f.d 1) then .wait .held s
    else
      match takeAll [(1, f.a, 2)] s with
      | .error e => portStop s e
      | .ok (os, s') => .ok (putUniform s' f.d.toNat (placeWord s (uniPair s os 0).toNat))

/-! ## Timers of the device -/

/-- The timer of a VF's epoch. -/
def epochTimer (vf : Nat) : Nat := 100 + vf

/-- EPOCH_END (R96): every hotness count of the VF halves. -/
def execEpochEnd (vf : Nat) (s : State) : Host.Outcome State Fault Refusal :=
  let epoch := bits (vfReg s vf 0x105).toNat 31 16
  if epoch = 0 then .next s
  else
    dueOr s ((periodDue s (epochTimer vf) (epoch * 120000)).map fun s =>
      let halve (e : Nat × Nat) : Option (Nat × Nat) :=
        if hotVf e.1 = vf then (if e.2 / 2 = 0 then none else some (e.1, e.2 / 2)) else some e
      { s with ld := { s.ld with hot := s.ld.hot.filterMap halve } })

/-! ## Frames -/

/-- The Ladle block of a VF (R359). -/
def ladleBlock (s : State) (vf : Nat) : Nat := bits (vfReg s vf 0x10C).toNat 55 12 * 4096

/-- The frame stack of a tier, die and page size (R359). -/
def stackAt (s : State) (vf tier die : Nat) (large : Bool) : Nat :=
  let t := if tier = 1 then die % 2 else tier
  ladleBlock s vf + 64 + 16 * (2 * t + if large then 1 else 0)

/-- Pops a frame from a stack: none when it is empty. -/
def popFrame (s : State) (at_ : Nat) : Option (Nat × State) :=
  let n := physNat s (at_ + 8) 4
  if n = 0 then none else some (physNat s (physNat s at_ 8 + 8 * (n - 1)) 8, physPut s (at_ + 8) 4 (n - 1))

/-- Pushes a freed frame; a push to a full stack is counted in LOST (R359). -/
def pushFrame (s : State) (vf at_ pfn : Nat) : State :=
  let n := physNat s (at_ + 8) 4
  if physNat s (at_ + 12) 4 ≤ n then ladleCount s vf 216
  else physPut (physPut s (physNat s at_ 8 + 8 * n) 8 pfn) (at_ + 8) 4 (n + 1)

/-- The stack to which a frame belongs. -/
def homeStack (s : State) (vf pfn : Nat) (large : Bool) : Nat :=
  match placeOf s (4096 * pfn) with
  | some p => stackAt s vf p.tier p.die large
  | none => stackAt s vf 2 0 large

/-- A key within 256 bytes of one place, at the same offset of another. -/
def shiftKey (src dst k : Nat) : Nat := if src ≤ k ∧ k < src + 256 then dst + (k - src) else k

/-- Copies the write sets and the bytes of 256 bytes from one key to another. -/
def copyPiece (s : State) (src dst : Nat) : State :=
  let inSrc (k : Nat) : Bool := decide (src ≤ k) && decide (k < src + 256)
  let outside (k : Nat) : Bool := decide (k < dst) || decide (dst + 256 ≤ k)
  let cells := s.ms.mem.filter fun c => inSrc c.1
  let mem := cells.foldl (fun m c => storeSet emptyByte m (dst + (c.1 - src)) c.2) (storeClear s.ms.mem dst 256)
  let copy (w : WriteRec) : WriteRec :=
    { w with key := shiftKey src dst w.key, strong := w.strong.map fun f => (shiftKey src dst f.1, f.2) }
  let hist := (s.ms.hist.filter fun w => outside w.key) ++ (s.ms.hist.filter fun w => inSrc w.key).map copy
  let undef := s.ms.undef.filter outside ++ (s.ms.undef.filter inSrc).map (shiftKey src dst)
  { s with ms := { s.ms with mem := mem, hist := hist, undef := undef } }

/-- The keys of the pieces of frames. -/
def framePieces (s : State) (pfn pages : Nat) : List Nat := (upto (16 * pages)).map fun i => physKey s (4096 * pfn + 256 * i)

/-- Copies frames: the copy holds every write that has arrived at the old frame (R102 steps 3 and 4). -/
def copyFrames (s : State) (src dst pages : Nat) : State :=
  ((framePieces s src pages).zip (framePieces s dst pages)).foldl (fun s x => copyPiece s x.1 x.2) s

/-- What the device keeps by location follows a page to its new frame: byte barriers, with the commands that count into them, and
sectors to be written back. -/
def followPiece (s : State) (src dst : Nat) : State :=
  let k := shiftKey src dst
  { s with
    wk := { s.wk with bars := s.wk.bars.map fun b => { b with key := k b.key } }
    en := { s.en with cmds := s.en.cmds.map fun c => { c with bar := c.bar.map k } }
    ms := { s.ms with dirty := s.ms.dirty.map fun d => { d with sector := k d.sector } } }

/-- A page moves from one frame to another, with all that stands there. -/
def moveFrames (s : State) (src dst pages : Nat) : State :=
  ((framePieces s src pages).zip (framePieces s dst pages)).foldl (fun s x => followPiece (copyPiece s x.1 x.2) x.1 x.2) s

/-- The dirty sectors of frames are recalled to their home: the writes on their way there arrive (R102 step 3, R109). -/
def recallFrames (s : State) (pfn pages : Nat) : State :=
  let pieces := framePieces s pfn pages
  countArrived (arriveIf s fun w => pieces.any fun p => decide (p ≤ w.key) && decide (w.key < p + 256))

/-- Invalidates the translations of a VF's pages (R102, R109). -/
def dropTlb (s : State) (vf va pages : Nat) : State :=
  { s with ms := { s.ms with tlb := s.ms.tlb.filter fun e =>
      !(e.vf == vf && decide (va / 4096 ≤ e.vpn) && decide (e.vpn < va / 4096 + pages)) } }

/-- Forgets the proposal of a page (R97). -/
def dropProposal (s : State) (vf root va : Nat) : State :=
  { s with ld := { s.ld with proposals := s.ld.proposals.filter fun p => !p.names vf root va } }

/-- How many 4 KiB frames a proposal's page has. -/
def pagesOfProposal (p : Proposal) : Nat := if p.large then 16 else 1

/-- The access rights under which the Ladle reads a page's entry: the filing context's root. -/
def ladleAcc (p : Proposal) : Acc := ⟨p.vf, p.ident, .mch, 2⟩

/-- The first frame of a page. -/
def firstFrame (pte pages : Nat) : Nat := if pages = 16 then bits pte 59 16 / 16 * 16 else bits pte 59 16

/-- The action on a page as its entry is now (R99): one that gdup or the supervisor has named stands. -/
def Proposal.action (p : Proposal) (pte : Nat) : Nat := if p.asked then p.act else actFor pte p.tier

/-- The page is at home in the destination already. -/
def atHome (s : State) (p : Proposal) (l : PlaceLeaf) : Bool :=
  match placeOf s l.pa with
  | some q => q.tier == p.tier && (p.tier != 1 || q.die == p.die)
  | none => false

/-- The duplicates of the page of a leaf. -/
def dupAt (s : State) (pteAt : Nat) : Option Dup := s.ld.dups.find? fun d => ofEntries d.pteAt d.pages pteAt

/-- A proposal may not be acted on now (R95, R97, R99, R104): the page is pinned, moving, at home in the destination, held to another tier, or
has a duplicate there. -/
def Proposal.barred (s : State) (p : Proposal) (l : PlaceLeaf) : Bool :=
  let pages := pagesOfProposal p
  let copies := match dupAt s l.pteAt with | some d => d.copies | none => []
  let place := if p.tier = 1 then p.die else 2
  bit l.pte 11 || bit l.pte 12 || strictForbids l.pte p.tier || atHome s p l || leafPages l.level l.pte != pages ||
    (s.ld.moves.any fun m => ofEntries m.pteAt m.pages l.pteAt) ||
    (if p.action l.pte = 1 then bit l.pte 13 else bit l.pte 14 || (copies.any fun c => c.1 == place) || p.tier == 3)

/-- Begins to move or to duplicate a page as a proposal says (R102 step 1, R104); a page that it may not treat so is declined, and without a
frame the proposal is dropped and counted. -/
def beginAction (s : State) (p : Proposal) : State :=
  let drop (s : State) : State := dropProposal s p.vf p.root p.va
  match leafOfVa s (ladleAcc p) p.va with
  | none => drop s
  | some l =>
    let pages := pagesOfProposal p
    let stack := stackAt s p.vf p.tier p.die p.large
    if p.barred s l then drop s
    else
      match popFrame s stack with
      | none => drop (ladleCount s p.vf 204)
      | some (pfn, s) =>
        let old := firstFrame l.pte pages
        let at_ := firstEntry l.pteAt pages
        if p.action l.pte = 1 then
          let m : Move := ⟨p.vf, p.root, p.va, at_, BitVec.ofNat 64 (physNat s at_ 8), old, pfn, pages, stack, 0, 0, false⟩
          { s with ld := { s.ld with moves := s.ld.moves ++ [m] } }
        else
          let s := markEntries (copyFrames s old pfn pages) l.pteAt pages fun x => x ||| 8192
          let place := if p.tier = 1 then p.die else 2
          let d : Dup := match dupAt s l.pteAt with
            | some d => { d with copies := d.copies ++ [(place, pfn)] }
            | none => ⟨p.vf, p.root, p.va, at_, old, pages, [(place, pfn)], false⟩
          let rest := s.ld.dups.filter fun x => !ofEntries x.pteAt x.pages l.pteAt
          drop (ladleCount { s with ld := { s.ld with dups := rest ++ [d] } } p.vf 196)

/-- The first move of a page at an address, under some root, that meets a test. -/
def moveOf (s : State) (vf va : Nat) (p : Move → Bool) : Option Move := s.ld.moves.find? fun m => m.vf == vf && m.va == va && p m

/-- The proposal of a page on which the Ladle acts by itself (R98), for an action. One in a ring waits for its entry's decision (R360). -/
def autoProposal (s : State) (vf va act : Nat) : Option Proposal :=
  if migMode s vf != 1 then none
  else
    s.ld.proposals.find? fun p =>
      p.vf == vf && p.va == va && !p.ring && !(s.ld.moves.any fun m => m.vf == vf && m.root == p.root && m.va == va) &&
        act == match leafOfVa s (ladleAcc p) va with | some l => p.action l.pte | none => p.act

/-- DUPLICATE_CREATE (R104), in autonomous mode. -/
def execDuplicateCreate (vf va : Nat) (s : State) : Host.Outcome State Fault Refusal :=
  dueOr s ((autoProposal s vf va 2).map (beginAction s))

/-- Replaces or removes a move. -/
def setMove (s : State) (m : Move) (new : Option Move) : State :=
  { s with ld := { s.ld with moves := (s.ld.moves.filter fun x => x != m) ++ new.toList } }

/-- Entry i of a page under a move is as the Ladle last read it, but for A and D (R94, R102). -/
def entryKept (s : State) (m : Move) (i : Nat) : Bool :=
  let want := if m.pages = 16 then setBits m.pte.toNat 19 16 i else m.pte.toNat
  physNat s (m.pteAt + 8 * i) 8 ||| 96 == want ||| 96

/-- Changes the entries of a page under a move that are still the Ladle's. -/
def updateKept (s : State) (m : Move) (f : Nat → Nat → Nat) : State :=
  (upto m.pages).foldl (fun s i =>
    if entryKept s m i then putPte s (m.pteAt + 8 * i) (f i (physNat s (m.pteAt + 8 * i) 8)) else s) s

/-- A move is abandoned and counted: its destination frame is free again (R102). -/
def dropMove (s : State) (m : Move) : State :=
  let s := pushFrame (ladleCount s m.vf 200) m.vf m.stack m.newPfn
  dropProposal (setMove s m none) m.vf m.root m.va

/-- A move's next invalidation of its page's translations begins. -/
def startInval (s : State) (m : Move) (new : Move) : State :=
  let (n, s) := takeFresh s
  setMove s m (some { new with inv := n })

/-- Abandons a move before its step 5 (R102, R103): MIG is cleared where the entry is still the Ladle's. -/
def abandonMove (s : State) (m : Move) : State := dropMove (updateKept s m fun _ x => setBits x 12 12 0) m

/-- LADLE_MOVE_BEGIN (R102): step 2 of the page's move, which sets MIG and begins the invalidation of step 3, where step 1 has been made and the entry is
unchanged (R94); else, in autonomous mode, step 1. -/
def execLadleMoveBegin (vf va : Nat) (s : State) : Host.Outcome State Fault Refusal :=
  match moveOf s vf va fun m => m.phase == 0 with
  | some m =>
    if m.abandoned || !(upto m.pages).all (entryKept s m) then .next (abandonMove s m)
    else
      let t := markEntries s m.pteAt m.pages fun x => x ||| 4096
      .next (startInval t m { m with pte := BitVec.ofNat 64 (physNat t m.pteAt 8), phase := 1 })
  | none => dueOr s ((autoProposal s vf va 1).map (beginAction s))

/-- No forwarding entry of a move's old frame is left. -/
def dropForwards (s : State) (m : Move) : State :=
  let mine (f : Nat × Nat) : Bool := decide (m.oldPfn ≤ f.1) && decide (f.1 < m.oldPfn + m.pages)
  { s with ld := { s.ld with forwards := s.ld.forwards.filter fun f => !mine f } }

/-- Abandons a move in its step 6 (R103): data and home are at the old frame again, and the entries that still name the new frame
name the old one (DEDUCED, notes/assumptions/84.md). -/
def undoMove (s : State) (m : Move) : State :=
  let s := moveFrames (recallFrames s m.newPfn m.pages) m.newPfn m.oldPfn m.pages
  let back (s : State) (i : Nat) : State :=
    let x := physNat s (m.pteAt + 8 * i) 8
    if bits x 59 16 = m.newPfn + i then putPte s (m.pteAt + 8 * i) (setBits x 59 16 (m.oldPfn + i)) else s
  let s := (upto m.pages).foldl back (dropTlb (dropForwards s m) m.vf m.va m.pages)
  dropMove s m

/-- An invalidation that the Ladle began is complete (R102 steps 3 and 7, R109): no translation of the page from before is left, and before the
copy the dirty sectors of the old frame have been recalled. -/
def moveInvalidated (s : State) (m : Move) : State :=
  let s := dropTlb s m.vf m.va m.pages
  let s := if m.phase = 1 then recallFrames s m.oldPfn m.pages else s
  setMove s m (some { m with phase := m.phase + 1 })

/-- MOVE_COPY_COMPLETE (R102 steps 4 and 5): after the invalidation of step 3 the frame is copied, the forwarding entry installed and the
entries rewritten; a changed entry, other than in A and D, abandons the move. -/
def execMoveCopyComplete (vf va : Nat) (s : State) : Host.Outcome State Fault Refusal :=
  match moveOf s vf va fun m => m.phase == 2 || (m.abandoned && decide (m.phase < 3)) with
  | none => .next s
  | some m =>
    if m.abandoned || !(upto m.pages).all (entryKept s m) then .next (abandonMove s m)
    else
      let s := moveFrames s m.oldPfn m.newPfn m.pages
      let pairs := (upto m.pages).map fun i => (m.oldPfn + i, m.newPfn + i)
      let s := { s with ld := { s.ld with forwards := s.ld.forwards ++ pairs } }
      let s := updateKept s m fun i x => setBits (setBits x 12 12 0) 59 16 (m.newPfn + i)
      .next (ladleCount (startInval s m { m with phase := 3 }) vf 192)

/-- A page's side-log entries. -/
def pendingFor (s : State) (vf root va pages : Nat) : Bool :=
  s.ms.log.any fun e => e.vf == vf && rootOf s e.acc == root && decide (va ≤ e.va) && decide (e.va < va + 4096 * pages)

/-- The first move of a page that may end: its second invalidation is complete and its side-log entries have replayed (R102 steps 6 and 7), or
it was abandoned after step 5. -/
def retiring (s : State) (vf va : Nat) : Option Move :=
  moveOf s vf va fun m => (m.phase == 4 && !pendingFor s vf m.root va m.pages) || (m.abandoned && decide (3 ≤ m.phase))

/-- MOVE_RETIRE (R102 step 7): the forwarding entry goes and the old frame is free; a move abandoned after step 5 is undone. -/
def execMoveRetire (vf va : Nat) (s : State) : Host.Outcome State Fault Refusal :=
  match retiring s vf va with
  | none => .next s
  | some m =>
    if m.abandoned then .next (undoMove s m)
    else
      let s := pushFrame (dropForwards s m) vf (homeStack s vf m.oldPfn (m.pages == 16)) m.oldPfn
      .next (dropProposal (setMove s m none) vf m.root va)

/-- The first duplicates of a page at an address, under some root, that meet a test. -/
def dupOf (s : State) (vf va : Nat) (p : Dup → Bool) : Option Dup := s.ld.dups.find? fun d => d.vf == vf && d.va == va && p d

/-- DUP_COLLAPSE (R105): a side-logged write to a duplicated page begins the withdrawal of its duplicates. -/
def execDupCollapse (vf va : Nat) (s : State) : Host.Outcome State Fault Refusal :=
  match dupOf s vf va fun d => !d.collapsing && pendingFor s vf d.root va d.pages with
  | none => .next s
  | some d => .next { s with ld := { s.ld with dups := mapWhere (· == d) (fun d => { d with collapsing := true }) s.ld.dups } }

/-- COLLAPSE_END (R105): every duplicate is withdrawn and DUP is cleared, if the entry still names the frame (R94). -/
def execCollapseEnd (vf va : Nat) (s : State) : Host.Outcome State Fault Refusal :=
  match dupOf s vf va (·.collapsing) with
  | none => .next s
  | some d =>
    let s := dropTlb s vf va d.pages
    let s := d.copies.foldl (fun s c => pushFrame s vf (homeStack s vf c.2 (d.pages == 16)) c.2) s
    let s := markEntries s d.pteAt d.pages fun x => if d.homes (bits x 59 16) then setBits x 13 13 0 else x
    .next { s with ld := { s.ld with dups := s.ld.dups.filter fun x => x != d } }

/-- The action of a ring entry by its decision (R360): none if it is declined. -/
def ringDecision (x : Nat) : Option (Nat × Nat × Nat) :=
  let dest (b : Nat) : Nat × Nat := (b % 4, b / 4 % 2)
  match bits x 111 104 with
  | 1 => some (bits x 95 88, (dest (bits x 103 96)).1, (dest (bits x 103 96)).2)
  | 2 => some (bits x 95 88, (dest (bits x 119 112)).1, (dest (bits x 119 112)).2)
  | _ => none

/-- LADLE_RING_ACTION (R360): the Ladle acts on the next ring entry up to RDONE. -/
def execLadleRingAction (vf : Nat) (s : State) : Host.Outcome State Fault Refusal :=
  let b := ladleBlock s vf
  let lg := physNat s (b + 8) 4 % 16
  let n := storeGet 0 s.ld.ring vf
  if physNat s (b + 20) 4 = n || lg < 4 || 12 < lg then .next s
  else
    let x := physNat s (physNat s b 8 + 32 * (n % 2 ^ lg)) 32
    let s := { s with ld := { s.ld with ring := storeSet 0 s.ld.ring vf ((n + 1) % 2 ^ 32) } }
    let va := bits x 56 12 * 4096
    let root := rootOf s ⟨vf, bits x 75 64, .mch, 2⟩
    let decline (s : State) : State := dropProposal (ladleCount s vf 212) vf root va
    match ringDecision x with
    | none => .next (decline s)
    | some (act, tier, die) =>
      let p : Proposal := ⟨vf, root, va, bit x 0, bits x 75 64, bits x 87 80, act, tier, die, true, true⟩
      let alt := bits x 111 104 == 2
      match leafOfVa s (ladleAcc p) va with
      | some l => if alt && strictForbids l.pte tier then .next (decline s) else .next (beginAction s p)
      | none => .next (beginAction s p)

/-! ## Side logs -/

/-- The places of the bytes that an entry holds. -/
def entryBytes (e : LogEntry) : List (Nat × Byte) :=
  (upto 16).filterMap fun i => if bit e.bmask i then some (e.va + i, e.data.getD i 0) else none

/-- The agent that made an entry. -/
def entryAgent (s : State) (e : LogEntry) : Agent :=
  match ctxOf s e.vf e.ident with
  | some c => agentOf c
  | none => ⟨e.vf, 0, 0, if 512 ≤ e.core then 2 else e.core / 256, if 512 ≤ e.core then 0 else e.core % 256 / 8⟩

/-- One value of a reduction in the log reaches its home (R236). -/
def replayReduce (s : State) (e : LogEntry) (p : Party) (code pa : Nat) (at_ : Nat) : State :=
  let n := reduceSize code
  if (upto n).all fun i => e.holds (at_ + i) then
    let keys := (upto n).map fun i => physKey s (pa + (at_ + i) % 4096)
    let old := natOfBytes (keys.map (strongByte s p.ord p.lanes p.ag (keys.headD 0) n))
    let d := natOfBytes ((upto n).map fun i => e.data.getD (at_ + i - e.va) 0)
    let s := meet s p.ord p.lanes keys
    let rels := metRels s p.ord p.lanes (keys.headD 0)
    noteStrong (strongPut s p e.ev e.scope rels keys (bytesOfNat n (reduceValue code old d))) keys
  else s

/-- Performs an entry at a translated page: it arrives at its home (R81, R101). A store after a load that has still to return stays
unreadable until then (R75). -/
def replayEntry (s : State) (e : LogEntry) (pa : Nat) : State :=
  let bs := entryBytes e
  let keys := bs.map fun b => physKey s (pa + b.1 % 4096)
  let p : Party := ⟨entryAgent s e, 0xFFFFFFFF, ⟨e.known.map fun i => (i, 0xFFFFFFFF), [], []⟩⟩
  match e.kind with
  | .plain =>
    followed (if e.quiet = 0 then arrivedPut s p e.ev keys (bs.map (·.2))
      else quieten (plainPut s p e.ev keys (bs.map (·.2))) e.ev e.quiet) e.ev keys
  | .strong => noteStrong (followed (strongPut s p e.ev e.scope e.rels keys (bs.map (·.2))) e.ev keys) keys
  | .reduce code =>
    ((upto (16 / reduceSize code)).map fun i => e.va + reduceSize code * i).foldl (fun s at_ => replayReduce s e p code pa at_) s

/-- The homes' check of sizes finds the strong accesses that an entry holds mixed with others (R77, R234). -/
def replayMixed (s : State) (e : LogEntry) (pa : Nat) : Bool :=
  let keysAt (at_ n : Nat) : List Nat :=
    ((upto n).filter fun i => e.holds (at_ + i)).map fun i => physKey s (pa + (at_ + i) % 4096)
  match e.kind with
  | .plain => false
  | .strong => mixedFor s e.vf (keysAt e.va 16)
  | .reduce code =>
    let n := reduceSize code
    (upto (16 / n)).any fun i => e.holds (e.va + n * i) && mixedFor s e.vf (keysAt (e.va + n * i) n)

/-- Entries of one instruction share a request: the last of them to replay in a sector counts for it (R96, R243). -/
def lastOfSector (s : State) (e : LogEntry) : Bool :=
  !s.ms.log.any fun x => x.grp == e.grp && x.core == e.core && x.va / 64 == e.va / 64

/-- SIDE_LOG_REPLAY (R101): the head entry of a core's log is translated again and performed. A page without a usable
translation, or whose gtinv has still to complete, one under a move or with duplicates holds it; one in a poisoned extent makes it
unresolvable (R108). A strong access that the homes find mixed with one of another size is not performed; its group takes 0x31 before its next
issue (R77; DEDUCED, notes/assumptions/99.md). -/
def execSideLogReplay (core : Nat) (s : State) : Host.Outcome State Fault Refusal :=
  match headEntry s core with
  | none => .next s
  | some e =>
    let a := e.acc
    let rest : State := { s with ms := { s.ms with log := s.ms.log.erase e } }
    match translate s a .store e.va with
    | .bad cs =>
      if cs.contains 0x48 then .next (updCtx rest e.vf e.ident fun c => { c with unres := true })
      else .next s
    | .ok g =>
      if e.waits then .next s
      else if migBit g.pte || dupBit g.pte then heldStep s g.pte
      else if replayMixed s e g.pa then
        if hasCause s e.vf e.ident then .next s
        else .next (updCtx rest e.vf e.ident fun c => { c with pend := some ⟨0x31, 0, 0, 0xFFFFFFFF, BitVec.ofNat 64 e.va⟩ })
      else
        let t := noteWalk rest a .store e.va g
        let u := replayEntry t e g.pa
        let u := if e.kind == .plain then spoilEntries t u a e.va 16 else u
        .next (if lastOfSector u e then actAs u a [] fun u => countVa u a .store true e.va 16 else u)

/-- A write of SLDISC (R101): every entry of the context and page becomes unresolvable. -/
def discardLog (s : State) (core vf : Nat) (x : DWord) : State :=
  let ident := bits x.toNat 11 0
  let page := bits x.toNat 56 12
  let hit (e : LogEntry) : Bool := e.core == core && e.vf == vf && e.ident == ident && e.va / 4096 == page
  if s.ms.log.any hit then
    updCtx { s with ms := { s.ms with log := s.ms.log.filter fun e => !hit e } } vf ident fun c => { c with unres := true }
  else s

/-- SLDISC_WRITE (R101). -/
def execSldiscWrite (core vf : Nat) (x : DWord) (s : State) : Host.Outcome State Fault Refusal := .next (discardLog s core vf x)

/-- LEASE_RENEWAL (R80): a cached copy's lease on a sector expires and its version is sent to the home. Copies are no state
of their own: what a load may still return is decided by the write sets and by the time at which each write arrived
(`prunedFor`), so nothing that the manual names changes. -/
def execLeaseRenewal (_sector : Nat) (s : State) : Host.Outcome State Fault Refusal := .next s

end Sys2Proof.Machine
end

