-- ==== Sys2Proof/Machine/Save.lean ====
section
/-! DEFINITION. Saving a context and restoring it (07; R36, R88, R122, R155 to R158): bringing it to rest, the save area, the
device's own saves of contexts and vault regions. -/

namespace Sys2Proof.Machine

/-! ## Rest (R157) -/

/-- The array of a partition, or a tile write that it waits for, takes one more step. -/
def drainStep (s : State) (part vf ident : Nat) : Option State :=
  let first : Option State :=
    match (arrayOf s part).queue with
    | [] => none
    | e :: _ => finishWrite s e.vf e.ident
  (finishWrite s vf ident).orElse fun _ => (finishRow s part).orElse fun _ => (takeEntry s part).orElse fun _ => first

/-- Lets every matrix entry of a context complete (R122). -/
def drainMatrix (part vf ident : Nat) : Nat → State → State
  | 0, s => s
  | n + 1, s =>
    match ctxOf s vf ident with
    | none => s
    | some c =>
      if matrixBusy s c none then
        match drainStep s part vf ident with
        | some t => drainMatrix part vf ident n t
        | none => s
      else s

/-- How many steps an array takes at most to complete what it holds: 12 contexts of 12 entries of 9 steps. -/
def drainFuel : Nat := 2048

/-- A context at rest: its windows closed, nothing waited for; an access that gtret was to issue once more is again the
oldest pending replay. -/
def restCtx (c : Ctx) : Ctx :=
  let c := restPidx (closeWindows c)
  let c := { c with ap := c.ap.map fun (a : Ap) => { a with wins := [] } }
  let again : List Pend := match c.redo with | some (pc, m) => [⟨0x30, 1, pc, m, c.trap.taddr⟩] | none => []
  let c := { c with replays := again ++ c.replays, redo := none }
  { c with s0 := { c.s0 with wait := .none }, s1 := { c.s1 with wait := .none } }

/-- Whose command. -/
def ownCmd (uid : Nat) (c : Cmd) : Bool := c.uid == uid

/-- A gwaitt whose deadline is reached completes with k[d] = 0 (R318): at its own end, or because a stop meets it then (R324). -/
def deadlineEnd (s : State) (vf ident : Nat) (other : Bool) : Option State :=
  resume s vf ident other fun _ w =>
    match w with
    | .deadline f t => some (f.nas, ⟨[], codes f.a 2, codes f.d 1⟩, fun s =>
        if s.tnow.toNat < t then .wait .held s
        else match takeAll [(1, f.a, 2)] s with | .error e => portStop s e | .ok (_, s') => .ok (putUniform s' f.d.toNat 0))
    | _ => none

/-- Brings a context to rest (R157): entries complete, engine commands stop, what it waits for at homes is withdrawn, and
its writes have arrived (R88) and are counted (R244). Its collectives go on if `coll` says so, as at a row's end (R355). -/
def bringToRest (s : State) (coll : Bool) (vf ident : Nat) : State :=
  let s := (deadlineEnd s vf ident false).getD s
  let s := (deadlineEnd s vf ident true).getD s
  match ctxOf s vf ident with
  | none => s
  | some c =>
    let s := withdraw (drainMatrix (partOf c.who.loc) vf ident drainFuel s) vf ident
    let s := updCtx s vf ident restCtx
    let s := countArrived (arriveAll s c.ord 0xFFFFFFFF)
    let stops (x : Cmd) : Bool := ownCmd c.who.uid x && !(coll && isColl x)
    { s with en := { s.en with cmds := mapWhere stops (fun x => { x with halted := true }) s.en.cmds } }

/-! ## The save area (R158) -/

/-- One field of an area: offset, bytes, value. -/
abbrev Piece := Nat × Nat × Nat

/-- The sum of values at equal steps of bits. -/
def packed (step : Nat) : List Nat → Nat
  | [] => 0
  | x :: t => x + 2 ^ step * packed step t

/-- A target queue of 48 bytes; its count word also holds the loop count in [6:4]. -/
def tqImage (q : Seq) : Nat :=
  packed 64 ((upto 4).map fun i => (q.tq.getD i 0).toNat) + 2 ^ 256 * (q.tqn + 16 * q.lsn)

/-- A loop stack of 64 bytes. -/
def loopImage (q : Seq) : Nat :=
  packed 128 ((upto 4).map fun i => let e := q.loops.getD i (0, 0); e.1.toNat + 2 ^ 64 * e.2.toNat)

/-- A call stack of 80 bytes; its depth word is that of R169. -/
def callImage (q : Seq) : Nat :=
  packed 64 ((upto 8).map fun i => (q.calls.getD i 0).toNat) + 2 ^ 512 * (q.csn + 2 ^ 16 * q.css)

/-- The images of sequencing state at three offsets. -/
def seqPieces (q : Seq) (tq lp cs : Nat) : List Piece := [(tq, 48, tqImage q), (lp, 64, loopImage q), (cs, 80, callImage q)]

/-- A slot of 16 bytes. -/
def slotImage (x : Slot) : Nat := if x.valid then x.pc.toNat + 2 ^ 64 * x.mask.toNat + 2 ^ 96 else 0

/-- The state word of an access processor. -/
def apState : ApRun → Nat
  | .running => 0
  | .ended => 1
  | .faulted c _ _ => 2 + 256 * (c % 256)

/-- The access processor's part of an area. -/
def apPieces (a : Ap) : List Piece :=
  [(0x280, 8, a.pc.toNat), (0x288, 8, apState a.run), (0x290, 64, packed 32 ((upto 16).map fun i => (storeGet 0 a.k i).toNat))] ++
    seqPieces a.seq 0x2D0 0x300 0x340 ++
    [(0x390, 8, packed 16 ((upto 4).map fun q => (a.aq.getD q []).length)),
      (0x398, 256, packed 512 ((upto 4).map fun q => packed 32 ((a.aq.getD q []).map (·.val.toNat))))]

/-- The number of a kind of side-log entry in an area. -/
def kindCode : LogKind → Nat
  | .plain => 0
  | .strong => 1
  | .reduce op => 2 + op

/-- The kind that a number names. -/
def kindOf (n : Nat) : LogKind := if n = 0 then .plain else if n = 1 then .strong else .reduce (n - 2)

/-- The values of a reduction that two lanes of one instruction hold of one element, combined (R158, R236; DEDUCED,
notes/assumptions/85.md). -/
def combined (code : Nat) (x y : LogEntry) (i : Nat) : Byte :=
  let n := reduceSize code
  let value (e : LogEntry) : Nat := natOfBytes ((upto n).map fun j => e.data.getD (i / n * n + j) 0)
  (bytesOfNat n (reduceValue code (value x) (value y))).getD (i % n) 0

/-- The entry that two lanes of one instruction share (R243): of a byte that both store, that of the later. -/
def joinEntry (x y : LogEntry) : LogEntry :=
  let byte (i : Nat) : Byte :=
    match y.kind, bit x.bmask i, bit y.bmask i with
    | .reduce code, true, true => combined code x y i
    | _, _, true => y.data.getD i 0
    | _, _, false => x.data.getD i 0
  { y with data := (upto 16).map byte, bmask := x.bmask ||| y.bmask }

/-- Entries of one instruction and one 16-byte unit (R243). -/
def LogEntry.shares (x y : LogEntry) : Bool := x.grp == y.grp && x.va == y.va

/-- Lanes of one instruction share an entry (R243). -/
def mergeLog (es : List LogEntry) : List LogEntry :=
  es.foldl (fun out e => if out.any e.shares then mapWhere e.shares (joinEntry · e) out else out ++ [e]) []

/-- The number of bytes that an entry holds. -/
def logSize (e : LogEntry) : Nat := ones e.bmask 16

/-- An entry of 32 bytes. -/
def logImage (e : LogEntry) : Nat :=
  e.va + 2 ^ 64 * (kindCode e.kind + 256 * e.scope + 65536 * logSize e) + 2 ^ 96 * e.bmask + 2 ^ 128 * natOfBytes e.data

/-- The origin's code (R158), in the order of R38. -/
def originCode : Origin → Nat
  | .record => 0 | .gang => 1 | .spawn => 2 | .graph => 3

/-- The origin that a code names. -/
def originOf (n : Nat) : Origin :=
  if n % 4 = 0 then .record else if n % 4 = 1 then .gang else if n % 4 = 2 then .spawn else .graph

/-- The side-log entries of a context. -/
def entriesOf (s : State) (c : Ctx) : List LogEntry := s.ms.log.filter fun e => e.vf == c.who.vf && e.ident == c.who.ident

/-- The side-log entries of a context as an area holds them; 64 is what one core's log holds (R243). -/
def ctxLog (s : State) (c : Ctx) : List LogEntry := (mergeLog (entriesOf s c)).take 64

/-- The pending cause and its fate code (R155). The mark of an entry declared unresolvable is no cause decided yet (R81): the device
keeps it beside the area. -/
def pendCode (c : Ctx) : Nat × Nat := match c.pend with | some p => (p.cause, p.fate) | none => (0, 0)

/-- The header words, slots and sequencing of an area. -/
def headPieces (s : State) (c : Ctx) : List Piece :=
  let (cause, fate) := pendCode c
  let reps := c.replays.take 24
  [(0, 4, 1 + (if hmode c then 256 else 0) + (if c.ap.isSome then 512 else 0) + 1024 * c.mx.held + 2 ^ 14 * (ctxLog s c).length +
      2 ^ 21 * originCode c.who.origin + 2 ^ 23 * c.prio),
    (4, 4, min c.waitCnt 127 + 256 * cause + 65536 * fate + 2 ^ 18 * reps.length),
    (8, 8, c.stamp.getD 0), (0x40, 16, slotImage c.s0), (0x50, 16, slotImage c.s1),
    (0x60, 32, packed 32 [c.flags.toNat, c.flmask.toNat, c.pidx.toNat, c.rth.toNat, c.akv.toNat,
      (match c.mx.weights with | some w => w.fmt + 16 | none => 0) + 256 * (c.mx.batch % 16)]),
    (0x80, 16, c.dsp.toNat + 2 ^ 64 * c.dsh.toNat)] ++ seqPieces c.seq 0x90 0xC0 0x100 ++
    (if hmode c then seqPieces c.hseq 0x4C0 0x4F0 0x530 else []) ++
    ((upto reps.length).zip reps).map fun x => (0x580 + 16 * x.1, 16, x.2.pc.toNat + 2 ^ 64 * x.2.lanes.toNat)

/-- The trap state of an area, in slots of 8 bytes. -/
def trapImage (t : Trap) : Nat :=
  packed 64 ([t.tcause.toNat, t.tepc0.toNat, t.tepc1.toNat, t.tmsk0.toNat, t.tmsk1.toNat, t.taddr.toNat, t.tlanes.toNat,
    t.trpc.toNat] ++ t.tscr.map (·.toNat))

/-- The scale record of Q4N weights. -/
def scalePieces (c : Ctx) : List Piece :=
  match c.mx.weights with
  | some w => if w.fmt = 8 then [(0x700, 128, packed 32 (w.m.map (·.toNat))), (0x780, 128, packed 32 (w.s.map (·.toNat)))] else []
  | none => []

/-- Registers, side-log entries and tiles of an area. -/
def dataPieces (s : State) (c : Ctx) : List Piece :=
  [(0x180, 128, trapImage c.trap), (0x200, 64, packed 32 ((upto 16).map fun i => (kAt c i).toNat)),
    (0x240, 32, packed 32 ((upto 8).map fun i => (mAt c i).toNat))] ++
    (match c.ap with | some a => apPieces a | none => []) ++ scalePieces c ++
    ((c.regs.filter fun e => e.1 < 1536).map fun e => (0x800 + 128 * (e.1 / 32) + 4 * (e.1 % 32), 4, e.2.toNat)) ++
    (((upto 64).zip (ctxLog s c)).map fun x => (0x2000 + 32 * x.1, 32, logImage x.2)) ++
    ((upto c.mx.held).map fun t => (0x2800 + 4 * t, 4, (tileStatus s c t).toNat)) ++
    (c.mx.tiles.map fun e => (0x3000 + 4096 * (e.1 / 1024) + 4 * (e.1 % 1024), 4, e.2.toNat))

/-- The bytes of an area that are not 0. -/
def areaImage (s : State) (c : Ctx) : Store Byte :=
  (headPieces s c ++ dataPieces s c).foldl (fun im p =>
    ((upto p.2.1).zip (bytesOfNat p.2.1 p.2.2)).foldl (fun im b => storeSet 0 im (p.1 + b.1) b.2) im) []

/-- CSZ. -/
def areaSize : Nat := 0xB000

/-- The bytes of an area that a save writes: tiles beyond the count held are not. -/
def areaEnd (c : Ctx) : Nat := 0x3000 + 4096 * c.mx.held

/-- Writes 64 bytes of an image: only bytes that change or that have a write set of their own are written anew. -/
def putPiece (s : State) (im : Store Byte) (off key : Nat) : State :=
  let here (k : Nat) : Bool := decide (key ≤ k) && decide (k < key + 64)
  let new := (im.filter fun e => decide (off ≤ e.1) && decide (e.1 < off + 64)).map (·.1 - off)
  let old := (s.ms.mem.filter fun c => here c.1).map (·.1 - key)
  let raced := (s.ms.hist.filter fun w => here w.key).map (·.key - key)
  let offs := distinct (new ++ old ++ raced)
  devPutKeys s (offs.map (key + ·)) (offs.map fun i => storeGet 0 im (off + i))

/-- Writes an area from `lo` on, before `hi`; `key` gives the key of the byte at an offset. -/
def putArea (s : State) (c : Ctx) (key : Nat → Nat) (lo hi : Nat) : State :=
  let im := areaImage s c
  (upto (areaEnd c / 64)).foldl (fun s j => if 64 * j < lo || hi ≤ 64 * j then s else putPiece s im (64 * j) (key (64 * j))) s

/-! ## Restoring -/

/-- A reader of an area: the value of some bytes at an offset. -/
def areaReader (s : State) (key : Nat → Nat) (off n : Nat) : Nat := homeNat s ((upto n).map fun i => key (off + i))

/-- Words of 4 or 8 bytes from an offset on. -/
def readWords (rd : Nat → Nat → Nat) (off size n : Nat) : List Nat := (upto n).map fun i => rd (off + size * i) size

/-- An address of sequencing state, whose bits [1:0] read as zero (R6, R174). -/
def seqAddr (x : Nat) : Addr := BitVec.ofNat 57 (x / 4 * 4)

/-- Sequencing state read from its three places. -/
def seqOfArea (rd : Nat → Nat → Nat) (tq lp cs : Nat) : Seq :=
  let counts := rd (tq + 32) 4
  let depth := rd (cs + 64) 4
  { tq := (readWords rd tq 8 4).map seqAddr
    tqn := min (bits counts 2 0) 4
    loops := (upto 4).map fun i => (seqAddr (rd (lp + 16 * i) 8), BitVec.ofNat 32 (rd (lp + 16 * i + 8) 4))
    lsn := min (bits counts 6 4) 4
    calls := (readWords rd cs 8 8).map seqAddr
    csn := min (bits depth 3 0) 8
    css := min (bits depth 25 16) 512 }

/-- A slot read from an area. -/
def slotOfArea (rd : Nat → Nat → Nat) (all : Mask) (off : Nat) : Slot :=
  if bit (rd (off + 12) 4) 0 then ⟨true, BitVec.ofNat 57 (rd off 8), BitVec.ofNat 32 (rd (off + 8) 4) &&& all, .none⟩ else emptySlot

/-- What an access processor of an area does: one that names no cause to deliver has ended (R6, R159). -/
def apRunOfArea (st : Nat) (addr : DWord) (seen : Bool) : ApRun :=
  if bits st 7 0 = 0 then .running
  else if bits st 7 0 = 2 && deliverable (bits st 15 8) then .faulted (bits st 15 8) addr seen
  else .ended

/-- The access processor that an area holds, with the address of its fault. A fault that the handler now running received is
delivered. -/
def apOfArea (rd : Nat → Nat → Nat) (num : Nat) (addr : DWord) (ids : List Nat) : Ap :=
  let st := rd 0x288 8
  let tc := rd 0x180 4
  let seen := bit tc 14 && bits tc 9 8 == 1
  let count (q : Nat) : Nat := min (rd (0x390 + 2 * q) 2) 16
  { num := num
    pc := BitVec.ofNat 57 (rd 0x280 8)
    k := ((upto 16).zip (readWords rd 0x290 4 16)).foldl (fun k x => storeSet 0 k x.1 (BitVec.ofNat 32 x.2)) []
    seq := seqOfArea rd 0x2D0 0x300 0x340
    run := apRunOfArea st addr seen
    aq := (upto 4).map fun q => (readWords rd (0x398 + 64 * q) 4 (count q)).map fun x => ⟨BitVec.ofNat 32 x, ids, []⟩
    ids := ids
    wins := []
    seen := [] }

/-- The registers of an area; a scalar context takes lane 0, and its mask registers keep 32 bits (R27). -/
def regsOfArea (rd : Nat → Nat → Nat) (scalar : Bool) : Store Word :=
  let put (r : Store Word) (k x : Nat) : Store Word := storeSet 0 r k (BitVec.ofNat 32 x)
  let ls := if scalar then [0] else upto 32
  let r := (upto 48).foldl (fun r i => ls.foldl (fun r l => put r (vKey i l) (rd (0x800 + 128 * i + 4 * l) 4)) r) []
  let r := (upto 16).foldl (fun r i => put r (kKey i) (rd (0x200 + 4 * i) 4)) r
  (upto 8).foldl (fun r i => if i = 0 then r else put r (mKey i) (rd (0x240 + 4 * i) 4)) r

/-- Bits [56:0] of a register that holds an address. -/
def addrBits (x : Nat) : DWord := BitVec.ofNat 64 (x % 2 ^ 57)

/-- TEPC0 or TEPC1 without its reserved bits (R6, R147). -/
def tepcBits (x : Nat) : DWord := addrBits x ||| (if bit x 63 then 1 <<< 63 else 0)

/-- DSP or DSH without its reserved bits (R6, R19). -/
def dsBits (x : Nat) : DWord := addrBits (x / 16 * 16)

/-- The trap state of an area. Reserved bits read as zero (R6, R147). -/
def trapOfArea (rd : Nat → Nat → Nat) : Trap :=
  let w (i : Nat) : Nat := rd (0x180 + 8 * i) 8
  let tc := BitVec.ofNat 32 (w 0 % 2 ^ 21)
  { tcause := if bit (rd 0 4) 8 then tc ||| 0x4000 else tc &&& ~~~(0x4000 : Word)
    tepc0 := tepcBits (w 1), tepc1 := tepcBits (w 2), tmsk0 := BitVec.ofNat 32 (w 3), tmsk1 := BitVec.ofNat 32 (w 4)
    taddr := BitVec.ofNat 64 (w 5), tlanes := BitVec.ofNat 32 (w 6), trpc := addrBits (w 7)
    tscr := (upto 4).map fun i => BitVec.ofNat 32 (w (8 + i)) }

/-- The matrix state of an area. -/
def matrixOfArea (rd : Nat → Nat → Nat) : Matrix :=
  let held := min (bits (rd 0 4) 13 10) 8
  let fm := rd 0x74 4
  let words (off : Nat) : List Word := if bits fm 3 0 = 8 then (readWords rd off 4 32).map (BitVec.ofNat 32) else []
  { held := held
    tiles := (upto (1024 * held)).foldl (fun t i => storeSet 0 t i (BitVec.ofNat 32 (rd (0x3000 + 4 * i) 4))) []
    writes := []
    weights := if bit fm 4 then some ⟨bits fm 3 0, words 0x700, words 0x780⟩ else none
    batch := bits fm 11 8 }

/-- The pending cause of an area (R155, R158), of a path with these lanes; a reserved code or fate names none (R6, R159). -/
def pendOfArea (rd : Nat → Nat → Nat) (path : Mask) : Option Pend :=
  let w := rd 4 4
  let cause := bits w 15 8
  let fate := bits w 17 16
  if deliverable cause && fate != 3 then some ⟨cause, fate, 0, path, 0⟩ else none

/-- The pending replays of an area (R399). TADDR is formed when each is taken. -/
def replaysOfArea (rd : Nat → Nat → Nat) : List Pend :=
  (upto (min (bits (rd 4 4) 22 18) 24)).map fun i =>
    ⟨0x30, 1, BitVec.ofNat 57 (rd (0x580 + 16 * i) 8), BitVec.ofNat 32 (rd (0x580 + 16 * i + 8) 4), 0⟩

/-- The context that an area holds, at a place and in a mode; everything it does follows what it acquires (R88). -/
def ctxOfArea (rd : Nat → Nat → Nat) (who : Who) (mode : Mode) (apNum : Nat) (apAddr : DWord) (ids : List Nat) :
    Ctx :=
  let h := rd 0 4
  let w := rd 4 4
  let all : Mask := if who.loc.die = 2 then 1 else 0xFFFFFFFF
  let s0 := slotOfArea rd all 0x40
  let s1 := if who.loc.die = 2 then emptySlot else slotOfArea rd all 0x50
  { live := true, who := who, prio := bits h 24 23, mode := mode, s0 := s0, s1 := s1
    iss := false, regs := regsOfArea rd (who.loc.die == 2), seq := seqOfArea rd 0x90 0xC0 0x100
    hseq := if bit h 8 then seqOfArea rd 0x4C0 0x4F0 0x530 else emptySeq
    flags := BitVec.ofNat 32 (rd 0x60 4 % 128), flmask := BitVec.ofNat 32 (rd 0x64 4 % 32), pidx := BitVec.ofNat 32 (rd 0x68 4)
    rth := BitVec.ofNat 32 (rd 0x6C 4), akv := BitVec.ofNat 32 (rd 0x70 4 % 4), dsp := dsBits (rd 0x80 8)
    dsh := dsBits (rd 0x88 8), top := none, waitCnt := bits w 6 0, stamp := if rd 8 8 = 0 then none else some (rd 8 8), trap := trapOfArea rd
    pend := pendOfArea rd (if s0.valid then s0.mask else s1.mask), replays := replaysOfArea rd
    cmdFault := none, wins := [], ap := if bit h 9 then some (apOfArea rd apNum apAddr ids) else none
    ord := learn emptyOrder ids 0xFFFFFFFF, unres := false, mx := matrixOfArea rd, endCause := none, redo := none }

/-- An entry of an area as the context that it belongs to makes it again. -/
def areaEntry (rd : Nat → Nat → Nat) (s : State) (c : Ctx) (at_ ev : Nat) : LogEntry :=
  let k := rd (at_ + 8) 4
  let va := rd at_ 8 / 16 * 16
  let scope := bits k 15 8 % 8
  let kind := kindOf (bits k 7 0)
  let e : LogEntry := ⟨coreNum c.who.loc, c.who.vf, c.who.ident, va, bytesOfNat 16 (rd (at_ + 16) 16), rd (at_ + 12) 4 % 2 ^ 16, kind,
    scope, ev, faulted c, ev, knownIds c.ord 0xFFFFFFFF,
    if kind == .strong then relsOf c.ord 0xFFFFFFFF false scope (agentOf c) ev else [], c.mode, false⟩
  { e with waits := match translate s e.acc .store va with | .ok _ => false | .bad _ => true }

/-- The entries of single lanes that made an entry of an area, as they were when they were saved: each has its own bytes of it. -/
def reentered (e : LogEntry) (old : List LogEntry) : List LogEntry :=
  (old.foldr (fun p (acc : List LogEntry × Nat) =>
    let mine := e.bmask &&& p.bmask
    let own := mine - (mine &&& acc.2)
    (if own = 0 then acc.1 else { p with core := e.core, data := e.data, bmask := own } :: acc.1, acc.2 ||| p.bmask)) ([], 0)).1

/-- The side-log entries of an area, re-entered ahead of any new store of the context (R88): those that were saved, `old`, as the same
writes. -/
def logOfArea (rd : Nat → Nat → Nat) (s : State) (c : Ctx) (old : List LogEntry) : State × Ctx :=
  let shared := mergeLog old
  (upto (min (bits (rd 0 4) 20 14) 64)).foldl (fun (acc : State × Ctx) i =>
    let (ev, t) := takeFresh acc.1
    let e := areaEntry rd t acc.2 (0x2000 + 32 * i) ev
    match (shared[i]?).filter fun m => m.va == e.va && m.kind == e.kind with
    | some m => (logAll acc.1 (reentered e (old.filter m.shares)), acc.2)
    | none => (logAll t [e], { acc.2 with ord := learn acc.2.ord [ev] 0xFFFFFFFF })) (s, c)

/-- The pending cause of an area with its lanes and address, if the device kept it beside the area. -/
def keptPend (c : Ctx) (x : Saved) : Option Pend :=
  match c.pend, x.pend with
  | some p, some q => if p.cause = q.cause ∧ p.fate = q.fate then some q else some p
  | p, _ => p

/-- A context read from an area has what the device kept of it (R72, R81, R85, R88, R153). -/
def withKept (c : Ctx) (x : Saved) : Ctx :=
  { c with
    cmdFault := x.cmdFault
    pend := keptPend c x
    unres := x.unres
    flags := c.flags ||| x.late
    ord := { c.ord with relFences := x.fences, seen := x.seen }
    ap := c.ap.map fun (a : Ap) => { a with seen := x.apSeen } }

/-- What a context knows, as one list. -/
def ctxIds (c : Ctx) : List Nat := distinct (c.ord.know.map (·.1) ++ match c.ap with | some a => a.ids | none => [])

/-- The address of an access processor's fault, which an area does not hold. -/
def apAddr (c : Ctx) : DWord :=
  match c.ap with
  | some a => (match a.run with | .faulted _ x _ => x | _ => 0)
  | none => 0

/-- What the device keeps of a context that it saves at an area (`by_` as in Saved). -/
def savedOf (s : State) (c : Ctx) (area by_ unit : Nat) : Saved :=
  ⟨area, by_, c.who, c.mode, c.ap.map (·.num), ctxIds c, unit, c.cmdFault, apAddr c, c.pend, c.unres, faulted c, c.ord.relFences, c.ord.seen,
    (match c.ap with | some a => a.seen | none => []), 0, entriesOf s c⟩

/-- The number of an access processor that a context waits for (R36). -/
def apWanted : Nat := 2

/-- The access processor number that a context of a partition gets: its own if it is free there. -/
def freeAp (s : State) (core part want : Nat) : Option Nat :=
  let used := ((usedCtx s core part).filterMap (·.ap)).map (·.num)
  (want :: [0, 1]).find? fun n => !used.contains n

/-! ## The device's own saves -/

/-- Takes a context from those that run, without ending it. -/
def parkCtx (s : State) (vf ident : Nat) : State :=
  let stale (u : ArrayUnit) : ArrayUnit :=
    { u with latch := u.latch.map fun l => if l.vf == vf && l.ident == ident then { l with valid := false } else l }
  { s with
    arrays := s.arrays.map stale
    ms := { s.ms with log := s.ms.log.filter fun e => e.vf != vf || e.ident != ident }
    g := if isCtx vf ident s.g then deadCtx s.g else s.g
    others := s.others.filter fun c => !isCtx vf ident c }

/-- The key of a byte of an area at a physical address. -/
def physArea (s : State) (pa off : Nat) : Nat := physKey s (pa + off)

/-- Saves a context at a physical address (R157): it is brought to rest, written and parked. -/
def saveCtx (s : State) (vf ident by_ unit area : Nat) : State :=
  let t := bringToRest s (by_ != 2) vf ident
  match ctxOf t vf ident with
  | none => s
  | some c =>
    let x := savedOf t c area by_ unit
    let s := parkCtx (putArea t c (physArea t area) 0 areaSize) vf ident
    { s with en := { s.en with saved := s.en.saved ++ [x] } }

/-- Where the device saves the context of an identifier (R355). -/
def ctxAreaAt (s : State) (vf ident : Nat) : Nat :=
  bits (vfReg s vf 0x109).toNat 55 12 * 4096 + areaSize * (ident - bits (vfReg s vf 0x107).toNat 11 0)

/-- Where the device saves the vault region of the team whose group 0 has an identifier (R355). -/
def vaultAreaAt (s : State) (vf ident : Nat) : Nat :=
  bits (vfReg s vf 0x10A).toNat 55 12 * 4096 + 2 ^ 21 * (ident - bits (vfReg s vf 0x107).toNat 11 0)

/-- The identifier that names a team's vault area: that of its group 0, or the lowest that is left. -/
def teamIdent : List Who → Option Nat
  | [] => none
  | w :: t =>
    match w.gidx, teamIdent t with
    | 0, _ => some w.ident
    | _, some i => some (if t.any (·.gidx == 0) then i else min w.ident i)
    | _, none => some w.ident

/-- Copies a team's vault region to its area, or back. -/
def copyVault (s : State) (t : Team) (area : Nat) (back : Bool) : State :=
  let die := t.core / 256
  (upto (16 * t.entry.vault)).foldl (fun s i =>
    let v := vaultKey die (t.base + 256 * i)
    let m := physKey s (area + 256 * i)
    if back then copyPiece s m v else copyPiece s v m) s

/-- The teams of a gang with the contexts of each that a list holds. -/
def teamsWith (g : Gang) (ws : List Who) : List (Team × List Who) :=
  ((upto g.teams.length).zip g.teams).map fun x => (x.2, ws.filter fun w => w.gang == some g.num && w.team == some x.1)

/-- Saves or restores the vault regions of a gang's teams whose contexts are listed. -/
def gangVaults (s : State) (g : Gang) (ws : List Who) (back : Bool) : State :=
  (teamsWith g ws).foldl (fun s x =>
    if x.1.entry.vault = 0 then s
    else match teamIdent x.2 with | some i => copyVault s x.1 (vaultAreaAt s g.vf i) back | none => s) s

/-- Ends contexts that have ended and not yet been taken away. -/
def sweep (s : State) : State := ((allCtx s).filter fun c => c.endCause.isSome).foldl finishCtx s

/-- Saves the contexts named, gangs whole with their vault regions, each where the device saves its identifier (R355). -/
def saveAll (s : State) (p : Ctx → Bool) (by_ : Nat) : State :=
  let s := sweep s
  let ws := ((allCtx s).filter p).map (·.who)
  let s := (s.wk.gangs.filter fun g => !g.saved && ws.any fun w => w.gang == some g.num).foldl (fun s g => gangVaults s g ws false) s
  let s := ws.foldl (fun s w => saveCtx s w.vf w.ident by_ 0 (ctxAreaAt s w.vf w.ident)) s
  let mine (g : Gang) : Bool := ws.any fun w => w.gang == some g.num
  { s with wk := { s.wk with gangs := mapWhere mine (fun g => { g with saved := true }) s.wk.gangs } }

/-- The stopped engine commands of a context go on, but for one whose fault its handler still treats (R153). -/
def resumeCmds (s : State) (x : Saved) : State :=
  let kept (c : Cmd) : Bool := match x.cmdFault with | some (_, n) => c.num == n | none => false
  { s with en := { s.en with
      cmds := mapWhere (fun c => ownCmd x.who.uid c && !kept c) (fun c => { c with halted := false }) s.en.cmds } }

/-- A saved context that cannot be restored ends with 0xE2 recorded (R158). -/
def loseSaved (s : State) (x : Saved) : State :=
  let s := logError s 0xE2 Config.doubleFaultSource.toNat x.who.ident (haltUnit x.who.loc) 0 1
  match x.who.gang with
  | some g => endGang (noteEnd (failGang s g 0xE2) g x.ids) g
  | none => joinFor s ⟨x.who.vf, x.who.ident, x.mode, x.who.loc.die⟩ (issuingCluster x.who.loc) 0 x.who.join true 0xE2 x.ids

/-- Forgets a saved context. -/
def dropSaved (s : State) (x : Saved) : State := { s with en := { s.en with saved := s.en.saved.filter (· != x) } }

/-- The device reads the cached top entry of a restored context again (R36). -/
def rereadTop (s : State) (vf ident : Nat) : State :=
  (onCtx s vf ident fun t => match loadTop t with | .ok u => u | .error _ => t).getD s

/-- A context has the access processor that it needs, or can acquire one of its partition (R36). -/
def apReady (s : State) (c : Ctx) : Bool :=
  match c.ap with
  | some a => a.num != apWanted || (freeAp s (coreNum c.who.loc) c.who.loc.part 0).isSome
  | none => true

/-- The issuing context acquires the access processor that it waits for, before it resumes (R36). -/
def acquireAp (s : State) : State :=
  match s.g.ap, freeAp s (coreNum s.g.who.loc) s.g.who.loc.part 0 with
  | some a, some n => if a.num = apWanted then setG s { s.g with ap := some { a with num := n } } else s
  | _, _ => s

/-- Restores a saved context at a place (R88, R158). One whose partition has no free access processor for it waits there for
one (R36). -/
def restoreSaved (s : State) (x : Saved) (loc : Loc) : State :=
  let s := dropSaved s x
  let rd := areaReader s (physArea s x.area)
  if rd 0 1 ≠ 1 then loseSaved s x
  else
    let num := (freeAp s (coreNum loc) loc.part (x.apNum.getD 0)).getD apWanted
    let (t, c) := logOfArea rd s (withKept (ctxOfArea rd { x.who with loc := loc } x.mode num x.apAddr x.ids) x) x.log
    rereadTop (resumeCmds (addCtx t c) x) c.who.vf c.who.ident

/-- The place of a saved context is free. -/
def placeFree (s : State) (x : Saved) : Bool :=
  !(usedCtx s (coreNum x.who.loc) x.who.loc.part).any fun c => c.who.loc.num == x.who.loc.num

/-- Restores saved contexts to the places that they had, with the vault regions of their gangs. -/
def restoreAll (s : State) (xs : List Saved) (vaults : Bool) : State :=
  let ws := xs.map (·.who)
  let mine (g : Gang) : Bool := g.saved && ws.any fun w => w.gang == some g.num
  let s := if vaults then (s.wk.gangs.filter mine).foldl (fun s g => gangVaults s g ws true) s else s
  let s := { s with wk := { s.wk with gangs := mapWhere mine (fun g => { g with saved := false }) s.wk.gangs } }
  xs.foldl (fun s x => restoreSaved s x x.who.loc) s

end Sys2Proof.Machine
end

