-- ==== Sys2Proof/Machine/Partition.lean ====
section
/-! DEFINITION. Partitions (19; R349 to R363): virtual functions, the quantum table and what it switches, re-admission of saved
work, the address map, the pool, extents and peers. -/

namespace Sys2Proof.Machine

/-! ## Virtual functions (R351) -/

/-- CTXR of a VF: its first identifier and how many it has. -/
def ctxRange (s : State) (vf : Nat) : Nat × Nat := let x := (vfReg s vf 0x107).toNat; (bits x 11 0, bits x 24 12)

/-- VFCTL.EN of a VF. -/
def vfOn (s : State) (vf : Nat) : Bool := (vfReg s vf 0x103).getLsbD 0

/-- The VF shares an identifier with another that is enabled. -/
def rangeOverlaps (s : State) (vf : Nat) : Bool :=
  let (a, n) := ctxRange s vf
  (upto 16).any fun w => w != vf && vfOn s w && (let (b, m) := ctxRange s w; decide (max a b < min (a + n) (b + m)))

/-- A write of VFCTL (R351): EN stays 0 where the ranges overlap; a MIG of 0b11 leaves MIG as it is. -/
def writeVfctl (s : State) (vf : Nat) (x : DWord) : State :=
  let old := (vfReg s vf 0x103).toNat
  let en := bit x.toNat 0 && (bit old 0 || !rangeOverlaps s vf)
  let mig := if bits x.toNat 2 1 = 3 then bits old 2 1 else bits x.toNat 2 1
  setVfReg s vf 0x103 (BitVec.ofNat 64 ((if en then 1 else 0) + 2 * mig))

/-- VFCTL_WRITE (R351). -/
def execVfctlWrite (vf : Nat) (x : DWord) (s : State) : Host.Outcome State Fault Refusal := .next (writeVfctl s (vf % 16) x)

/-! ## The quantum table -/

/-- A register of device scope as a number. -/
def devNat (s : State) (n : Nat) : Nat := (devReg s n).toNat

/-- Writes QCTL's fields: NROWS, GO, LOAD, ERR, ROW. -/
def setQctl (s : State) (nrows : Nat) (go load err : Bool) (row : Nat) : State :=
  let b (x : Bool) (n : Nat) : Nat := if x then n else 0
  setDevReg s 0x111 (BitVec.ofNat 64 (nrows % 32 + b go 256 + b load 512 + b err 1024 + row % 32 * 65536))

/-- QCTL.GO. -/
def qGo (s : State) : Bool := bit (devNat s 0x111) 8
/-- QCTL.LOAD. -/
def qLoad (s : State) : Bool := bit (devNat s 0x111) 9
/-- QCTL.ERR. -/
def qErr (s : State) : Bool := bit (devNat s 0x111) 10
/-- QCTL.NROWS. -/
def qRows (s : State) : Nat := bits (devNat s 0x111) 4 0

/-- Row i of the table at QTB (R353). -/
def tableRow (s : State) (i : Nat) : QRow :=
  let at_ := bits (devNat s 0x110) 55 12 * 4096 + 256 * i
  ⟨physNat s at_ 4, (bytesOfNat 176 (physNat s (at_ + 16) 176)).map (·.toNat)⟩

/-- A row of the table has a DUR or a reserved byte out of range (R354). -/
def rowBad (s : State) (i : Nat) : Bool :=
  let at_ := bits (devNat s 0x110) 55 12 * 4096 + 256 * i
  let d := physNat s at_ 4
  decide (d < 200) || decide (1000000 < d) || physNat s (at_ + 4) 12 != 0 || physNat s (at_ + 192) 64 != 0 ||
    (tableRow s i).units.any fun b => bits b 6 4 != 0

/-- A byte of a row gives its unit to a VF. -/
def gives (vf b : Nat) : Bool := bit b 7 && b % 16 == vf

/-- The shape of a VF in a row (R353). -/
def shapeIn (vf : Nat) (r : QRow) : List Nat := (upto 176).filter fun u => gives vf (r.units.getD u 0)

/-- The shape of a VF in a table: that of the first row in which it appears. -/
def shapeOf (vf : Nat) (rows : List QRow) : List Nat := ((rows.map (shapeIn vf)).find? fun x => !x.isEmpty).getD []

/-- The device refuses a table (R354). -/
def tableBad (s : State) (rows : List QRow) : Bool :=
  (upto rows.length).any (rowBad s) ||
    (upto 16).any fun vf =>
      let shapes := (rows.map (shapeIn vf)).filter fun x => !x.isEmpty
      !shapes.isEmpty && (!vfOn s vf || shapes.any fun x => x != shapeOf vf rows)

/-- The byte of a core in a row. -/
def coreByte (r : Option QRow) (core : Nat) : Nat := match r with | some r => r.units.getD (unitOf core) 0 | none => 0

/-- What a checkpoint saved of the current row (R383) runs again when the device follows the table again. -/
def restoreRow (s : State) : State :=
  let row := s.qt.rows[curRow s]?
  restoreAll s (s.en.saved.filter fun x =>
    x.by_ == 1 && gives x.who.vf (coreByte row (coreNum x.who.loc)) && placeFree s x) true

/-- A write of QCTL (R351): LOAD is only ever set by it; a row's time counts from GO's rise. -/
def writeQctl (s : State) (x : DWord) : State :=
  let go := bit x.toNat 8
  let t := setQctl s (bits x.toNat 4 0) go (qLoad s || bit x.toNat 9) (qErr s) (curRow s)
  if go && !qGo s then restoreRow { t with qt := { t.qt with since := now s } } else t

/-- QCTL_LOAD (R351). -/
def execQctlLoad (x : DWord) (s : State) : Host.Outcome State Fault Refusal := .next (writeQctl s x)

/-- Switches the cores whose byte changes from one row to another (R355): resident groups are saved, those of the incoming VF
restored. -/
def switchRows (s : State) (old new : Option QRow) (row : Nat) : State :=
  let changed (core : Nat) : Bool := coreByte old core != coreByte new core
  let s := saveAll s (fun c => changed (coreNum c.who.loc)) 1
  let s := setQctl s (qRows s) (qGo s) (qLoad s) (qErr s) row
  let back := s.en.saved.filter fun x =>
    x.by_ == 1 && changed (coreNum x.who.loc) && gives x.who.vf (coreByte new (coreNum x.who.loc))
  restoreAll s back true

/-- When the current row ends, in aclk. -/
def rowEnd (s : State) : Nat := s.qt.since + 1200 * (match s.qt.rows[curRow s]? with | some r => r.dur | none => 0)

/-- The current row is the last of its round. -/
def lastRow (s : State) : Bool := decide (s.qt.rows.length ≤ curRow s + 1)

/-- QUANTUM_ROW_BOUNDARY (R355): the row's DUR expires and the next row begins. At the end of a round a requested table comes
first. -/
def execQuantumRowBoundary (s : State) : Host.Outcome State Fault Refusal :=
  if !qGo s || s.qt.rows.isEmpty || decide (now s < rowEnd s) || (qLoad s && lastRow s) then
    .next s
  else
    let row := if lastRow s then 0 else curRow s + 1
    let t := { s with qt := { s.qt with since := rowEnd s } }
    .next (switchRows t s.qt.rows[curRow s]? s.qt.rows[row]? row)

/-! ## Re-admission (R356) -/

/-- Groups that need these numbers of tiles, in rotation over the partitions of a room from one on (R50). -/
def spreadBack : List Nat → Nat → CoreRoom → Option (List Nat × CoreRoom)
  | [], _, r => some ([], r)
  | n :: t, start, r =>
    match ((upto 4).map fun i => (start + i) % 4).find? fun p => r.ctxs.getD p 0 != 0 with
    | none => none
    | some p =>
      if r.tiles.getD p 0 < n then none
      else
        match spreadBack t (p + 1)
            { r with ctxs := setAt r.ctxs p (r.ctxs.getD p 0 - 1), tiles := setAt r.tiles p (r.tiles.getD p 0 - n) } with
        | some (ps, r) => some (p :: ps, r)
        | none => none

/-- A room holds the saved contexts of a team. -/
def fitBack (tiles : List Nat) (r : CoreRoom) : Option (List Nat × CoreRoom) :=
  match mostOf (fun p => r.ctxs.getD p 0) (upto r.ctxs.length) with
  | some p => spreadBack tiles p r
  | none => none

/-- The first room, among those allowed, that holds a team. -/
def placeBack (ok : Nat → Bool) (tiles : List Nat) : List CoreRoom → Option (Nat × List Nat × List CoreRoom)
  | [] => none
  | r :: t =>
    match if ok r.core then fitBack tiles r else none with
    | some (ps, r') => some (r.core, ps, r' :: t)
    | none => match placeBack ok tiles t with | some (c, ps, t) => some (c, ps, r :: t) | none => none

/-- The tiles that a saved context's area records. -/
def savedTiles (s : State) (x : Saved) : Nat := min (bits (physNat s x.area 4) 13 10) 8

/-- A team with its saved contexts. -/
abbrev SavedTeam := Team × List Saved

/-- Places every team of a saved gang, one with a vault region on its own core. -/
def placeGang (s : State) : List SavedTeam → List CoreRoom → Option (List (Nat × List Nat))
  | [], _ => some []
  | (t, xs) :: rest, rooms =>
    let ok (core : Nat) : Bool := t.entry.vault == 0 || core == t.core
    match if xs.isEmpty then some (t.core, [], rooms) else placeBack ok (xs.map (savedTiles s)) rooms with
    | none => none
    | some (core, ps, rooms) =>
      match placeGang s rest rooms with | some l => some ((core, ps) :: l) | none => none

/-- The saved contexts of a gang, by team, that wait for a place. -/
def gangSaved (s : State) (g : Gang) : List SavedTeam :=
  ((upto g.teams.length).zip g.teams).map fun x =>
    (x.2, s.en.saved.filter fun y => y.by_ == 3 && y.who.gang == some g.num && y.who.team == some x.1)

/-- A gang of a VF that waits to be re-admitted. -/
def waitingGang (s : State) (vf : Nat) (g : Gang) : Bool :=
  g.vf == vf && g.saved && s.en.saved.any fun x => x.by_ == 3 && x.who.gang == some g.num

/-- The gangs of a VF that wait to be re-admitted, in the order they were saved. -/
def waitingGangs (s : State) (vf : Nat) : List Gang :=
  (distinct (s.en.saved.filterMap (·.who.gang))).filterMap fun n => s.wk.gangs.find? fun g => g.num == n && waitingGang s vf g

/-- A saved gang is discarded: its contexts end and its JOIN fails with a cause, 0x6A by R356. -/
def discardGang (s : State) (g : Gang) (cause : Nat) : State :=
  let ended := g.ended ++ (s.en.saved.filter fun x => x.who.gang == some g.num).flatMap (·.ids)
  let s := { s with
    en := { s.en with saved := s.en.saved.filter fun x => x.who.gang != some g.num }
    wk := { s.wk with gangs := s.wk.gangs.filter fun x => x.num != g.num } }
  joinFor s ⟨g.vf, g.pusher, .usr, g.cluster / 32⟩ g.issuer g.prio g.join true cause ended

/-- Restores the contexts of a team at its new place. -/
def restoreTeam (s : State) (xs : List Saved) (core : Nat) (ps : List Nat) : State :=
  (xs.zip ps).foldl (fun s x => restoreSaved s x.1 (locOf core x.2 (freeNum s core x.2))) s

/-- Restores a gang at its new places. -/
def restoreGang (s : State) (g : Gang) (ts : List SavedTeam) (places : List (Nat × List Nat)) : State :=
  let s := gangVaults s g (ts.flatMap fun x => x.2.map (·.who)) true
  let teams := (g.teams.zip places).map fun x => { x.1 with core := x.2.1 }
  let s := { s with wk := { s.wk with gangs := mapWhere (fun y => y.num == g.num) (fun y => { y with saved := false, teams := teams }) s.wk.gangs } }
  (ts.zip places).foldl (fun s x => restoreTeam s x.1.2 x.2.1 x.2.2) s

/-- Re-admission of a saved gang: it is restored, or discarded where its teams with vault regions do not fit together on their cores, or it
waits (R356); into a header whose LOG2 is reserved it is discarded (R44). -/
def readmitGang (s : State) (g : Gang) : Option State :=
  let h := headerAt s g.vf g.cluster g.prio
  let ts := gangSaved s g
  let entries := (ts.filter fun x => !x.2.isEmpty).map fun x => { x.1.entry with groups := min x.2.length 16 }
  let shape := shapeOf g.vf s.qt.rows
  let lost := ts.any fun x => x.1.entry.vault != 0 && !x.2.isEmpty && !shape.contains (unitOf x.1.core)
  if qReserved s h then some (discardGang (qCount s h 20) g 0x63)
  else if inadmissible s g.vf g.cluster g.span entries || lost then some (discardGang s g 0x6A)
  else
    let rooms := ((searchCores g.span g.cluster).filter (usableCore s g.vf)).map (openRoom s)
    let bound := ts.filter fun x => x.1.entry.vault != 0 && !x.2.isEmpty && usableCore s g.vf x.1.core
    if (placeGang s bound rooms).isNone then some (discardGang s g 0x6A)
    else (placeGang s ts rooms).map (restoreGang s g ts)

/-- The first saved context of a VF, of no gang, that waits for a place: on the scalar die or on a compute die. -/
def waitingOne (s : State) (vf : Nat) (scalar : Bool) : Option Saved :=
  s.en.saved.find? fun x => x.by_ == 3 && x.who.vf == vf && x.who.gang.isNone && (x.who.loc.die == 2) == scalar

/-- Re-admits one saved context: a scalar context on the lowest-numbered free one, a group on the core with the most free
contexts, its own cluster's first. -/
def readmitOne (s : State) (x : Saved) : Option State :=
  let cores := if x.who.loc.die = 2 then (upto 48).map (512 + ·) else searchCores true (32 * x.who.loc.die + x.who.loc.cluster)
  let ok := cores.filter fun c => usableCore s x.who.vf c && (loadPart s c (savedTiles s x)).isSome
  let core := if x.who.loc.die = 2 then ok.head? else mostOf (openCore s) ok
  core.bind fun core => (loadPart s core (savedTiles s x)).map fun p => restoreSaved s x (locOf core p (freeNum s core p))

/-- Saved contexts of a VF, of no gang, still wait for a place. -/
def waitingAny (s : State) (vf : Nat) : Bool := (waitingOne s vf true).isSome || (waitingOne s vf false).isSome

/-- Re-admits what it can of a VF's saved work: gangs first, none before one that was saved earlier, then single contexts. -/
def readmitAll (s : State) (vf : Nat) : State :=
  let s := (waitingGangs s vf).foldl (fun s g =>
    if (waitingGangs s vf).head?.map (·.num) = some g.num then (readmitGang s g).getD s else s) s
  if s.wk.gangs.any (waitingGang s vf) then s
  else
    (s.en.saved.filter fun x => x.by_ == 3 && x.who.vf == vf && x.who.gang.isNone).foldl (fun s x => (readmitOne s x).getD s) s

/-- GANG_ADMISSION (R50, R356): a saved gang of the VF comes before every queued request, and so does its other saved work. -/
def execGangAdmission (vf cluster : Nat) (s : State) : Host.Outcome State Fault Refusal :=
  match (waitingGangs s vf).head? with
  | some g => dueOr s (readmitGang s g)
  | none => if waitingAny s vf then .next s else admissionStep vf cluster s

/-- RECORD_DISPATCH (R46, R356): the VF's saved work comes before every queued record, on either side. -/
def execRecordDispatch (vf cluster : Nat) (s : State) : Host.Outcome State Fault Refusal :=
  if s.wk.gangs.any (waitingGang s vf) then .next s
  else
    match waitingOne s vf (cluster == 64) with
    | some x => dueOr s (readmitOne s x)
    | none => if waitingAny s vf then .next s else dispatchStep vf cluster s

/-- The VFs whose shape a table changes. -/
def reshaped (s : State) (rows : List QRow) : List Nat := (upto 16).filter fun vf => shapeOf vf s.qt.rows != shapeOf vf rows

/-- Takes a table that passed its checks (R354 to R356). -/
def takeTable (s : State) (rows : List QRow) : State :=
  let vfs := reshaped s rows
  let old := s.qt.rows[curRow s]?
  let moved (w : Who) : Bool := vfs.contains w.vf
  let s := saveAll s (fun c => moved c.who) 3
  let s := { s with en := { s.en with saved := mapWhere (fun x => x.by_ == 1 && moved x.who) (fun x => { x with by_ := 3 }) s.en.saved } }
  let since := if qGo s && !s.qt.rows.isEmpty then rowEnd s else now s
  let s := setQctl { s with qt := ⟨rows, since⟩ } (qRows s) (qGo s) false false (curRow s)
  vfs.foldl readmitAll (switchRows s old rows[0]? 0)

/-- QUANTUM_TABLE_TAKE (R354): at a round boundary, or at once while GO = 0, the table at QTB is taken or refused. -/
def execQuantumTableTake (s : State) : Host.Outcome State Fault Refusal :=
  let due := !qGo s || s.qt.rows.isEmpty || (lastRow s && decide (rowEnd s ≤ now s))
  if !qLoad s || !due then .next s
  else
    let rows := (upto (qRows s + 1)).map (tableRow s)
    if tableBad s rows then .next (setQctl s (qRows s) (qGo s) false true (curRow s)) else .next (takeTable s rows)

/-! ## The address map (R357) -/

/-- The members that a tier has. -/
def tierMembers (tier : Nat) : Nat := if tier = 2 then 16 else 8

/-- A range is malformed (R357); of a peer range SET, GCODE and HMASK are ignored. -/
def rangeMalformed (c h : Nat) : Bool :=
  let tier := bits c 1 0
  let set := bits c 23 8
  let n := ones set 16
  let g := 8 + bits c 5 2
  tier == 0 || (bits c 31 25 == 0x7F) && (decide (8 < bits c 5 2) || !([1, 2, 4, 8, 16].contains n) || decide (2 ^ tierMembers tier ≤ set) ||
    (tier == 1 && set % 16 != 0 && set / 16 != 0) || bits h 55 0 % 2 ^ (g + Nat.log2 n) != 0)

/-- A write of AMB (R357): writing EN as 1 decides ERR. -/
def writeAmb (s : State) (i : Nat) (x : DWord) : State :=
  let mask : DWord := 0x80FFFFFFFFE00000
  let s := setDevReg s (0x140 + 4 * i) (x &&& mask)
  if bit x.toNat 63 then
    let c := devReg s (0x142 + 4 * i)
    let c := c &&& ~~~(0x1000000 : DWord)
    setDevReg s (0x142 + 4 * i) (if rangeMalformed c.toNat (devNat s (0x143 + 4 * i)) then c ||| 0x1000000 else c)
  else s

/-- ADDRESS_RANGE_ENABLE (R357). -/
def execAddressRangeEnable (i : Nat) (x : DWord) (s : State) : Host.Outcome State Fault Refusal := .next (writeAmb s (i % 16) x)

/-! ## The pool (R361) -/

/-- POOLST.BUSY. -/
def poolBusy (s : State) : Bool := (devReg s 0x195).getLsbD 0

/-- Writes POOLST. -/
def setPoolst (s : State) (busy err owned : Bool) : State :=
  let b (x : Bool) (n : Nat) : Nat := if x then n else 0
  setDevReg s 0x195 (BitVec.ofNat 64 (b busy 1 + b err 2 + b owned 4))

/-- The address of the bitmap byte of a page. -/
def ownedAt (s : State) (w page : Nat) : Nat := devNat s (0x187 + 4 * w) + page / 8

/-- Sets or clears the owned bit of a page. -/
def setOwned (s : State) (w page : Nat) (on : Bool) : State :=
  let x := physNat s (ownedAt s w page) 1
  let k := 2 ^ (page % 8)
  physPut s (ownedAt s w page) 1 (if on then x ||| k else if bit x (page % 8) then x - k else x)

/-- The pages of a pool window. -/
def windowPages (s : State) (w : Nat) : Nat := bits (devNat s (0x185 + 4 * w)) 55 21 * 512

/-- A command to the pool (R361): 1 release, 2 take, 3 query; ignored while one is in progress. -/
def poolCommand (s : State) (op w page : Nat) (reserved : Bool) : State :=
  let was := bit (devNat s 0x195) 2
  if poolBusy s || op = 0 then s
  else if reserved || windowPages s w ≤ page then setPoolst s false true was
  else if op = 1 then
    let s := setPoolst (setOwned s w page false) true false was
    { s with mg := { s.mg with poolPage := some (w, page) } }
  else if op = 2 then setPoolst (setOwned s w page true) false false was
  else setPoolst s false false (ownedBit s w page)

/-- A write of POOLCMD. -/
def writePoolcmd (s : State) (x : DWord) : State :=
  let n := x.toNat
  poolCommand s (n % 4) (bits n 3 2) (bits n 55 12) (bits n 11 4 != 0 || bits n 63 56 != 0)

/-- POOL_RELEASE (R361). -/
def execPoolRelease (win page : Nat) (s : State) : Host.Outcome State Fault Refusal := .next (poolCommand s 1 (win % 4) page false)
/-- POOL_TAKE (R361). -/
def execPoolTake (win page : Nat) (s : State) : Host.Outcome State Fault Refusal := .next (poolCommand s 2 (win % 4) page false)
/-- POOL_QUERY (R361). -/
def execPoolQuery (win page : Nat) (s : State) : Host.Outcome State Fault Refusal := .next (poolCommand s 3 (win % 4) page false)

/-- Every write to keys that meet a test has arrived at its home. -/
def arriveAt (s : State) (p : Nat → Bool) : State := arriveWhere s fun w => p w.key

/-- The keys of a range of physical addresses, in 256-byte pieces. -/
def inPieces (s : State) (pa pieces k : Nat) : Bool :=
  (upto pieces).any fun i => let b := physKey s (pa + 256 * i); decide (b ≤ k) && decide (k < b + 256)

/-- POOL_RELEASE_DONE (R361): accesses admitted before the clear have arrived, and BUSY falls. -/
def execPoolReleaseDone (s : State) : Host.Outcome State Fault Refusal :=
  match s.mg.poolPage with
  | none => .next s
  | some (w, page) =>
    let pa := (bits (devNat s (0x184 + 4 * w)) 55 21 <<< 21) + 4096 * page
    let s := arriveAt s (inPieces s pa 16)
    .next (setPoolst { s with mg := { s.mg with poolPage := none } } false (bit (devNat s 0x195) 1) (bit (devNat s 0x195) 2))

/-! ## Extents (R108, R362) -/

/-- DCXB, DCXL, DCXS of extent i by j = 0, 1, 2. -/
def extReg (s : State) (i j : Nat) : Nat := (storeGet 0 s.hub.extents (3 * i + j)).toNat

/-- Writes one of them. -/
def setExt (s : State) (i j x : Nat) : State :=
  { s with hub := { s.hub with extents := storeSet 0 s.hub.extents (3 * i + j) (BitVec.ofNat 64 x) } }

/-- STATE of an extent. -/
def extState (s : State) (i : Nat) : Nat := bits (extReg s i 2) 2 0

/-- Sets STATE, keeping DROP. -/
def setExtState (s : State) (i st : Nat) : State := setExt s i 2 (extReg s i 2 / 8 * 8 + st)

/-- A driver's write of STATE (R362): 0 to 1, 1 to 2 and 3 to 0; other writes are ignored. -/
def writeExtState (s : State) (i st : Nat) : State :=
  match extState s i, st with
  | 0, 1 => setExtState s i 1
  | 1, 2 => setExtState s i 2
  | 3, 0 => setExtState s i 0
  | _, _ => s

/-- EXTENT_ACTIVATE (R362). -/
def execExtentActivate (i : Nat) (s : State) : Host.Outcome State Fault Refusal := .next (writeExtState s (i % 64) 1)
/-- EXTENT_ORDERLY_RELEASE (R362). -/
def execExtentOrderlyRelease (i : Nat) (s : State) : Host.Outcome State Fault Refusal := .next (writeExtState s (i % 64) 2)
/-- EXTENT_FREE (R362). -/
def execExtentFree (i : Nat) (s : State) : Host.Outcome State Fault Refusal :=
  if extState s (i % 64) = 3 then .next (writeExtState s (i % 64) 0) else .next s

/-- The 256-byte pieces of an extent. -/
def extPieces (s : State) (i : Nat) : Nat × Nat := (bits (extReg s i 0) 55 21 <<< 21, bits (extReg s i 1) 55 21 * 8192)

/-- EXTENT_RELEASE_ACK (R362): dirty sectors are written back, and the extent is free. -/
def execExtentReleaseAck (i : Nat) (s : State) : Host.Outcome State Fault Refusal :=
  if extState s (i % 64) ≠ 2 then .next s
  else
    let (pa, n) := extPieces s (i % 64)
    .next (setExtState (countArrived (arriveAt s (inPieces s pa n))) (i % 64) 0)

/-- Sectors with plain writes that may still be dirty, at keys that meet a test. -/
def dirtySectors (s : State) (p : Nat → Bool) : List Nat :=
  distinct ((s.ms.hist.filter fun w => w.arrived.isNone && w.strong.isNone && p w.key).map (·.key / 64))

/-- Drops what plain writes left dirty in some sectors (R108, R363): the bytes of writes on their way are again what arrived last, and those
of a sector that had reached the hub and was dirty in the Tundish are undefined. The writes of other sectors have arrived. -/
def dropSectors (s : State) (p : Nat → Bool) (gone : List Nat) : State :=
  let lost (w : WriteRec) : Bool := w.arrived.isNone && w.strong.isNone && gone.contains (w.key / 64)
  let keys := distinct ((s.ms.hist.filter lost).map (·.key))
  let held := gone.filter fun c => !keys.any (· / 64 == c)
  let s := { s with ms := { s.ms with
    hist := s.ms.hist.filter fun w => !lost w
    dirty := s.ms.dirty.filter fun d => !gone.contains (d.sector / 64) } }
  let s := countArrived (arriveAt s p)
  let spoilt := (held.flatMap fun c => (upto 64).map (64 * c + ·)).filter fun k =>
    !s.ms.undef.contains k && !((recsOf s k).getLast?.any fun w => w.strong.isSome)
  keys.foldl (fun s k =>
    match (recsOf s k).getLast? with
    | some w => { s with ms := { s.ms with mem := storeSet emptyByte s.ms.mem k w.val } }
    | none => s) { s with ms := { s.ms with undef := s.ms.undef ++ spoilt } }

/-- The side-log entries whose page lies where `inside` says become unresolvable: they leave the log, and 0x26 follows (R81, R108). -/
def poisonEntries (s : State) (inside : Nat → Bool) : State :=
  (s.ms.log.filter fun e => match leafOfVa s e.acc e.va with | some l => inside (l.pa / 4096) | none => false).foldl (fun s e =>
    updCtx { s with ms := { s.ms with log := s.ms.log.erase e } } e.vf e.ident fun c => { c with unres := true }) s

/-- FORCED_WITHDRAWAL (R108, R362): the sectors `dropped` of the extent, those still dirty, are dropped and counted, the extent is poisoned,
and moves out of it are abandoned (R103). -/
def execForcedWithdrawal (i : Nat) (dropped : List Nat) (s : State) : Host.Outcome State Fault Refusal :=
  let i := i % 64
  if extState s i ≠ 1 && extState s i ≠ 2 then .next s
  else
    let (pa, n) := extPieces s i
    let p := inPieces s pa n
    let gone := (distinct dropped).filter fun c => p (64 * c)
    let s := dropSectors s p gone
    let inside (pfn : Nat) : Bool := decide (pa ≤ 4096 * pfn) && decide (4096 * pfn < pa + 256 * n)
    let hit (m : Move) : Bool := inside m.oldPfn
    let s := poisonEntries s inside
    let s := { s with ld := { s.ld with moves := mapWhere hit (fun m => { m with abandoned := true }) s.ld.moves } }
    let drop := min (bits (extReg s i 2) 63 32 + gone.length) 0xFFFFFFFF
    .next (setExt s i 2 (3 + 2 ^ 32 * drop))

/-! ## Peers (R363) -/

/-- PEERST of a peer. -/
def peerReg (s : State) (q : Nat) : Nat := (storeGet 0 s.hub.peers q).toNat

/-- Writes PEERST. -/
def setPeer (s : State) (q x : Nat) : State :=
  { s with hub := { s.hub with peers := storeSet 0 s.hub.peers q (BitVec.ofNat 64 x) } }

/-- A cached translation reaches memory homed by a peer. -/
def tlbOfPeer (s : State) (q : Nat) (e : TlbEntry) : Bool :=
  match placeOf s (ptePa e.pte.toNat + e.vpn * 4096 % 2 ^ leafBits e.level) with
  | some p => p.peer == some q
  | none => false

/-- A collective runs with a peer among its members. -/
def cmdOfPeer (s : State) (q : Nat) (c : Cmd) : Bool :=
  isColl c && (upto (cgrpCount s c.vf c.desc)).any fun r => cgrpPeer s c.vf c.desc r == q

/-- The VFs whose sectors are lost count them in RWLOSS (R245, R359). -/
def countLoss (s : State) (gone : List Nat) (hist : List WriteRec) : State :=
  gone.foldl (fun s sec =>
    match hist.find? fun w => w.key / 64 == sec && w.arrived.isNone with
    | some w => (match w.agent with | some a => ladleCount s a.vf 220 | none => s)
    | none => s) s

/-- Loads of groups and slices in flight to a peer complete with 0x30 (R151, R290): which are still in flight is open. -/
def cutLoads (s : State) (p : Nat → Bool) : State :=
  let hit (l k : Nat) : Bool := p k && Config.inFlight s.free k l
  let cut (c : Ctx) : Ctx := cutSlice hit (cutGroup hit c)
  { s with g := cut s.g, others := s.others.map cut }

/-- A strong store on its way to keys that meet a test, which no other agent has read, and of a live group. -/
def recalled (s : State) (p : Nat → Bool) (w : WriteRec) : Bool :=
  w.arrived.isNone && w.strong.isSome && p w.key && w.sent.isSome &&
    match w.agent with
    | some a => (allCtx s).any (·.who.uid == a.uid) && (allCtx s).all fun c => c.who.uid == a.uid || !c.ord.know.any (·.1 == w.ev)
    | none => false

/-- What the lanes of a store complete with 0x30 as: a window of the group that closes before its next issue (R151). -/
def sentWindow (l : List (Nat × Sent)) (grp : Nat) : Option Window :=
  match l.filter (·.2.grp == grp) with
  | [] => none
  | x :: t =>
    let low := t.foldl (fun y z => if z.2.lane < y.2.lane then z else y) x
    some ⟨0, x.2.pc, [], [], maskOf fun i => (x :: t).any (·.2.lane == i), BitVec.ofNat 64 low.2.va, [], x.2.slot, x.2.path, x.1⟩

/-- The strong stores of a group on their way to keys that meet a test complete with 0x30 (R363). -/
def failStores (s : State) (p : Nat → Bool) : State :=
  let lost := s.ms.hist.filter (recalled s p)
  let of_ (uid : Nat) : List (Nat × Sent) :=
    lost.filterMap fun w => match w.agent, w.sent with | some a, some x => if a.uid == uid then some (w.ev, x) else none | _, _ => none
  let fail (c : Ctx) : Ctx :=
    let l := of_ c.who.uid
    { c with wins := c.wins ++ (distinct (l.map (·.2.grp))).filterMap (sentWindow l) }
  let keys := distinct (lost.map (·.key))
  let s := { s with g := fail s.g, others := s.others.map fail
                    ms := { s.ms with hist := s.ms.hist.filter fun w => !recalled s p w } }
  keys.foldl (fun s k =>
    match (inHomeOrder (recsOf s k)).getLast? with
    | some w => { s with ms := { s.ms with mem := storeSet emptyByte s.ms.mem k w.val } }
    | none => s) s

/-- PEER_DOWN (R363): UP falls, tagged translations go, strong stores on their way to it complete with 0x30, those of `dropped` that are dirty sectors of the peer are
lost, the collectives of which it is a member stop with 0x30 (R299), loads in flight to it complete with 0x30 (R151), and invalidations under way end without its reply (R320). -/
def execPeerDown (q : Nat) (dropped : List Nat) (s : State) : Host.Outcome State Fault Refusal :=
  let q := q % 72
  let st := peerReg s q
  let s := setPeer s q (if bit st 48 then st - 2 ^ 48 else st)
  let s := { s with ms := { s.ms with tlb := s.ms.tlb.filter fun e => !tlbOfPeer s q e } }
  let p (k : Nat) : Bool := k / 2 ^ 58 == 64 + q
  let s := failStores s p
  let gone := (dirtySectors s p).filter dropped.contains
  let s := dropSectors (countLoss s gone s.ms.hist) p gone
  let s := (s.en.cmds.filter (cmdOfPeer s q)).foldl (fun s c => if c.fault.isSome then s else faultCmd s c (c.todo.headD 0) 0x30 0) s
  let s := cutLoads s p
  .next { s with en := { s.en with cut := s.en.cut ++ (s.en.invals.map (·.uid)).filter fun x => !s.en.cut.contains x } }

/-- PEER_UP (R363): the link trains again, and the peer announces its identity and incarnation. No translation from before names it. -/
def execPeerUp (q pkg inc : Nat) (s : State) : Host.Outcome State Fault Refusal :=
  let s := { s with ms := { s.ms with tlb := s.ms.tlb.filter fun e => !tlbOfPeer s (q % 72) e } }
  .next (setPeer s (q % 72) (pkg % 2 ^ 16 + 2 ^ 16 * (inc % 2 ^ 32) + 2 ^ 48))

end Sys2Proof.Machine
end

