-- ==== Sys2Proof/Machine/Health.lean ====
section
/-! DEFINITION. Health (20; R373 to R382): audits, array errors, link errors, heartbeats, the halting and capture of units and
the commands for them. -/

namespace Sys2Proof.Machine

/-! ## Fleet counters (R394) -/

/-- A register of the fleet window by its offset. -/
def fleetReg (s : State) (off : Nat) : Nat := (storeGet 0 s.fl.win off).toNat

/-- Writes a register of the fleet window. -/
def setFleet (s : State) (off x : Nat) : State :=
  { s with fl := { s.fl with win := storeSet 0 s.fl.win off (BitVec.ofNat 64 x) } }

/-- The offset of a fleet counter. -/
def counterAt (i : Nat) : Nat := 0x400 + 8 * i

/-- Adds to a fleet counter, which saturates. -/
def countFleet (s : State) (i n : Nat) : State := setFleet s (counterAt i) (min (fleetReg s (counterAt i) + n) (2 ^ 64 - 1))

/-! ## Audits (R60, R377) -/

/-- The timer of the Assay. -/
def assayTimer : Nat := 1

/-- ASSAY_AUDIT (R377): once per period every object operated on since its last audit is audited; each link loop (its port, credits held,
flits in flight, credits returned) whose sum differs from its trained total raises 0xE4 and is retrained. -/
def execAssayAudit (links : List (Nat × Nat × Nat × Nat)) (s : State) : Host.Outcome State Fault Refusal :=
  dueOr s ((periodDue s assayTimer (bits (devNat s 0x1C4) 7 0 * 120000)).map fun s =>
    let s := s.wk.audits.foldl auditOne s
    let s := { s with wk := { s.wk with audits := [] } }
    let off := links.filter fun l => l.2.1 + l.2.2.1 + l.2.2.2 != Config.linkCredits l.1
    off.foldl (fun s l => logError s 0xE4 1 0xFFFF l.1 0 1) s)

/-! ## Halted units (R379 to R381) -/

/-- The capture area. -/
def captureAt (s : State) : Nat := bits (devNat s 0x1C8) 55 12 * 4096

/-- Contexts in ascending order of identifier. -/
def byIdent : List Who → List Who
  | [] => []
  | w :: t => let r := byIdent t; (r.takeWhile fun x => x.ident < w.ident) ++ w :: r.dropWhile fun x => x.ident < w.ident

/-- The unit of a context stops, with the other groups of its gangs: the state of each is captured (R380). -/
def captureUnit (s : State) (unit cause : Nat) : State :=
  let s := sweep s
  let own := byIdent (((allCtx s).filter fun c => haltUnit c.who.loc == unit).map (·.who))
  let gangs := own.filterMap (·.gang)
  let more := byIdent (((allCtx s).filter fun c => haltUnit c.who.loc != unit && gangs.any fun g => c.who.gang == some g).map (·.who))
  let at_ := captureAt s
  let s := physPut s at_ 64 (unit + 2 ^ 64 * cause + 2 ^ 128 * s.tnow.toNat)
  let ws := own ++ more
  let s := ((upto ws.length).zip ws).foldl (fun s x =>
    saveCtx s x.2.vf x.2.ident 2 unit (at_ + 64 + areaSize * x.1)) s
  let mine (g : Gang) : Bool := gangs.contains g.num
  { s with
    mg := { s.mg with halted := s.mg.halted.filter (· != unit) ++ [unit] }
    wk := { s.wk with gangs := mapWhere mine (fun g => { g with saved := true }) s.wk.gangs } }

/-- HBST.HALTS counts a halt. -/
def countHalt (s : State) (unit : Nat) (beat : Bool) : State :=
  let x := devNat s 0x1C3
  let u := if beat then unit % 256 else bits x 7 0
  setDevReg s 0x1C3 (BitVec.ofNat 64 (u + 256 * min (bits x 23 8 + 1) 0xFFFF))

/-- A unit halts by a lost heartbeat (R379). -/
def haltByBeat (s : State) (unit : Nat) : State :=
  let s := logError s 0xE3 2 0xFFFF unit 0 1
  captureUnit (countFleet (countHalt s unit true) 7 1) unit 0xE3

/-- The nanoseconds of a TNOW value (R317). -/
def nanos (x : DWord) : Nat := bits x.toNat 63 30 * 1000000000 + bits x.toNat 29 0

/-- The TNOW value of a count of nanoseconds. -/
def ofNanos (n : Nat) : DWord := BitVec.ofNat 64 (n / 1000000000 * 2 ^ 30 + n % 1000000000)

/-- The timer that holds the last heartbeat tick, in milliseconds of TNOW. -/
def beatTimer : Nat := 2

/-- The units of a stopped core. -/
def coreUnits (core : Nat) : List Nat :=
  if 512 ≤ core then [64 + 2 * (core - 512), 65 + 2 * (core - 512)] else [32 * (core / 256) + core % 256 / 8]

/-- A core that ghalt stopped belongs to a unit. -/
def coreOfUnit (unit core : Nat) : Bool := (coreUnits core).contains unit

/-- A unit is halted, or has a core that ghalt stopped: no beat of it is missed (R323, R379). -/
def unitStopped (s : State) (unit : Nat) : Bool := s.mg.halted.contains unit || s.mg.cores.any (coreOfUnit unit)

/-- One entry of the heartbeat table is sampled. -/
def sampleBeat (s : State) (unit : Nat) : State :=
  let x := physNat s (bits (devNat s 0x1C2) 55 12 * 4096 + 8 * unit) 8
  let beat := if bit x 32 then bits x 31 0 + 1 else 0
  let missed := bit x 32 && !unitStopped s unit && storeGet 0 s.mg.beats unit == beat
  let misses := if missed then storeGet 0 s.mg.misses unit + 1 else 0
  let s := { s with mg := { s.mg with
    beats := storeSet 0 s.mg.beats unit beat, misses := storeSet 0 s.mg.misses unit (if misses = 2 then 0 else misses) } }
  if misses = 2 then haltByBeat s unit else s

/-- HEARTBEAT_SAMPLE (R379): at a tick of 1 ms of TNOW every expected entry is sampled; two misses in a row halt the unit. -/
def execHeartbeatSample (s : State) : Host.Outcome State Fault Refusal :=
  let tick := nanos s.tnow / 1000000
  if tick ≤ storeGet 0 s.mg.last beatTimer then .next s
  else .next ((upto 160).foldl sampleBeat { s with mg := { s.mg with last := storeSet 0 s.mg.last beatTimer tick } })

/-- Restores a captured context, to its place or to another of its core. -/
def restoreNear (s : State) (x : Saved) : Option State :=
  if placeFree s x then some (restoreSaved s x x.who.loc)
  else
    let core := coreNum x.who.loc
    (bestPart s core).map fun p => restoreSaved s x (locOf core p (freeNum s core p))

/-- The engine commands of the contexts of a core that ghalt stopped go on (R323). -/
def resumeCore (unit : Nat) (s : State) : State :=
  ((allCtx s).filter fun c => coreOfUnit unit (coreNum c.who.loc) && s.mg.cores.contains (coreNum c.who.loc)).foldl
    (fun s c => resumeCmds s (savedOf s c 0 0 0)) s

/-- Resumes a halted unit (R323, R381): captured contexts are restored, and issue goes on. Where some find no free context, they all wait to be
admitted again as after pre-emption (R88, R356). -/
def resumeUnit (s : State) (unit : Nat) : State :=
  if !unitStopped s unit then s
  else
    let own (x : Saved) : Bool := x.by_ == 2 && x.unit == unit
    let xs := s.en.saved.filter own
    let s := resumeCore unit s
    let s := { s with mg := { s.mg with
      halted := s.mg.halted.filter (· != unit), cores := s.mg.cores.filter fun c => !coreOfUnit unit c } }
    let mine (g : Gang) : Bool := xs.any fun x => x.who.gang == some g.num
    let t := { s with wk := { s.wk with gangs := mapWhere mine (fun g => { g with saved := false }) s.wk.gangs } }
    match xs.foldl (fun (s : Option State) x => s.bind fun s => restoreNear s x) (some t) with
    | some u => u
    | none => { s with en := { s.en with saved := mapWhere own (fun x => { x with by_ := 3 }) s.en.saved } }

/-- Discards what was captured of a halted unit (R381): the contexts end, and their gangs' and records' joins fail. The unit stays
halted. -/
def discardUnit (s : State) (unit : Nat) : State :=
  if !s.mg.halted.contains unit then s
  else
    let xs := s.en.saved.filter fun x => x.by_ == 2 && x.unit == unit
    let s := { s with en := { s.en with saved := s.en.saved.filter fun x => !(x.by_ == 2 && x.unit == unit) } }
    xs.foldl (fun s x =>
      match x.who.gang with
      | some g => endGang (noteEnd (failGang s g 0xE3) g x.ids) g
      | none =>
        let prio := bits (physNat s x.area 4) 24 23
        joinFor s ⟨x.who.vf, x.who.ident, x.mode, x.who.loc.die⟩ (issuingCluster x.who.loc) prio x.who.join true 0xE3 x.ids) s

/-- A write of MCMD (R381). -/
def writeMcmd (s : State) (x : DWord) : State :=
  let unit := bits x.toNat 7 0
  match bits x.toNat 9 8 with
  | 1 => resumeUnit s unit
  | 2 => discardUnit s unit
  | _ => s

/-- MCMD_RESUME (R381). -/
def execMcmdResume (unit : Nat) (s : State) : Host.Outcome State Fault Refusal := .next (resumeUnit s unit)
/-- MCMD_DISCARD (R381). -/
def execMcmdDiscard (unit : Nat) (s : State) : Host.Outcome State Fault Refusal := .next (discardUnit s unit)

/-! ## Array errors (R373, R374)

Array classes: 0 register files, 1 accumulator stores, 2 instruction caches, 3 L1, 4 L2, 5 vault, 6 side logs, 7 TLBs,
8 directories and filters, 9 the Tundish, 10 the hub's tables. -/

/-- The class of an array entry. A duplicate of a page lies in memory and is read like an entry of the L2. -/
def arrayClass : ArrayEntryAt → Nat
  | .register _ _ => 0
  | .tile _ _ => 1
  | .code _ => 2
  | .line 1 _ => 3
  | .line 2 _ => 4
  | .line _ _ => 9
  | .vault _ => 5
  | .logged _ => 6
  | .translation _ => 7
  | .copy _ => 4
  | .directory _ => 8
  | .device _ _ => 10

/-- The address of an array entry, as the error log gives it. -/
def arrayAddr : ArrayEntryAt → Nat
  | .code c | .line _ c => 64 * c
  | .vault k | .copy k => k
  | .logged n | .translation n => n
  | .directory a | .device _ a => a
  | .register _ _ | .tile _ _ => 0

/-- The fleet counter of correctable errors of a class (R394). -/
def classCounter (cls : Nat) : Option Nat :=
  if [0, 1, 3, 6].contains cls then some 0 else if [4, 5, 8, 9].contains cls then some 1 else none

/-- Counts an error of a class and logs it as a counted event (R374, R382). -/
def countClass (s : State) (cls at_ : Nat) : State :=
  let n := min (storeGet 0 s.mg.counts cls + 1) (2 ^ 64 - 1)
  let s := { s with mg := { s.mg with counts := storeSet 0 s.mg.counts cls n } }
  logError s 0 0 0xFFFF cls at_ n

/-- What an array entry is (R374): a clean copy; an entry of a context, by VF and identifier, or of none that lives; device state that can be
rebuilt, or that cannot, in a unit. -/
inductive Held
  | clean
  | owned (who : Option (Nat × Nat))
  | rebuildable
  | fatal (unit : Nat)
deriving DecidableEq, Repr

/-- The live context of a group. -/
def ctxOfUid (s : State) (uid : Nat) : Option (Nat × Nat) :=
  ((allCtx s).find? fun c => c.who.uid == uid && uid != 0).map fun c => (c.who.vf, c.who.ident)

/-- The owner tag of the line that holds some bytes: the context that wrote there last (R349). -/
def ownerOf (s : State) (p : WriteRec → Bool) : Option (Nat × Nat) :=
  match (s.ms.hist.filter p).getLast? with
  | some w => (match w.agent with | some a => ctxOfUid s a.uid | none => none)
  | none => none

/-- A plain write that a line holds dirty. -/
def dirtyIn (sector : Nat) (w : WriteRec) : Bool := w.arrived.isNone && w.strong.isNone && w.key / 64 == sector

/-- What an array entry is, as the state says. -/
def heldAt (s : State) : ArrayEntryAt → Held
  | .register vf ident | .tile vf ident => .owned (some (vf, ident))
  | .code _ | .translation _ | .copy _ => .clean
  | .line _ c => if s.ms.hist.any (dirtyIn c) then .owned (ownerOf s (dirtyIn c)) else .clean
  | .vault k => .owned (ownerOf s fun w => w.key / 64 == k / 64)
  | .logged n => .owned (s.ms.log[n]?.map fun e => (e.vf, e.ident))
  | .directory _ => .rebuildable
  | .device unit _ => .fatal unit

/-- A clean copy found uncorrectable is discarded: a cached translation is walked again, a line is fetched again from its home. -/
def discardCopy (s : State) : ArrayEntryAt → State
  | .translation n => { s with ms := { s.ms with tlb := s.ms.tlb.eraseIdx n } }
  | _ => s

/-- An entry of a context found uncorrectable is zeroed: the bytes of a dirty line, a byte of a vault, a side-log entry. Registers and tiles
end with their context. -/
def zeroEntry (s : State) : ArrayEntryAt → State
  | .vault k => devPutKeys s [k] [0]
  | .line _ c =>
    let keys := distinct ((s.ms.hist.filter (dirtyIn c)).map (·.key))
    let s := { s with ms := { s.ms with
      hist := s.ms.hist.filter fun w => !dirtyIn c w, dirty := s.ms.dirty.filter fun d => d.sector / 64 != c } }
    devPutKeys s keys (keys.map fun _ => 0)
  | .logged n => { s with ms := { s.ms with log := s.ms.log.eraseIdx n } }
  | _ => s

/-- The region that a rebuildable entry covers is recalled, so that what was dirty there has arrived; loads in flight to it complete
with 0x30 (R151, R374). -/
def recallRegion (s : State) (p : Nat → Bool) : State := cutLoads (arriveAt s p) p

/-- An uncorrectable entry (R374). In a handler 0xE1 is a cause like any other, so that 0xE2 ends the context (R155). -/
def treatEntry (s : State) (e : ArrayEntryAt) : State :=
  let cls := arrayClass e
  let at_ := arrayAddr e
  match heldAt s e with
  | .clean => discardCopy (countClass s cls at_) e
  | .owned who =>
    let s := zeroEntry s e
    (match who.bind fun w => onCtx s w.1 w.2 fun t => endContext t (if hmode t.g then 0xE2 else 0xE1) with
     | some t => countFleet t 2 1
     | none => s)
  | .rebuildable => recallRegion (countFleet (countClass s cls at_) 3 1) (Config.covered at_)
  | .fatal unit => captureUnit (countHalt (logError s 0xE6 0 0xFFFF unit at_ 1) unit false) unit 0xE6

/-- The Fettler reads the next entry of a class, if it is time for it (R373): it reads the entries of a pass evenly over FETCTL.PASS hours
(DESIGN CHOICE, notes/assumptions/103.md). -/
def fettle (s : State) (cls : Nat) : Option State :=
  let at_ := storeGet 0 s.mg.scrub (2 * cls)
  let since := storeGet 0 s.mg.scrub (2 * cls + 1)
  let size := Config.arraySize cls + 1
  let pass := bits (devNat s 0x1C5) 7 0 * 4320000000000
  if now s < since + at_ * pass / size then none
  else
    let again := decide (size ≤ at_ + 1)
    let x := storeSet 0 s.mg.scrub (2 * cls) (if again then 0 else at_ + 1)
    some { s with mg := { s.mg with scrub := if again then storeSet 0 x (2 * cls + 1) (since + pass) else x } }

/-- SCRUB_READ (R373, R374): the Fettler in its turn, or an access, reads an array entry; `err` is what its ECC shows. -/
def execScrubRead (turn : Bool) (err : ArrayError) (e : ArrayEntryAt) (s : State) : Host.Outcome State Fault Refusal :=
  dueOr s ((if turn then fettle s (arrayClass e) else some s).map fun s =>
    match err with
    | .none => s
    | .correctable =>
      let s := countClass s (arrayClass e) (arrayAddr e)
      (match classCounter (arrayClass e) with | some i => countFleet s i 1 | none => s)
    | .uncorrectable => treatEntry s e)

/-! ## Links (R375) -/

/-- The count of an event class in the error log does not pass its width (R382). -/
def saturated (x n : Nat) : Nat := min (x + n) (2 ^ 64 - 1)

/-- LINK_PACKET_CORRUPT (R375): the packet is dropped and counted, and sent again up to three times. After that the request completes with
0x30 for some lanes (R151): an open window's load in flight, else the next request of the context that crosses a link, in the next step. -/
def execLinkPacketCorrupt (port tries vf ident win : Nat) (lanes : Mask) (s : State) : Host.Outcome State Fault Refusal :=
  let s := logError (countFleet s 4 (min tries 3)) 0 1 0xFFFF port 0 (saturated (fleetReg s (counterAt 4)) (min tries 3))
  if tries ≤ 3 then .next s
  else
    let s := countFleet s 5 1
    let hit (l _ : Nat) : Bool := l == 32 || lane lanes l
    match (ctxOf s vf ident).bind fun c => c.wins[win]?.bind (cutWindow hit) with
    | some (w, old) => .next (updCtx s vf ident fun c => withOld { c with wins := setAt c.wins win w } old)
    | none => .next { s with hub := { s.hub with lost := some ⟨vf, ident, lanes, s.free + 1⟩ } }

end Sys2Proof.Machine
end

