-- ==== Sys2Proof/Machine/Fleet.lean ====
section
/-! DEFINITION. Time and the fleet window (16, 21; R317, R372, R385 to R394): the 1588 servo, sensors, refresh derating,
throttle groups and their collective and local steps, counters. -/

namespace Sys2Proof.Machine

/-! ## The 1588 servo (R317) -/

/-- TSTAT.LOCK. -/
def locked (s : State) : Bool := (devReg s 0x062).getLsbD 0

/-- Writes TSTAT.LOCK, and since when each die has been without it (R392). -/
def setLock (s : State) (on : Bool) : State :=
  let mark (t : Throttle) : Throttle :=
    { t with unlockedAt := if on then none else match t.unlockedAt with | some x => some x | none => some (now s) }
  let s := setDevReg s 0x062 (if on then 1 else 0)
  { s with fl := { s.fl with d0 := mark s.fl.d0, d1 := mark s.fl.d1 } }

/-- SERVO_LOCK (R317): the grandmaster's time is `t`. TNOW steps forward to it, or waits for it at half the rate. -/
def execServoLock (t : DWord) (s : State) : Host.Outcome State Fault Refusal :=
  if locked s then .next s
  else if nanos s.tnow ≤ nanos t then
    .next (setLock { s with tnow := ofNanos (nanos t), mg := { s.mg with slew := none } } true)
  else .next { s with mg := { s.mg with slew := some (nanos s.tnow - nanos t) } }

/-- GRANDMASTER_LOSS (R317). -/
def execGrandmasterLoss (s : State) : Host.Outcome State Fault Refusal :=
  .next (setLock { s with mg := { s.mg with slew := none } } false)

/-- TNOW_AGREEMENT (R317). -/
def execTnowAgreement (s : State) : Host.Outcome State Fault Refusal :=
  if s.mg.slew = some 0 then .next (setLock { s with mg := { s.mg with slew := none } } true)
  else .next s

/-- TNOW after `dt` nanoseconds of the local reference: while it leads the grandmaster it advances at half that rate until
the two agree (R317). -/
def advanceTnow (s : State) (dt : Nat) : State :=
  match s.mg.slew with
  | none => { s with tnow := ofNanos (nanos s.tnow + dt) }
  | some lead =>
    if lead ≤ dt - dt / 2 then
      { s with tnow := ofNanos (nanos s.tnow + (dt - lead)), mg := { s.mg with slew := some 0 } }
    else { s with tnow := ofNanos (nanos s.tnow + dt / 2), mg := { s.mg with slew := some (lead - (dt - dt / 2)) } }

/-! ## Throttle groups: state -/

/-- The throttle state of a compute die. -/
def tg (s : State) (d : Nat) : Throttle := if d % 2 = 0 then s.fl.d0 else s.fl.d1

/-- Writes it. -/
def setTg (s : State) (d : Nat) (t : Throttle) : State :=
  { s with fl := if d % 2 = 0 then { s.fl with d0 := t } else { s.fl with d1 := t } }

/-- The offset of TGCFG. -/
def cfgAt (d : Nat) : Nat := 0x100 + 0x20 * (d % 2)
/-- The offset of TGST. -/
def stAt (d : Nat) : Nat := 0x108 + 0x20 * (d % 2)
/-- The offset of TGAT. -/
def atAt (d : Nat) : Nat := 0x110 + 0x20 * (d % 2)

/-- A field of TGCFG. -/
def cfgField (s : State) (d hi lo : Nat) : Nat := bits (fleetReg s (cfgAt d)) hi lo
/-- A field of TGST. -/
def stField (s : State) (d hi lo : Nat) : Nat := bits (fleetReg s (stAt d)) hi lo
/-- Writes a field of TGST. -/
def setSt (s : State) (d hi lo x : Nat) : State := setFleet s (stAt d) (setBits (fleetReg s (stAt d)) hi lo x)

/-- TGCFG.EN. -/
def tgOn (s : State) (d : Nat) : Bool := cfgField s d 0 0 == 1
/-- LEVEL in force. -/
def levelOf (s : State) (d : Nat) : Nat := stField s d 2 0
/-- REG. -/
def tgReg (s : State) (d : Nat) : Bool := stField s d 6 6 == 1
/-- DET. -/
def detached (s : State) (d : Nat) : Bool := stField s d 7 7 == 1

/-- LEVEL and, where no step is pending, PEND. -/
def setLevel (s : State) (d x : Nat) : State :=
  let s := setSt s d 2 0 x
  if (tg s d).pend.isNone then setSt s d 5 3 x else s

/-- PKGID. -/
def pkgId (s : State) : Nat := bits (devNat s 0x180) 15 0

/-- The key of a member: package, then die. -/
def memberKey (pkg die : Nat) : Nat := 2 * (pkg % 2 ^ 16) + die % 2

/-- The die is the coordinator of its group (R389). -/
def coordinates (s : State) (d : Nat) : Bool :=
  tgOn s d && tgReg s d && stField s d 31 16 == pkgId s && stField s d 32 32 == d % 2

/-- The coordinator of a die's group, where it is a die of this package. -/
def ownCoord (s : State) (d : Nat) : Option Nat :=
  (upto 2).find? fun c => coordinates s c && cfgField s c 15 8 == cfgField s d 15 8

/-! ## Requests and announcements (R390, R391) -/

/-- HOT of some stack of the package. -/
def anyHot (s : State) : Bool := (upto 8).any fun i => bit (fleetReg s (0x10 + 4 * i)) 10

/-- The request of a die (R390). -/
def requestOf (s : State) (d : Nat) : Nat :=
  max (cfgField s d 26 24) (max (match (tg s d).ask with | some x => x.1 | none => 0) (if anyHot s then 1 else 0))

/-- 10 µs in nanoseconds: the grid of steps. -/
def grid : Nat := 10000

/-- The timer that holds the grid point after which a die may take a local step. -/
def gridTimer (d : Nat) : Nat := 3 + d % 2

/-- From now on a local step waits for the next grid point (R392). -/
def markGrid (s : State) (d : Nat) : State :=
  { s with mg := { s.mg with last := storeSet 0 s.mg.last (gridTimer d) (nanos s.tnow / grid + 1) } }

/-- The greatest latest request of the members. -/
def wanted (t : Throttle) : Nat := t.members.foldl (fun m e => max m (e.2 - 1)) 0

/-- The announcement that a coordinator has made last is still pending: its T has not come for the group (R390). -/
def pending (t : Throttle) : Option Announce := t.sent.head?.filter fun a => decide (t.since < a.at_)

/-- The coordinator sends an announcement: the latest. -/
def sendStep (s : State) (d : Nat) (a : Announce) : State := setTg s d { tg s d with sent := a :: (tg s d).sent, acks := [] }

/-- The coordinator announces a level (R390): T is LEAD from now on, rounded up to the grid. -/
def announce (s : State) (d x : Nat) : State :=
  let at_ := (nanos s.tnow + cfgField s d 23 16 * grid + grid - 1) / grid * grid
  let seq := (match (tg s d).sent.head? with | some a => a.seq | none => stField s d 63 48) + 1
  sendStep s d ⟨x, at_, seq % 2 ^ 16⟩

/-- A raise is announced at once, unless one to as high a level is pending (R390, R391). -/
def coordinate (s : State) (d : Nat) : State :=
  let t := tg s d
  let want := wanted t
  let met := match pending t with | some a => decide (want ≤ a.level) && decide (t.level < a.level) | none => false
  if t.level < want && !met then announce s d want else s

/-- The coordinator learns the request of a member. -/
def takeRequest (s : State) (c key req : Nat) : State :=
  let t := tg s c
  coordinate (setTg s c { t with members := storeSet 0 t.members key (req + 1) }) c

/-- TG_REQUEST (R390, R391): the request of a die of this package has changed and is sent; or that of a member (package, die)
of another package reaches the coordinator `die`. -/
def execTgRequest (die pkg mdie req : Nat) (s : State) : Host.Outcome State Fault Refusal :=
  if pkg ≠ pkgId s then
    if coordinates s die && storeGet 0 (tg s die).members (memberKey pkg mdie) != 0 then
      .next (takeRequest s die (memberKey pkg mdie) (min req 4))
    else .next s
  else
    let r := requestOf s mdie
    let t := tg s mdie
    if r = t.request then .next s
    else
      let s := setTg s mdie { t with request := r, raisedAt := if levelOf s mdie < r then some (now s) else none }
      let s := markGrid s mdie
      .next (match if tgOn s mdie && tgReg s mdie then ownCoord s mdie else none with
        | some c => takeRequest s c (memberKey pkg mdie) r
        | none => s)

/-- TG_DWELL_EXPIRY (R390): with lower requests and G in force for 10 ms, the coordinator announces one level down. -/
def execTgDwellExpiry (die : Nat) (s : State) : Host.Outcome State Fault Refusal :=
  let t := tg s die
  if coordinates s die && decide (wanted t < t.level) && (pending t).isNone && decide (t.since + 10000000 ≤ nanos s.tnow) then
    .next (announce s die (t.level - 1))
  else .next s

/-- TG_ACK_TIMEOUT (R390): 10 µs before T some member has not acknowledged, and the announcement is sent again for a later T.
`acked` are the members of other packages that have. -/
def execTgAckTimeout (die : Nat) (acked : List Nat) (s : State) : Host.Outcome State Fault Refusal :=
  let t := tg s die
  match pending t with
  | none => .next s
  | some a =>
    let own (k : Nat) : Bool := k / 2 == pkgId s
    let missing := t.members.any fun e => if own e.1 then !t.acks.contains e.1 else !acked.contains e.1
    if coordinates s die && missing && decide (a.at_ ≤ nanos s.tnow + grid) then
      .next (sendStep s die ⟨a.level, a.at_ + cfgField s die 23 16 * grid, (a.seq + 1) % 2 ^ 16⟩)
    else .next s

/-- The group level is now what the coordinator announced last. What members ask meanwhile may raise it again. -/
def groupStep (s : State) (d : Nat) (a : Announce) : State :=
  if coordinates s d && (tg s d).sent.head? == some a then
    coordinate (setTg s d { tg s d with level := a.level, since := max (nanos s.tnow) a.at_ }) d
  else s

/-- A member applies a step (R387, R390); rates of work change, results do not (R388). A raise that it asked for has come with it. -/
def applyStep (s : State) (d : Nat) (a : Announce) : State :=
  let t := tg s d
  let s := setTg s d { t with pend := none, raisedAt := if t.request ≤ a.level then none else t.raisedAt }
  groupStep (countFleet (setLevel s d a.level) 13 1) d a

/-- The members that a coordinator counts. -/
def memberCount (s : State) (c : Nat) : Nat := (tg s c).members.length

/-- TG_ANNOUNCEMENT (R390): a member receives an announcement of its coordinator and acknowledges it. One with a T already
past is applied at once and counted, unless the part has tripped (R391). A detached member follows none (R392). -/
def execTgAnnouncement (die level at_ seq nmem : Nat) (s : State) : Host.Outcome State Fault Refusal :=
  let a : Announce := ⟨min level 4, at_, seq % 2 ^ 16⟩
  let own := ownCoord s die
  let sent := match own with | some c => (tg s c).sent.contains a | none => true
  if !tgOn s die || !tgReg s die || detached s die || !sent then .next s
  else
    let old := match (tg s die).pend with | some p => decide (a.seq ≤ p.seq) | none => false
    if old then .next s
    else
      let s := setSt (setSt s die 15 8 (match own with | some c => memberCount s c | none => nmem)) die 63 48 a.seq
      let s := setTg s die { tg s die with raisedAt := none }
      let s := match own with
        | some c => if (tg s c).sent.head? == some a then
            setTg s c { tg s c with acks := (tg s c).acks ++ [memberKey (pkgId s) die] } else s
        | none => s
      if at_ < nanos s.tnow then .next (if s.mg.tripped then s else countFleet (applyStep s die a) 14 1)
      else
        let s := setFleet s (atAt die) (ofNanos at_).toNat
        .next (setSt (setTg s die { tg s die with pend := some a }) die 5 3 a.level)

/-- TG_STEP_APPLY (R390): at TNOW = T. After a thermal trip the step is moot (R391); a detached member follows none (R392). -/
def execTgStepApply (die : Nat) (s : State) : Host.Outcome State Fault Refusal :=
  match (tg s die).pend with
  | none => .next s
  | some a =>
    if s.mg.tripped || detached s die || nanos s.tnow < a.at_ then .next s else .next (applyStep s die a)

/-! ## Registration (R389, R392) -/

/-- The coordinator that a die knows. -/
def setCoord (s : State) (d pkg cdie : Nat) : State := setSt (setSt s d 31 16 pkg) d 32 32 cdie

/-- What a coordinator holds goes to the other die of the package when that becomes the coordinator: the level and any
pending step are unchanged (R389). -/
def handOver (s : State) (d : Nat) : State :=
  let t := tg s d
  let o := tg s (d + 1)
  setTg s (d + 1) { o with members := t.members, level := t.level, since := t.since, sent := t.sent, acks := t.acks }

/-- The die's TGCFG.EN rises: a registration is sent (R389). -/
def beginRegister (s : State) (d : Nat) : State :=
  { setFleet s (cfgAt d) (setBits (fleetReg s (cfgAt d)) 0 0 1) with
    mg := { s.mg with last := storeSet 0 s.mg.last (gridTimer d) (nanos s.tnow / grid + 1) } }

/-- Forgets a member. -/
def dropMember (s : State) (c key : Nat) : State :=
  let t := tg s c
  setTg s c { t with members := storeSet 0 t.members key 0 }

/-- The lowest registered member takes over from a coordinator that withdraws (R389). -/
def succeed (s : State) (d : Nat) : State :=
  match (tg s d).members with
  | [] => s
  | (k, _) :: _ =>
    let o := d + 1
    let same := tgOn s o && cfgField s o 15 8 == cfgField s d 15 8
    let s := if same && k == memberKey (pkgId s) o then handOver s d else s
    if same then setCoord s o (k / 2) (k % 2) else s

/-- The die's TGCFG.EN falls: it leaves its group, and its own request decides its level from the next grid point on
(R389). -/
def withdrawDie (s : State) (d : Nat) : State :=
  let key := memberKey (pkgId s) d
  let s := match ownCoord s d with | some c => dropMember s c key | none => s
  let s := if coordinates s d then succeed s d else s
  let s := setFleet s (cfgAt d) (setBits (fleetReg s (cfgAt d)) 0 0 0)
  let s := setSt (setSt s d 6 6 0) d 7 7 0
  let s := setTg s d { tg s d with pend := none, members := [], sent := [], acks := [] }
  markGrid (setLevel s d (levelOf s d)) d

/-- TG_REGISTER (R389): a die of this package sends its registration; or one of another package registers with the
coordinator `die`, and becomes the coordinator if it is the lowest member. -/
def execTgRegister (die pkg mdie : Nat) (s : State) : Host.Outcome State Fault Refusal :=
  if pkg = pkgId s then .next (if tgOn s mdie then s else beginRegister s mdie)
  else if !coordinates s die then .next s
  else
    let t := tg s die
    let key := memberKey pkg mdie
    let s := setTg s die { t with members := storeSet 0 t.members key (max 1 (storeGet 0 t.members key)) }
    if key < memberKey (pkgId s) die then
      let group := (upto 2).filter fun d => tgOn s d && tgReg s d && cfgField s d 15 8 == cfgField s die 15 8
      .next (group.foldl (fun s d => setCoord s d pkg mdie) s)
    else .next s

/-- A die is itself the coordinator now: it takes over what the one before held, which for a coordinator elsewhere is given (R389). -/
def takeOver (s : State) (d : Nat) (held : GroupHeld) (before : Option Nat) : State :=
  match before with
  | none =>
    let t := tg s d
    setTg s d { t with
      level := min held.level 4, since := held.since, sent := held.sent.map fun a => ⟨min a.1 4, a.2.1, a.2.2 % 2 ^ 16⟩, acks := []
      members := held.members.foldl (fun m e => storeSet 0 m e.1 (min e.2 4 + 1)) t.members }
  | some c => if c = d % 2 then s else setCoord (handOver s c) c (pkgId s) (d % 2)

/-- The key of the coordinator that the other die of the package knows for the same group. -/
def otherCoord (s : State) (d : Nat) : Option Nat :=
  let o := d + 1
  if tgOn s o && tgReg s o && cfgField s o 15 8 == cfgField s d 15 8 then some (memberKey (stField s o 31 16) (stField s o 32 32)) else none

/-- TG_REGISTER_ACK (R389, R392): the coordinator (package, die) acknowledges. It is the lowest member. What a coordinator of another
package held is given, for a die that takes over from it. -/
def execTgRegisterAck (die pkg cdie nmem : Nat) (held : GroupHeld) (s : State) : Host.Outcome State Fault Refusal :=
  let key := memberKey pkg cdie
  let me := memberKey (pkgId s) die
  let self := key = me
  let known := pkg % 2 ^ 16 ≠ pkgId s ∨ self ∨ ownCoord s die = some (cdie % 2)
  let lowest := decide (key ≤ me) && (match otherCoord s die with | some k => decide (key ≤ k) | none => true)
  if tgOn s die && decide known && lowest then
    let before := ownCoord s die
    let s := setCoord (setSt (setSt s die 6 6 1) die 7 7 0) die pkg cdie
    let s := if self then takeOver s die held before else s
    .next (match ownCoord s die with
      | some c => let s := takeRequest s c me (tg s die).request; setSt s die 15 8 (memberCount s c)
      | none => setSt s die 15 8 nmem)
  else .next s

/-- TG_WITHDRAW (R389): a die of this package withdraws, or a member of another package does. -/
def execTgWithdraw (die pkg mdie : Nat) (s : State) : Host.Outcome State Fault Refusal :=
  if pkg = pkgId s then .next (if tgOn s mdie then withdrawDie s mdie else s)
  else if coordinates s die then .next (dropMember s die (memberKey pkg mdie))
  else .next s

/-- 1 ms in aclk. -/
def ms1 : Nat := 1200000

/-- Some time has passed since a moment. -/
def passed (s : State) (t : Option Nat) (dt : Nat) : Bool := match t with | some x => decide (x + dt ≤ now s) | none => false

/-- A member becomes detached: it follows no step of the group, nor one that is pending (R392). -/
def detach (s : State) (d : Nat) : State :=
  let s := setTg s d { tg s d with pend := none, raisedAt := none }
  markGrid (setLevel (setSt s d 7 7 1) d (levelOf s d)) d

/-- TG_DETACH (R392): the path to the coordinator is lost (`path`), LOCK has been 0 for 1 ms, or no announcement has come
within 1 ms of a raise request. -/
def execTgDetach (die : Nat) (path : Bool) (s : State) : Host.Outcome State Fault Refusal :=
  let t := tg s die
  if tgOn s die && tgReg s die && !detached s die && (path || passed s t.unlockedAt ms1 || passed s t.raisedAt ms1) then
    let s := detach s die
    .next (setTg s die { tg s die with tried := now s })
  else .next s

/-- TG_LOCAL_STEP (R389, R392): a detached or unregistered die applies its own request at a grid point. -/
def execTgLocalStep (die : Nat) (s : State) : Host.Outcome State Fault Refusal :=
  let t := tg s die
  let due := (!tgOn s die || detached s die) && t.request != levelOf s die &&
    decide (storeGet 0 s.mg.last (gridTimer die) ≤ nanos s.tnow / grid)
  if !due || s.mg.tripped then .next s
  else .next (countFleet (setLevel (setTg s die { t with raisedAt := none }) die t.request) 15 1)

/-- TG_REGISTER_RETRY (R392): a detached member sends its registration again every 100 ms. -/
def execTgRegisterRetry (die : Nat) (s : State) : Host.Outcome State Fault Refusal :=
  let t := tg s die
  if tgOn s die && detached s die && decide (t.tried + 100 * ms1 ≤ now s) then .next (setTg s die { t with tried := now s })
  else .next s

/-! ## The power cap (R372) -/

/-- PCAP. -/
def pcap (s : State) : Nat := bits (devNat s 0x1C9) 11 0

/-- A write of PCAP (R372). -/
def writePcap (s : State) (x : DWord) : State := setDevReg s 0x1C9 (BitVec.ofNat 64 (min (bits x.toNat 11 0) 2800))

/-- PCAP_WRITE (R372). -/
def execPcapWrite (x : DWord) (s : State) : Host.Outcome State Fault Refusal := .next (writePcap s x)

/-- The comparator's step for a die: one level more than is in force. -/
def askFor (s : State) (high : Bool) (d : Nat) : State :=
  let t := tg s d
  let want := min 4 (levelOf s d + 1)
  let ask :=
    if !high then none
    else match t.ask with | some x => if x.1 = want then some x else some (want, now s) | none => some (want, now s)
  setTg s d { t with ask := ask }

/-- The timer of the comparator. -/
def powerTimer : Nat := 5

/-- POWER_CAP_SAMPLE (R372): every 10 µs; the mean over the last 100 µs is compared with PCAP. -/
def execPowerCapSample (watts : Nat) (s : State) : Host.Outcome State Fault Refusal :=
  dueOr s ((periodDue s powerTimer 12000).map fun s =>
    let ws := (watts :: s.mg.watts).take 10000
    let last := ws.take 10
    let high := last.length == 10 && decide (10 * pcap s < last.foldl (· + ·) 0)
    (upto 2).foldl (fun s d => askFor s high d) { s with mg := { s.mg with watts := ws } })

/-- The comparator's request has not been followed for 1 ms. -/
def unfollowed (s : State) (d : Nat) : Bool :=
  match (tg s d).ask with
  | some (l, since) => decide (levelOf s d < l) && decide (since + ms1 ≤ now s)
  | none => false

/-- POWER_CAP_FALLBACK (R372): each compute die becomes detached; its local step follows at the grid (R392). -/
def execPowerCapFallback (s : State) : Host.Outcome State Fault Refusal :=
  if !((upto 2).any (unfollowed s)) then .next s
  else
    .next ((upto 2).foldl (fun s d => if tgOn s d && !detached s d then
      let u := detach s d
      setTg u d { tg u d with tried := now s, request := requestOf s d } else s) s)

/-- The compute, vault and HBM4E rails are down: what they held is gone, with the groups of the compute dies (R372). -/
def railsDown (s : State) : State :=
  let lost (k : Nat) : Bool := k / 2 ^ 58 == 1 || (decide (16 ≤ k / 2 ^ 58) && decide (k / 2 ^ 58 < 32))
  { s with
    g := if s.g.who.loc.die = 2 then s.g else noCtx
    others := s.others.filter fun c => c.who.loc.die == 2
    round := []
    arrays := []
    ms := { s.ms with mem := s.ms.mem.filter fun c => !lost c.1, hist := s.ms.hist.filter fun w => !lost w.key
                      undef := s.ms.undef.filter fun k => !lost k }
    mg := { s.mg with tripped := true, powered := min s.mg.powered 3, boot := none } }

/-- THERMAL_TRIP (R372): a stack (0..7) at 112 °C or more, or another die (8 on) at 115 °C or more, stops issue on every unit and powers down
the compute, vault and HBM4E rails, until a cold start. -/
def execThermalTrip (unit temp : Nat) (s : State) : Host.Outcome State Fault Refusal :=
  if temp < (if unit < 8 then 112 else 115) then .next s
  else .next (railsDown (logError s 0xE5 3 0xFFFF unit 0 1))

/-! ## Sensors (R386, R393) -/

/-- The band of a temperature (R393). -/
def band (t : Nat) : Nat := if t ≤ 85 then 0 else if t ≤ 95 then 1 else 2

/-- Counts a sample that may let a value fall: the count, and whether it is the tenth in a row. -/
def countBelow (s : State) (key : Nat) (low : Bool) : Bool × State :=
  let n := if low then storeGet 0 s.fl.below key + 1 else 0
  (n == 10, { s with fl := { s.fl with below := storeSet 0 s.fl.below key (if n = 10 then 0 else n) } })

/-- One stack is sampled (R386, R393): a band is left downwards at the tenth sample in a row that is 2 °C below its lower edge. -/
def sampleStack (s : State) (i t : Nat) : State :=
  let at_ := 0x10 + 4 * i
  let x := fleetReg s at_
  let refm := bits x 9 8
  let (leave2, s) := countBelow s i (refm == 2 && decide (t ≤ 94))
  let (leave1, s) := countBelow s (16 + i) (refm != 0 && decide (t ≤ 84))
  let (cool, s) := countBelow s (8 + i) (bit x 10 && decide (t ≤ 104))
  let refm' := if refm < band t then band t else if leave1 then 0 else if leave2 then 1 else refm
  let hot := decide (106 ≤ t) || (bit x 10 && !cool)
  setFleet s at_ (min t 255 + 256 * refm' + (if hot then 1024 else 0))

/-- INLET is above 55 °C, or the flow that PWR and the rise imply is below 3.6 L/min: 0.017 kg/s for each L/min, at
3.9 kJ/(kg·K) (R385, R386). -/
def outside (inlet outlet watts : Nat) : Bool := decide (220 < inlet) || decide (watts * 400 < (outlet - inlet) * 23868)

/-- The timer of the sensors. -/
def sensorTimer : Nat := 6

/-- The mean of the samples of package power of the last 100 ms (R386). -/
def meanPower (s : State) : Nat := if s.mg.watts.isEmpty then 0 else s.mg.watts.foldl (· + ·) 0 / s.mg.watts.length

/-- SENSOR_SAMPLE (R386, R393): the loop, in quarters of a degree, and the hottest die of each stack of CD0 and of CD1. -/
def execSensorSample (inlet outlet : Nat) (temps0 temps1 : List Nat) (s : State) : Host.Outcome State Fault Refusal :=
  dueOr s ((periodDue s sensorTimer ms1).map fun s =>
    let inlet := min inlet 4095
    let outlet := min outlet 4095
    let watts := min (meanPower s) 4095
    let env := outside inlet outlet watts
    let s := setFleet s 0 (inlet + 2 ^ 16 * outlet + 2 ^ 32 * watts + (if env then 2 ^ 44 else 0))
    let s := (upto 8).foldl (fun s i => sampleStack s i (if i < 4 then temps0.getD i 0 else temps1.getD (i - 4) 0)) s
    let at2 (m : Nat) : Nat := ((upto 8).filter fun i => bits (fleetReg s (0x10 + 4 * i)) 9 8 == m).length
    let s := countFleet (countFleet s 16 (at2 1)) 17 (at2 2)
    if env then countFleet s 18 1 else s)

/-! ## Counters (R394) -/

/-- The sum over the VFs of a count of their Ladle blocks. -/
def ladleSum (s : State) (off : Nat) : Nat :=
  (upto 16).foldl (fun n vf => if ladleBlock s vf = 0 then n else n + physNat s (ladleBlock s vf + off) 4) 0

/-- The sum over the VFs of DREL of their KV roots (R127, R132). -/
def drelSum (s : State) : Nat :=
  (upto 16).foldl (fun n vf =>
    let r := (vfReg s vf 0x050).toNat
    if !bit r 63 then n
    else
      match vaHome s ⟨vf, bits (vfReg s vf 0x107).toNat 11 0, .mch, 2⟩ .load (bits r 56 6 * 64 + 28) 4 with
      | .ok (x, _) => n + x
      | .error _ => n) 0

/-- The timer of the copies. -/
def copyTimer : Nat := 7

/-- COUNTER_COPY (R394): every 100 ms counts are copied from the structures that hold them. -/
def execCounterCopy (s : State) : Host.Outcome State Fault Refusal :=
  dueOr s ((periodDue s copyTimer (100 * ms1)).map fun s =>
    [(6, ladleSum s 220), (8, ladleSum s 192), (9, ladleSum s 200), (10, ladleSum s 204), (11, ladleSum s 208),
      (12, drelSum s)].foldl (fun s x => setFleet s (counterAt x.1) x.2) s)

/-- Clears every fleet counter (R394). -/
def clearCounters (s : State) : State := (upto 19).foldl (fun s i => setFleet s (counterAt i) 0) s

/-- COUNTER_CLEAR (R394). -/
def execCounterClear (s : State) : Host.Outcome State Fault Refusal := .next (clearCounters s)

/-! ## Writes of the fleet window -/

/-- A write of TGCFG (R389). -/
def writeTgcfg (s : State) (d x : Nat) : State :=
  let c := fleetReg s (cfgAt d)
  let c := if bit c 0 then c else setBits c 15 8 (bits x 15 8)
  let lead := bits x 23 16
  let c := if 2 ≤ lead ∧ lead ≤ 100 then setBits c 23 16 lead else c
  let c := if bits x 26 24 ≤ 4 then setBits c 26 24 (bits x 26 24) else c
  let s := setFleet s (cfgAt d) c
  if bit x 0 && !bit c 0 then beginRegister s d else if bit c 0 && !bit x 0 then withdrawDie s d else s

/-- A host's write at an offset of the fleet window: every other register of it is read only (R386 to R394). -/
def writeFleet (s : State) (off x : Nat) : State :=
  if off = 0x100 then writeTgcfg s 0 x
  else if off = 0x120 then writeTgcfg s 1 x
  else if off = 0x3F8 && bit x 0 then clearCounters s
  else s

end Sys2Proof.Machine
end

