-- ==== Sys2Proof/Machine/Start.lean ====
section
/-! DEFINITION. Starts, trust, checkpoint and restore (20; R366 to R372, R383, R384). -/

namespace Sys2Proof.Machine

/-! ## Firmware (R370) -/

/-- A little-endian field of an image. -/
def imgField (x : List Byte) (at_ n : Nat) : Nat := natOfBytes ((x.drop at_).take n)

/-- MAGIC of a firmware image. -/
def imgMagic : Nat := 0x57464B46

/-- The header and the body of an image. -/
def imgBytes (x : List Byte) : List Byte := x.take (256 + imgField x 8 8)

/-- An intact key slot holds this digest. -/
def slotHolds (f : Fuses) (digest : Nat) : Bool := (upto 4).any fun i => !bit f.revoked i && f.slots.getD i 0 == digest

/-- The ROM accepts an image (R370). -/
def imageOk (f : Fuses) (x : List Byte) : Bool :=
  let key := (x.drop 16).take 64
  imgField x 0 4 == imgMagic && decide (256 + imgField x 8 8 ≤ x.length) && slotHolds f (Config.sm3 key) &&
    decide (f.svnmin ≤ imgField x 4 4) &&
    Config.sm2Verify key (Config.sm3 (x.take 80 ++ (imgBytes x).drop 256)) ((x.drop 80).take 64)

/-- The number of register MEASi. -/
def measNum (i : Nat) : Nat := 0x1D0 + i

/-- MEAS as 32 bytes. -/
def measBytes (s : State) : List Byte := (upto 8).flatMap fun i => bytesOfNat 4 (devNat s (measNum i))

/-- Extends MEAS by what is loaded (R370). -/
def extendMeas (s : State) (x : List Byte) : State :=
  let d := Config.sm3 (measBytes s ++ bytesOfNat 32 (Config.sm3 x))
  (upto 8).foldl (fun s i => setDevReg s (measNum i) (BitVec.ofNat 64 (d / 2 ^ (32 * i) % 2 ^ 32))) s

/-! ## Starts (R366, R367) -/

/-- MSTAT. -/
def setMstat (s : State) (kind fail keptL keptH step svn : Nat) : State :=
  setDevReg s 0x1C0 (BitVec.ofNat 64 (kind + 4 * fail + 8 * keptL + 16 * keptH + 4096 * step + 65536 * (svn % 65536)))

/-- The tag of a location key: 1 a vault, 16 + s stack s, 32 + g a channel group, 48 + p pool port p, 64 + q peer q. -/
def keyTag (k : Nat) : Nat := k / 2 ^ 58

/-- Memory that step 8 of a start leaves as it is: the pool's, the peers', and what is kept (R366). -/
def startKeeps (keptL : Bool) (keptH : Nat) (k : Nat) : Bool :=
  let t := keyTag k
  decide (48 ≤ t) || (keptL && decide (32 ≤ t) && decide (t < 48)) || (decide (16 ≤ t) && decide (t < 24) && bit keptH (t - 16))

/-- What memory holds once the caches have lost what was on its way: of each byte what arrived last. -/
def arrivedMem (s : State) : List Host.Cell :=
  let late := distinct ((s.ms.hist.filter fun w => w.arrived.isNone).map (·.key))
  late.foldl (fun m k =>
    match ((recsOf s k).filter fun w => w.arrived.isSome).getLast? with
    | some w => storeSet emptyByte m k w.val
    | none => m) s.ms.mem

/-- The state in which a start begins (R366): reset, but for what is fused, PKGINC, memory, what the last checkpoint saved, and the model's own
counters. -/
def startState (s : State) : State :=
  let r := { State.reset with
    agenda := s.agenda, free := s.free, fresh := s.fresh
    ms := { State.reset.ms with mem := arrivedMem s }
    mg := { State.reset.mg with fuses := s.mg.fuses, ckSaved := s.mg.ckSaved, ckGangs := s.mg.ckGangs } }
  setDevReg r 0x181 (devReg s 0x181)

/-- The fields of MSTAT that a step changes. -/
def markStep (s : State) (b : Boot) (fail step : Nat) : State :=
  let l := if b.keptL && bit b.trained 0 then 1 else 0
  setMstat s b.kind fail l (if bit b.trained 1 then b.keptH else 0) step b.svn

/-- A start stops at a step (R366). -/
def startFailed (s : State) (b : Boot) (step : Nat) : State :=
  let s := markStep s b 1 step
  { s with mg := { s.mg with boot := none } }

/-- The bits of the result area that the self-test expects to read 1 (R368). -/
def testBits : List Nat := upto 512 ++ (upto 8).map (512 + ·) ++ (upto 16).map (528 + ·) ++ (upto 3).map (544 + ·)

/-- The bits that read 0. -/
def failedBits (result : List Byte) : List Nat :=
  testBits.filter fun b => !bit (result.getD (b / 8) 0).toNat (b % 8)

/-- The key of the self-test's result area, the page that follows its node table in LPDDR-6 (R368). -/
def resultKey : Nat := locKey 32 (4096 * (Config.firmwarePage 0 % 2 ^ 20) + 4096)

/-- The self-test graph of step 10 (R368), as it leaves the part: GNTB with its 70 nodes, the result area with the count of bits that read 0, and
an error log entry for each of those, in the log that firmware has set up (DESIGN CHOICE, notes/assumptions/104.md). -/
def selfTest (s : State) (result : List Byte) : State :=
  let bad := failedBits result
  let s := setDevReg s 0x112 (BitVec.ofNat 64 (4096 * (Config.firmwarePage 0 % 2 ^ 20) + 70))
  let s := setDevReg s 0x1C6 (BitVec.ofNat 64 (4096 * (Config.firmwarePage 1 % 2 ^ 44)))
  let s := setDevReg s 0x1C7 (BitVec.ofNat 64 ((4 + Config.firmwarePage 2 % 9) * 2 ^ 48))
  let bytes := (upto 72).map (fun i => result.getD i 0) ++ bytesOfNat 4 bad.length
  let s := devPutKeys s ((upto 76).map (resultKey + ·)) bytes
  bad.foldl (fun s b => logError s 0 0 0xFFFF b 0 1) s

/-- Steps 7 to 11 of a start (R366): arrays, then the tiers that are not kept, are zeroed; the links are trained, where every port's peer is the
one of the saved topology with its record as it was; the self-test decides; the incarnation goes up and firmware loads its images, the hypervisor's
the last (R370). -/
def finishStart (s : State) (b : Boot) : State :=
  if b.hw.broken = 7 then startFailed s b 7
  else
    let s := { s with ms := { s.ms with mem := s.ms.mem.filter fun c => keyTag c.1 != 1 } }
    if b.hw.broken = 8 then startFailed s b 8
    else
      let s := { s with ms := { s.ms with mem := s.ms.mem.filter fun c => startKeeps b.keptL b.keptH c.1 } }
      let same := b.kind == 2 && (upto 72).all fun q => b.hw.links.getD q 0 == bits (storeGet 0 b.peers q).toNat 15 0
      let s := if same then { s with hub := { s.hub with peers := b.peers } } else s
      if b.hw.broken = 9 then startFailed s b 9
      else
        let s := selfTest s b.selftest
        if b.hw.broken = 10 || !(failedBits b.selftest).isEmpty then startFailed s b 10
        else
          let s := b.images.foldl extendMeas s
          let s := setDevReg s 0x181 (BitVec.ofNat 64 ((devNat s 0x181 + 1) % 2 ^ 32))
          if b.hw.broken = 11 then startFailed s b 11
          else
            let s := markStep s b 0 11
            { s with mg := { s.mg with boot := none } }

/-- Steps 1 to 3 of a start (R366, R370); its units are then powered one by one (R367). -/
def start (s : State) (b : Boot) (primary backup : List Byte) : State :=
  let t := startState s
  let early : Boot := { b with svn := 0, trained := 0 }
  if b.hw.broken = 1 ∨ b.hw.broken = 2 then startFailed t early b.hw.broken
  else
    match [primary, backup].find? (imageOk s.mg.fuses) with
    | none => startFailed t early 3
    | some x =>
      let b := { b with svn := imgField x 4 4, trained := 0, peers := s.hub.peers }
      let t := extendMeas t (imgBytes x)
      if b.hw.broken = 3 then startFailed t b 3
      else
        let t := markStep t b 0 3
        { t with mg := { t.mg with boot := some b } }

/-- COLD_START (R366). -/
def execColdStart (primary backup : List Byte) (images : List (List Byte)) (hw : Hardware) (selftest : List Byte) (s : State) :
    Host.Outcome State Fault Refusal :=
  .next (start s ⟨1, 0, hw, false, 0, 0, images, [], selftest⟩ primary backup)

/-- WARM_START (R366): only a cold start follows a thermal trip (R372). `keptL` and `keptH` say which tiers meet the conditions of steps 4 and
5. -/
def execWarmStart (primary backup : List Byte) (images : List (List Byte)) (hw : Hardware) (keptL : Bool) (keptH : BitVec 8)
    (selftest : List Byte) (s : State) : Host.Outcome State Fault Refusal :=
  if s.mg.tripped then .next s
  else .next (start s ⟨2, 0, hw, keptL, keptH.toNat, 0, images, [], selftest⟩ primary backup)

/-- The timer of the power-up order. -/
def unitTimer : Nat := 8

/-- The step of a start that powers a unit of the order (R366, R367). -/
def stepOf (n : Nat) : Nat := if n ≤ 2 then 4 else if n ≤ 13 then 5 else 6

/-- The next unit of the order is powered; a compute die leaves its reset with its first cluster (R317; DESIGN CHOICE, notes/assumptions/105.md). -/
def powerUp (s : State) (b : Boot) : State :=
  let n := s.mg.powered + 1
  let clocks := if n = 14 ∨ n = 15 then storeSet 0 s.mg.clocks (n - 14) (now s) else s.mg.clocks
  let s := markStep s b 0 (stepOf n)
  { s with mg := { s.mg with powered := n, clocks := clocks } }

/-- A tier is trained, unless a warm start keeps it. -/
def train (s : State) (b : Boot) (tier step : Nat) : State :=
  let b := { b with trained := b.trained + 2 ^ tier }
  if b.hw.broken = step then startFailed s b step
  else
    let s := markStep s b 0 step
    { s with mg := { s.mg with boot := some b } }

/-- How long a start waits before it goes on (R367): PSTEP = 20 µs, and until the rails of the unit powered last are in regulation. -/
def powerStep (s : State) (b : Boot) : Nat := max 24000 (b.hw.rails.getD s.mg.powered 0)

/-- UNIT_POWER_UP (R367): the start under way goes on: with the training of a tier whose last unit is powered, else with the next unit of the
order, and after the last unit with what is left of the start. -/
def execUnitPowerUp (s : State) : Host.Outcome State Fault Refusal :=
  match s.mg.boot with
  | none => .next s
  | some b =>
    dueOr s ((periodDue s unitTimer (powerStep s b)).map fun s =>
      if s.mg.powered = 2 && !bit b.trained 0 then train s b 0 4
      else if s.mg.powered = 11 && !bit b.trained 1 then train s b 1 5
      else if s.mg.powered = 13 && b.hw.broken = 6 then startFailed s b 6
      else if s.mg.powered < 77 then powerUp s b
      else finishStart s b)

/-- A write of ATTREQ (R371): ignored while a request is pending. -/
def writeAttreq (s : State) (x : DWord) : State :=
  if s.mg.attest.isSome then s else { setDevReg s 0x1CE x with mg := { s.mg with attest := some x.toNat } }

/-- ATTESTATION_REQUEST (R371). -/
def execAttestationRequest (x : DWord) (s : State) : Host.Outcome State Fault Refusal := .next (writeAttreq s x)

/-- The encoding identity as 32 bytes (R400). -/
def eidBytes (s : State) : List Byte := (upto 8).flatMap fun i => bytesOfNat 4 (devNat s (0x0F0 + i))

/-- Bytes 0..175 of a report. -/
def reportBody (s : State) (nonce : List Byte) : List Byte :=
  bytesOfNat 4 0x54414B46 ++ bytesOfNat 2 (pkgId s) ++ bytesOfNat 2 0 ++ bytesOfNat 4 (devNat s 0x181) ++
    bytesOfNat 4 (bits (devNat s 0x1C0) 31 16) ++ eidBytes s ++ measBytes s ++ nonce ++
    bytesOfNat 64 (Config.identityKey s.mg.fuses.seed)

/-- ATTESTATION_REPORT (R371): the report is written, then byte 40 of the request set to 1. -/
def execAttestationReport (s : State) : Host.Outcome State Fault Refusal :=
  match s.mg.attest with
  | none => .next s
  | some a =>
    let body := reportBody s (bytesOfNat 32 (physNat s a 32))
    let sig := bytesOfNat 64 (Config.sm2Sign s.mg.fuses.seed (Config.sm3 body))
    let s := devPutKeys s (physKeys s (physNat s (a + 32) 8) 240) (body ++ sig)
    .next { physPut s (a + 40) 1 1 with mg := { s.mg with attest := none } }

/-! ## Fuses (R372) -/

/-- SIGNED_FUSE_COMMAND (R372): a command signed under a slot not revoked raises SVNMIN to `value`, or revokes the slots of
`value`; other commands do nothing. -/
def execSignedFuseCommand (raise : Bool) (value : Nat) (key sig : List Byte) (s : State) : Host.Outcome State Fault Refusal :=
  let f := s.mg.fuses
  let msg := bytesOfNat 4 (if raise then 0 else 1) ++ bytesOfNat 4 value
  if slotHolds f (Config.sm3 key) && Config.sm2Verify key (Config.sm3 msg) sig then
    let f := if raise then { f with svnmin := max f.svnmin value } else { f with revoked := (f.revoked ||| value) % 16 }
    .next { s with mg := { s.mg with fuses := f } }
  else .next s

/-! ## Checkpoint and restore (R383, R384) -/

/-- CKDST. -/
def ckBase (s : State) : Nat := bits (devNat s 0x1CD) 55 12 * 4096

/-- The length of section i: a stack of 64 GiB, or a quarter of the LPDDR-6 (R3). -/
def sectionLen (i : Nat) : Nat := if i < 8 then 2 ^ 36 else 2 ^ 38

/-- The location keys of the 256-byte pieces of section i: of a stack, or of four channel groups of LPDDR-6. -/
def sectionPiece (i j : Nat) : Nat :=
  if i < 8 then locKey (16 + i) (256 * j) else locKey (32 + 4 * (i - 8) + j / 2 ^ 28) (256 * (j % 2 ^ 28))

/-- Copies section i to the pool's safe region. -/
def saveSection (s : State) (i : Nat) : State :=
  foldFrom (fun s j => copyPiece s (sectionPiece i j) (physKey s (ckBase s + Config.sectionOffset i + 256 * j))) (sectionLen i / 256) 0 s

/-- The SM3 digest of section i of memory. -/
def sectionDigest (s : State) (i : Nat) : Nat :=
  Config.sm3 ((upto (sectionLen i / 256)).flatMap fun j => bytesOfNat 256 (homeNat s ((upto 256).map (sectionPiece i j + ·))))

/-- The physical base of section i: of the first range of the address map that reaches its stack or its first channel group (R357); where none
does, the manual gives none. -/
def sectionBase (s : State) (i : Nat) : Nat :=
  let reaches (r : Nat) : Bool :=
    let c := devNat s (0x142 + 4 * r)
    bit (devNat s (0x140 + 4 * r)) 63 && bits c 31 25 == 0x7F &&
      (if i < 8 then bits c 1 0 == 1 && bit c (8 + i) else bits c 1 0 == 2 && bit c (8 + 4 * (i - 8)))
  match (upto 16).find? reaches with
  | some r => bits (devNat s (0x140 + 4 * r)) 55 21 <<< 21
  | none => Config.sectionBase i

/-- Writes the manifest's entry of a section (R383). -/
def writeSection (s : State) (i : Nat) : State :=
  let x := sectionBase s i + 2 ^ 64 * sectionLen i + 2 ^ 128 * Config.sectionOffset i + 2 ^ 256 * sectionDigest s i
  physPut s (ckBase s + 64 + 64 * i) 64 x

/-- The manifest's header; COMPLETE as given. -/
def writeManifest (s : State) (complete : Bool) : State :=
  let c := if complete then 1 else 0
  let s := physPut s (ckBase s) 16 (0x4B43_4B46 + 2 ^ 32 * c + 2 ^ 64 * devNat s 0x181 + 2 ^ 96 * 12)
  devPutKeys s (physKeys s (ckBase s + 16) 32) (eidBytes s)

/-- CKCTL.GO. -/
def ckGo (s : State) : Bool := (devReg s 0x1CC).getLsbD 0
/-- CKCTL.DONE. -/
def ckDone (s : State) : Bool := (devReg s 0x1CC).getLsbD 1

/-- CHECKPOINT_START (R383): with CKCTL.GO = 1 and QCTL.GO = 0 every context is saved, dirty sectors written back, the twelve
sections copied and the manifest written. Without `finish` a thermal trip or a cold start meets it before DONE, and the
manifest stays without COMPLETE; so it does after a trip. -/
def execCheckpointStart (finish : Bool) (s : State) : Host.Outcome State Fault Refusal :=
  if !ckGo s || ckDone s || qGo s || s.mg.tripped then .next s
  else
    let s := saveAll s (fun _ => true) 1
    let s := { s with mg := { s.mg with ckSaved := s.en.saved, ckGangs := s.wk.gangs } }
    let s := arriveAt s fun _ => true
    let s := (upto 12).foldl saveSection s
    let s := writeManifest ((upto 12).foldl writeSection s) finish
    .next (if finish then setDevReg s 0x1CC (devReg s 0x1CC ||| 2) else s)

/-- A section lies in a tier that a warm start kept (R384). -/
def sectionKept (s : State) (i : Nat) : Bool :=
  let m := devNat s 0x1C0
  if i < 8 then bit m (4 + i) else bit m 3

/-- HBM4E and LPDDR-6 zeroed. -/
def zeroTiers (s : State) : State :=
  let dram (k : Nat) : Bool := decide (16 ≤ keyTag k) && decide (keyTag k < 48)
  { s with ms := { s.ms with mem := s.ms.mem.filter fun c => !dram c.1, hist := s.ms.hist.filter fun w => !dram w.key } }

/-- A field of the manifest's entry of a section. -/
def sectionField (s : State) (i at_ n : Nat) : Nat := physNat s (ckBase s + 64 + 64 * i + at_) n

/-- Copies back a section that was not kept. -/
def restoreSection (s : State) (i : Nat) : State :=
  if sectionKept s i then s
  else
    foldFrom (fun s j => copyPiece s (physKey s (ckBase s + sectionField s i 16 8 + 256 * j)) (sectionPiece i j))
      (sectionLen i / 256) 0 s

/-- The contexts that the checkpoint saved wait again to be resumed, through gctxld or the quantum table (R355, R384). -/
def recallSaved (s : State) : State :=
  { s with
    en := { s.en with saved := s.mg.ckSaved ++ s.en.saved.filter fun x => !s.mg.ckSaved.any fun y => y.who.uid == x.who.uid }
    wk := { s.wk with gangs := s.wk.gangs ++ s.mg.ckGangs.filter fun g => !s.wk.gangs.any fun h => h.num == g.num } }

/-- RESTORE (R384): a manifest without COMPLETE, of another encoding identity, or with a digest that does not match is
refused: memory is zeroed and the refusal logged. -/
def execRestore (s : State) : Host.Outcome State Fault Refusal :=
  let refuse (s : State) : Host.Outcome State Fault Refusal := .next (logError (zeroTiers s) 0 0 0xFFFF 0 (ckBase s) 1)
  if !bit (physNat s (ckBase s + 4) 4) 0 || bytesOfNat 32 (physNat s (ckBase s + 16) 32) != eidBytes s then refuse s
  else
    let t := (upto 12).foldl restoreSection s
    let bad := (upto 12).any fun i => !sectionKept t i && sectionDigest t i != sectionField s i 32 32
    if bad then refuse t else .next (recallSaved t)

end Sys2Proof.Machine
end

