-- ==== Sys2Proof/Machine/Regs.lean ====
section
/-! DEFINITION. System registers (08, 16, 19, 20; R172 to R174, R315, R351, R369): who may access each, what a read gives and
what a write does. -/

namespace Sys2Proof.Machine

/-! ## Who may access what -/

/-- How a mode may access a register. -/
inductive RegAcc
  | no | ro | wo | rw
deriving DecidableEq, Repr

/-- A register: whether it is read and written through a pair, and how USR, SUP, HYP and MCH may access it. -/
structure RegInfo where
  wide : Bool
  usr : RegAcc
  sup : RegAcc
  hyp : RegAcc
  mch : RegAcc
deriving DecidableEq, Repr

/-- A register that programs below HYP may name (R172); HYP and MCH access it as SUP does (R173). -/
def lowReg (wide : Bool) (usr sup : RegAcc) : Option RegInfo := some ⟨wide, usr, sup, sup, sup⟩

/-- A register for HYP and MCH only (R351, R369). -/
def highReg (wide : Bool) (hyp mch : RegAcc) : Option RegInfo := some ⟨wide, .no, .no, hyp, mch⟩

/-- The registers of R172 and R317. -/
def lowInfo (n : Nat) : Option RegInfo :=
  if n = 0x000 ∨ n = 0x001 ∨ n = 0x004 ∨ n = 0x005 ∨ n = 0x006 then lowReg false .rw .rw
  else if n = 0x002 ∨ n = 0x003 ∨ n = 0x030 then lowReg false .ro .rw
  else if n = 0x007 then lowReg true .ro .ro
  else if n = 0x008 ∨ n = 0x009 ∨ n = 0x050 then lowReg true .ro .rw
  else if n = 0x00A ∨ n = 0x062 ∨ (0x0F0 ≤ n ∧ n ≤ 0x0F7) then lowReg false .ro .ro
  else if (0x010 ≤ n ∧ n ≤ 0x017) ∨ (0x020 ≤ n ∧ n ≤ 0x027) then lowReg true .no .rw
  else if (0x018 ≤ n ∧ n ≤ 0x01B) ∨ n = 0x028 then lowReg false .no .rw
  else if n = 0x040 ∨ n = 0x043 ∨ n = 0x044 ∨ n = 0x046 ∨ (0x048 ≤ n ∧ n ≤ 0x04B) then lowReg false .no .rw
  else if n = 0x041 ∨ n = 0x042 ∨ n = 0x045 ∨ n = 0x047 ∨ n = 0x04C then lowReg true .no .rw
  else if n = 0x052 then lowReg false .no .ro
  else if n = 0x053 then lowReg true .no .wo
  else if n = 0x060 ∨ n = 0x061 then lowReg true .ro .ro
  else none

/-- The registers of R351. -/
def hypInfo (n : Nat) : Option RegInfo :=
  if n = 0x100 ∨ n = 0x101 ∨ (0x108 ≤ n ∧ n ≤ 0x10C) ∨ n = 0x110 ∨ n = 0x112 then highReg true .rw .rw
  else if (0x102 ≤ n ∧ n ≤ 0x107) ∨ n = 0x111 ∨ n = 0x198 ∨ n = 0x1A0 then highReg false .rw .rw
  else if (0x140 ≤ n ∧ n ≤ 0x17F) ∨ (0x184 ≤ n ∧ n ≤ 0x193) ∨ (0x199 ≤ n ∧ n ≤ 0x19B) then highReg true .rw .rw
  else if n = 0x180 then highReg false .ro .rw
  else if n = 0x181 ∨ n = 0x195 then highReg false .ro .ro
  else if n = 0x194 then highReg true .wo .wo
  else if n = 0x1A1 then highReg true .ro .ro
  else none

/-- The registers of R369. -/
def mchInfo (n : Nat) : Option RegInfo :=
  if n = 0x1C0 ∨ n = 0x1C3 ∨ n = 0x1CA ∨ n = 0x1CB ∨ (0x1D0 ≤ n ∧ n ≤ 0x1D7) then highReg false .ro .ro
  else if n = 0x1C1 then highReg false .no .wo
  else if n = 0x1C2 ∨ n = 0x1C6 ∨ n = 0x1C7 ∨ n = 0x1C8 then highReg true .ro .rw
  else if n = 0x1C4 ∨ n = 0x1C5 ∨ n = 0x1C9 then highReg false .ro .rw
  else if n = 0x1CC then highReg false .rw .rw
  else if n = 0x1CD then highReg true .rw .rw
  else if n = 0x1CE ∨ (0x1E0 ≤ n ∧ n ≤ 0x1EF) then highReg true .rw .ro
  else if n = 0x1CF then highReg true .no .rw
  else none

/-- The register of a number; none where no chapter assigns it (R173). -/
def regInfo (n : Nat) : Option RegInfo := if n < 0x100 then lowInfo n else if n < 0x1C0 then hypInfo n else mchInfo n

/-- A register is read and written through a pair (R172). -/
def regWide (n : Nat) : Bool := match regInfo n with | some r => r.wide | none => false

/-- A mode's access to a register. -/
def RegInfo.of (r : RegInfo) : Mode → RegAcc
  | .usr => r.usr | .sup => r.sup | .hyp => r.hyp | .mch => r.mch

/-- The access allows a write (true) or a read. -/
def RegAcc.allows (a : RegAcc) (write : Bool) : Bool :=
  match a with
  | .rw => true
  | .ro => !write
  | .wo => write
  | .no => false

/-- The cause of an access that is not permitted (R173, R369). -/
def regCause (m : Mode) (n : Nat) (write : Bool) : Option Nat :=
  match regInfo n with
  | none => some (if m = .sup ∧ 0x1C0 ≤ n then 0xC2 else 0x02)
  | some r =>
    if (r.of m).allows write then none
    else if m = .sup ∧ 0x100 ≤ n then some 0xC2
    else if m = .usr ∧ r.sup.allows write then some 0x0C
    else some 0x02

/-! ## Sequencing registers (R167 to R169, R174) -/

/-- SEQST and SEQCNT. -/
def seqStatus (q : Seq) : Nat := q.tqn + 16 * q.lsn + 256 * q.csn + 4096 * q.css

/-- A count that is written: one out of range is left open. -/
def seqCount (x hi lo limit : Nat) : Nat :=
  let n := bits x hi lo
  if n ≤ limit then n else Config.seqCount x lo % (limit + 1)

/-- A write of SEQCNT sets the counts. -/
def writeSeqcnt (q : Seq) (x : Nat) : Seq :=
  { q with tqn := seqCount x 2 0 4, lsn := seqCount x 6 4 4, csn := seqCount x 11 8 8, css := seqCount x 21 12 512 }

/-- An entry that counts, or 0. -/
def counted (n i x : Nat) : Nat := if i < n then x else 0

/-- The top loop entry. -/
def topLoop (q : Seq) : Addr × Word := if q.lsn = 0 then (0, 0) else q.loops.getD (q.lsn - 1) (0, 0)

/-- A sequencing register. -/
def seqReg (q : Seq) (n : Nat) : Nat :=
  if n = 0x006 then (topLoop q).2.toNat
  else if n = 0x007 then (topLoop q).1.toNat
  else if n = 0x00A ∨ n = 0x028 then seqStatus q
  else if n ≤ 0x013 then counted q.tqn (n - 0x010) (q.tq.getD (n - 0x010) 0).toNat
  else if n ≤ 0x017 then counted q.lsn (n - 0x014) (q.loops.getD (n - 0x014) (0, 0)).1.toNat
  else if n ≤ 0x01B then counted q.lsn (n - 0x018) (q.loops.getD (n - 0x018) (0, 0)).2.toNat
  else counted q.csn (n - 0x020) (q.calls.getD (n - 0x020) 0).toNat

/-- An address field: bits [1:0] read 0. -/
def addrField (x : DWord) : Addr := x.setWidth 57 &&& ~~~3

/-- Writes a sequencing register. -/
def setSeqReg (q : Seq) (n : Nat) (x : DWord) : Seq :=
  if n = 0x006 then
    if q.lsn = 0 then q else { q with loops := setAt q.loops (q.lsn - 1) ((topLoop q).1, x.setWidth 32) }
  else if n = 0x028 then writeSeqcnt q x.toNat
  else if n ≤ 0x013 then { q with tq := setAt q.tq (n - 0x010) (addrField x) }
  else if n ≤ 0x017 then { q with loops := setAt q.loops (n - 0x014) (addrField x, (q.loops.getD (n - 0x014) (0, 0)).2) }
  else if n ≤ 0x01B then
    { q with loops := setAt q.loops (n - 0x018) ((q.loops.getD (n - 0x018) (0, 0)).1, x.setWidth 32) }
  else { q with calls := setAt q.calls (n - 0x020) (addrField x) }

/-- The numbers of the sequencing registers. -/
def isSeqReg (n : Nat) : Bool :=
  n == 0x006 || n == 0x007 || n == 0x00A || (decide (0x010 ≤ n) && decide (n ≤ 0x028))

/-! ## Context registers (R147, R172, R173) -/

/-- A register of the trap state. -/
def readTrap (t : Trap) (n : Nat) : Nat :=
  if n = 0x040 then t.tcause.toNat
  else if n = 0x041 then t.tepc0.toNat
  else if n = 0x042 then t.tepc1.toNat
  else if n = 0x043 then t.tmsk0.toNat
  else if n = 0x044 then t.tmsk1.toNat
  else if n = 0x045 then t.taddr.toNat
  else if n = 0x046 then t.tlanes.toNat
  else if n = 0x047 then t.trpc.toNat
  else (t.tscr.getD (n - 0x048) 0).toNat

/-- The writable bits of a saved slot. -/
def tepcMask : DWord := 0x81FFFFFFFFFFFFFF

/-- Writes a register of the trap state; HMODE is read only. -/
def writeTrap (t : Trap) (n : Nat) (x : DWord) : Trap :=
  let w : Word := x.setWidth 32
  if n = 0x040 then { t with tcause := (w &&& 0x1FBFFF) ||| (t.tcause &&& 0x4000) }
  else if n = 0x041 then { t with tepc0 := x &&& tepcMask }
  else if n = 0x042 then { t with tepc1 := x &&& tepcMask }
  else if n = 0x043 then { t with tmsk0 := w }
  else if n = 0x044 then { t with tmsk1 := w }
  else if n = 0x045 then { t with taddr := x }
  else if n = 0x046 then { t with tlanes := w }
  else if n = 0x047 then { t with trpc := x &&& 0x1FFFFFFFFFFFFFF }
  else { t with tscr := setAt t.tscr (n - 0x048) w }

/-- The numbers of the registers of R147. -/
def isTrapReg (n : Nat) : Bool := decide (0x040 ≤ n) && decide (n ≤ 0x04B)

/-- The other registers of a context. -/
def readOwn (c : Ctx) (n : Nat) : Nat :=
  match n with
  | 0x000 => c.flags.toNat
  | 0x001 => c.flmask.toNat
  | 0x002 => c.pidx.toNat
  | 0x004 => c.rth.toNat
  | 0x005 => c.akv.toNat
  | 0x008 => c.dsp.toNat
  | _ => c.dsh.toNat

/-- The writable bits of DSP and DSH (R19). -/
def dspMask : DWord := 0x1FFFFFFFFFFFFF0

/-- Writes one of them. A new pointer makes the cached top entry stale (R18). -/
def writeOwn (c : Ctx) (n : Nat) (x : DWord) : Ctx :=
  let w : Word := x.setWidth 32
  match n with
  | 0x000 => { c with flags := w &&& 0x7F }
  | 0x001 => { c with flmask := w &&& 0x1F }
  | 0x002 => { c with pidx := w }
  | 0x004 => { c with rth := w }
  | 0x005 => { c with akv := w &&& 3 }
  | 0x008 => { c with dsp := x &&& dspMask, top := none }
  | _ => { c with dsh := x &&& dspMask, top := none }

/-- The numbers of those registers. -/
def isOwnReg (n : Nat) : Bool := [0x000, 0x001, 0x002, 0x004, 0x005, 0x008, 0x009].contains n

/-! ## Registers of VF and device scope -/

/-- The numbers of VF scope (R172, R351). -/
def isVfReg (n : Nat) : Bool :=
  n == 0x003 || n == 0x030 || n == 0x04C || n == 0x050 || n == 0x100 || (decide (0x103 ≤ n) && decide (n ≤ 0x10C))

/-- The VF that HVFSEL names (R351). -/
def selectedVf (s : State) : Nat := devNat s 0x102 % 16

/-- The VF whose registers an instruction names (R172). -/
def regVf (s : State) : Nat := match s.g.mode with | .usr | .sup => s.g.who.vf | _ => selectedVf s

/-- The selected extent. -/
def selectedExt (s : State) : Nat := devNat s 0x198 % 64

/-- The selected peer. -/
def selectedPeer (s : State) : Nat := devNat s 0x1A0 % 128

/-- A register that does not belong to a context or a core: of the VF `vf` where it is of VF scope. -/
def readDev (s : State) (vf n : Nat) : Nat :=
  if n = 0x060 then s.tnow.toNat
  else if n = 0x061 then (dieCount s s.g.who.loc.die).toNat
  else if 0x199 ≤ n ∧ n ≤ 0x19B then extReg s (selectedExt s) (n - 0x199)
  else if n = 0x1A1 then peerReg s (selectedPeer s)
  else if isVfReg n then (vfReg s vf n).toNat
  else devNat s n

/-- The writable bits of the registers of VF and device scope without a behaviour of their own. -/
def devMask (n : Nat) : DWord :=
  if n = 0x003 ∨ n = 0x180 then 0xFFFF
  else if n = 0x030 ∨ n = 0x1CC then 3
  else if n = 0x04C ∨ n = 0x101 ∨ n = 0x1CF then 0x1FFFFFFFFFFFFFC
  else if n = 0x050 ∨ n = 0x100 then 0x81FFFFFFFFFFFFC0
  else if n = 0x102 ∨ n = 0x104 then 0xF
  else if n = 0x105 then 0xFFFFFFFF
  else if n = 0x107 then 0x1FFFFFF
  else if (0x108 ≤ n ∧ n ≤ 0x10C) ∨ n = 0x110 ∨ n = 0x1C2 ∨ n = 0x1C6 ∨ n = 0x1C8 ∨ n = 0x1CD then 0xFFFFFFFFFFF000
  else if n = 0x112 then 0xFFFFFFFFFFFFFF
  else if 0x184 ≤ n ∧ n ≤ 0x193 then (if n % 4 < 2 then 0xFFFFFFFFE00000 else 0xFFFFFFFFFFFFFF)
  else if n = 0x198 then 0x3F
  else if n = 0x1A0 then 0x7F
  else if n = 0x1C7 then 0xFFFFFFFFFFFFF
  else if 0x1E0 ≤ n ∧ n ≤ 0x1EF then (if n % 2 = 0 then 0x80FFFFFFFFFFF000 else 0xFFFFFFFFFFF000)
  else 0

/-- Stores the writable fields of a register (R6). -/
def storeFields (s : State) (vf n : Nat) (x : DWord) : State :=
  if isVfReg n then setVfReg s vf n (x &&& devMask n) else setDevReg s n (x &&& devMask n)

/-- A write of one of the four registers of range i (R357); while it is enabled only AMB is written. -/
def writeRange (s : State) (n : Nat) (x : DWord) : State :=
  let i := (n - 0x140) / 4
  let on := (devReg s (0x140 + 4 * i)).getLsbD 63
  if n % 4 = 0 then writeAmb s i x
  else if on then s
  else if n % 4 = 1 then setDevReg s n (x &&& 0xFFFFFFFFE00000)
  else if n % 4 = 2 then setDevReg s n ((x &&& 0xFFFFFFFFFEFFFF3F) ||| (devReg s n &&& 0x1000000))
  else setDevReg s n (x &&& 0xFFFFFFFFFFFFFF)

/-- A write of DCXB, DCXL or DCXS of the selected extent (R362). -/
def writeExtent (s : State) (n : Nat) (x : DWord) : State :=
  let i := selectedExt s
  if n = 0x19B then writeExtState s i (bits x.toNat 2 0)
  else if extState s i = 0 then setExt s i (n - 0x199) (x &&& 0xFFFFFFFFE00000).toNat
  else s

/-- A period register: a write of 0 is ignored (R369). -/
def writePeriod (s : State) (n : Nat) (x : DWord) : State :=
  if bits x.toNat 7 0 = 0 then s else setDevReg s n (x &&& 0xFF)

/-- A write of a register of VF or device scope. -/
def writeDev (s : State) (vf n : Nat) (x : DWord) : State :=
  if n = 0x103 then writeVfctl s vf x
  else if n = 0x106 then setVfReg s vf n ((x &&& 0xFFFF) ||| (vfReg s vf n &&& 0xFFFF0000))
  else if n = 0x111 then writeQctl s x
  else if 0x140 ≤ n ∧ n ≤ 0x17F then writeRange s n x
  else if n = 0x194 then writePoolcmd s x
  else if 0x199 ≤ n ∧ n ≤ 0x19B then writeExtent s n x
  else if n = 0x1A0 then (if 72 ≤ bits x.toNat 6 0 then s else storeFields s vf n x)
  else if n = 0x1C1 then writeMcmd s x
  else if n = 0x1C4 ∨ n = 0x1C5 then writePeriod s n x
  else if n = 0x1C9 then writePcap s x
  else if n = 0x1CE then writeAttreq s x
  else storeFields s vf n x

/-! ## A core's registers (R101) -/

/-- SLSTAT. -/
def slstat (s : State) (core : Nat) : Nat :=
  match headEntry s core with
  | none => 0
  | some e =>
    let blocked := e.waits || match translate s e.acc .store e.va with | .bad _ => true | .ok g => migBit g.pte || dupBit g.pte
    min (logUsed s core) 127 + (if blocked then 128 else 0) + 256 * (e.ident % 4096)

/-! ## Reads and writes by instructions -/

/-- A read of a register by the issuing context (R315). -/
def readSys (s : State) (n : Nat) : DWord :=
  BitVec.ofNat 64 (
    if isOwnReg n then readOwn s.g n
    else if isSeqReg n then seqReg s.g.seq n
    else if isTrapReg n then readTrap s.g.trap n
    else if n = 0x052 then slstat s (coreNum s.g.who.loc)
    else readDev s (regVf s) n)

/-- A write of a register by the issuing context (R315): read-only bits keep their value. -/
def writeSys (s : State) (n : Nat) (x : DWord) : State :=
  if isOwnReg n then { s with g := writeOwn s.g n x }
  else if isSeqReg n then { s with g := { s.g with seq := setSeqReg s.g.seq n x } }
  else if isTrapReg n then { s with g := { s.g with trap := writeTrap s.g.trap n x } }
  else if n = 0x053 then discardLog s (coreNum s.g.who.loc) (regVf s) x
  else writeDev s (regVf s) n x

/-- REGISTER_WRITE (R173, R348): a write that no instruction makes, to a register of VF scope, of the VF that HVFSEL names, or
of device scope, or to an offset of the fleet window, numbered from 0x1000 on. Numbers of other registers change nothing. -/
def execRegisterWrite (n : Nat) (x : DWord) (s : State) : Host.Outcome State Fault Refusal :=
  if 0x1000 ≤ n then .next (writeFleet s (n - 0x1000) x.toNat)
  else if isVfReg n || decide (0x101 ≤ n) then
    match regInfo n with
    | none => .next s
    | some r => if r.hyp.allows true || r.mch.allows true then .next (writeDev s (selectedVf s) n x) else .next s
  else .next s

end Sys2Proof.Machine
end

