-- ==== Sys2Proof/Machine/System.lean ====
section
/-! DEFINITION. System instructions (16; R311 to R325), and what happens between a group's issues: results that return, traps
decided and not yet taken, accesses issued once more, and words that are no instruction (07, R148 to R158, R188, R399). -/

namespace Sys2Proof.Machine

/-! ## Raising traps (R313) -/

/-- 0x0C below SUP (R312). -/
def supOnly (s : State) : List Nat := if s.g.mode = .usr then [0x0C] else []

/-- A form whose effect is a cause of fate A, with its immediate in TADDR. -/
def callForm (f : FmtI) (bad : List Nat) (cause : Nat) (s : State) : Host.Outcome State Fault Refusal :=
  issue s f.nas ⟨noAp s ++ bad, [], []⟩ fun s => .after s ⟨cause, .a, 0, active s, f.imm.setWidth 64, 0⟩

/-- GTRAP (R159, R313). -/
def execGtrap (f : FmtI) (s : State) : Host.Outcome State Fault Refusal :=
  let c := f.imm.toNat
  callForm f (if c < 256 then [] else [0x02]) (if deliverable c then c else 0x0F) s

/-- GECALL (R313). -/
def execGecall (f : FmtI) (s : State) : Host.Outcome State Fault Refusal := callForm f [] 0x10 s

/-- GHCALL (R312, R313). -/
def execGhcall (f : FmtI) (s : State) : Host.Outcome State Fault Refusal := callForm f (supOnly s) 0xC0 s

/-! ## The trap fence (R152) -/

/-- An engine command of the group still runs. -/
def runningCmd (s : State) : Bool :=
  s.en.cmds.any fun c => c.uid == s.g.who.uid && c.fault.isNone && !c.halted && !c.todo.isEmpty

/-- The arithmetic causes, in order, with their flags. -/
def flagCauses : List (Word × Nat) := [(flInv, 0x80), (flDz, 0x81), (flOf, 0x82), (flUf, 0x83), (flNx, 0x84)]

/-- The first flag that is set and enabled by FLMASK. -/
def flagCause (c : Ctx) : Option Nat := (flagCauses.find? fun x => x.1 &&& c.flags &&& c.flmask != 0).map (·.2)

/-- A cause that gtfence takes. -/
def fenceCause (s : State) (cause orig : Nat) (addr : DWord) : Res := .trap ⟨cause, .f, orig, active s, addr, 0⟩

/-- The access processor's fault that has not been delivered (R35). -/
def apFault (c : Ctx) : Option (Nat × DWord) :=
  match c.ap with
  | some a => (match a.run with | .faulted x addr false => some (x, addr) | _ => none)
  | none => none

/-- The tests of gtfence, in order. -/
def fenceTests (s : State) : Res :=
  if s.g.unres then fenceCause s 0x26 3 0
  else
    match apFault s.g, faultedCmd s none with
    | some (c, addr), _ => fenceCause s c 1 addr
    | none, some c => deliverCmd s c
    | none, none =>
      if (s.g.flags &&& 32) != 0 then fenceCause s 0x62 0 0
      else
        match flagCause s.g with
        | some c => fenceCause s c 0 0
        | none => .ok (completeStrong { s with g := { s.g with wins := [] } } s.g.ord 0xFFFFFFFF)

/-- GTFENCE (R152, R314). -/
def execGtfence (f : FmtR) (s : State) : Host.Outcome State Fault Refusal :=
  issue s f.nas ⟨noAp s, [], []⟩ fun s =>
    match goneStop s 0xFFFFFFFF with
    | some t => .stop t
    | none => if matrixBusy s s.g none || !(ownLog s).isEmpty || runningCmd s then .wait .held s else fenceTests s

/-! ## Return (R150) -/

/-- Step 1 of R150: the access processor or the engine command whose fault the handler had goes on. -/
def restartOrigin (s : State) : State :=
  let orig := bits s.g.trap.tcause.toNat 9 8
  if orig = 1 then
    match s.g.ap with
    | some a => { s with g := { s.g with ap := some { a with run := match a.run with | .faulted _ _ true => .running | r => r } } }
    | none => s
  else if orig = 2 then
    match s.g.cmdFault with
    | some (_, n) => { s with en := { s.en with cmds := mapWhere (fun c => c.num == n) (fun c => { c with halted := false }) s.en.cmds } }
    | none => s
  else s

/-- The return of the last handler path. The access of REPLAY issues before anything else. -/
def returnFrom (s : State) : State :=
  let t := s.g.trap
  let u := leaveHandler (restartOrigin { s with g := { s.g with wins := [] } })
  let u := { u with g := { u.g with redo := if t.tcause.getLsbD 15 then some (t.trpc.setWidth 57, t.tlanes) else none } }
  match settled u with
  | .ok v => v
  | .error _ => u

/-- GTRET (R150, R314). Lanes of the handler's own accesses that complete with 0x30 are a cause inside the handler. -/
def execGtret (f : FmtR) (s : State) : Host.Outcome State Fault Refusal :=
  issue s f.nas ⟨noAp s ++ (if hmode s.g then [] else [0x0C]), [], []⟩ fun s =>
    if (otherSlot s.g).valid || depthOf s.g.dsh != 0 then
      match settled (endPath s) with
      | .error e => haltRes s e
      | .ok t => .over t
    else
      match goneStop s 0xFFFFFFFF with
      | some t => .stop t
      | none => .over (returnFrom s)

/-! ## System registers (R315) -/

/-- The registers that a system register takes: a pair if it is 64 bits wide. -/
def regSize (n : Nat) : Nat := if regWide n then 2 else 1

/-- 0x02 and 0x0C of an access (R173). -/
def regBad (cause : Option Nat) : List Nat :=
  match cause with
  | some c => if c = 0xC2 then [] else [c]
  | none => []

/-- The cause of an access that reads, writes or does both; that of the write comes first. -/
def regAccess (s : State) (n : Nat) (read write : Bool) : Option Nat :=
  match if write then regCause s.g.mode n true else none with
  | some c => some c
  | none => if read then regCause s.g.mode n false else none

/-- GSRR (R315). -/
def execGsrr (f : FmtI) (s : State) : Host.Outcome State Fault Refusal :=
  let n := f.imm.toNat
  let c := regAccess s n true false
  issue s f.nas ⟨noAp s ++ regBad c ++ alignBad f.d (regSize n), [], codes f.d (regSize n)⟩ fun s =>
    if c = some 0xC2 then .trap (precise s 0xC2)
    else
      let x := readSys s n
      .ok (putUniforms s f.d.toNat (if regWide n then [loWord x, hiWord x] else [loWord x]))

/-- The word or pair of the first operand. -/
def regOperand (s : State) (os : List Opnd) (n : Nat) : DWord := if regWide n then uniPair s os 0 else (uni s os 0 0).setWidth 64

/-- The selector acts on the registers as they stood, and then the register is written. -/
def thenWrite (s s' : State) (nas : Nas) (n : Nat) (x : DWord) (after : State → State) : Res :=
  match applyNas (selectorMask s) s' nas with
  | .error e => haltRes s e
  | .ok t => .over (after (writeSys t n x))

/-- GSRW (R315). -/
def execGsrw (f : FmtI) (s : State) : Host.Outcome State Fault Refusal :=
  let n := f.imm.toNat
  let c := regAccess s n false true
  issue s f.nas ⟨noAp s ++ regBad c ++ kBad f.a (regSize n), codes f.a (regSize n), []⟩ fun s =>
    if c = some 0xC2 then .trap (precise s 0xC2)
    else
      match takeAll [(1, f.a, regSize n)] s with
      | .error e => portStop s e
      | .ok (os, s') => thenWrite s s' f.nas n (regOperand s os n) id

/-- gsrx: `op` has the old value and the operand. -/
def gsrxForm (f : FmtI) (op : DWord → DWord → DWord) (s : State) : Host.Outcome State Fault Refusal :=
  let n := f.imm.toNat
  let w := regSize n
  let c := regAccess s n true true
  issue s f.nas ⟨noAp s ++ regBad c ++ kBad f.d w ++ kBad f.a w, codes f.a w, codes f.d w⟩ fun s =>
    if c = some 0xC2 then .trap (precise s 0xC2)
    else
      match takeAll [(1, f.a, w)] s with
      | .error e => portStop s e
      | .ok (os, s') =>
        let old := readSys s n
        thenWrite s s' f.nas n (op old (regOperand s os n)) fun t =>
          putUniforms t f.d.toNat (if regWide n then [loWord old, hiWord old] else [loWord old])

/-- GSRX.SET (R315). -/
def execGsrxSet (f : FmtI) (s : State) : Host.Outcome State Fault Refusal := gsrxForm f (fun old x => old ||| x) s
/-- GSRX.CLR (R315). -/
def execGsrxClr (f : FmtI) (s : State) : Host.Outcome State Fault Refusal := gsrxForm f (fun old x => old &&& ~~~x) s

/-! ## Time (R317, R318) -/

/-- GTIME (R318). -/
def execGtime (f : FmtI) (s : State) : Host.Outcome State Fault Refusal :=
  issue s f.nas ⟨(if f.imm.toNat ≤ 1 then [] else [0x02]) ++ alignBad f.d 2, [], codes f.d 2⟩ fun s =>
    if !apRoom s (destKs f.d 2) then .wait .held s
    else
      let x := if f.imm = 0 then s.tnow else dieCount s s.g.who.loc.die
      .ok (putUniforms s f.d.toNat [loWord x, hiWord x])

/-- GSLEEP (R318): the group sleeps the count, and then the form completes. -/
def execGsleep (f : FmtI) (s : State) : Host.Outcome State Fault Refusal :=
  issue s f.nas ⟨noAp s ++ kBad f.a 1, codes f.a 1, []⟩ fun s =>
    match takeAll [(1, f.a, 1)] s with
    | .error e => portStop s e
    | .ok (os, _) => .wait (.sleep f (now s + (uni s os 0 0).toNat + f.imm.toNat)) s

/-- SLEEP_END (R318). -/
def execSleepEnd (vf ident : Nat) (other : Bool) (s : State) : Host.Outcome State Fault Refusal :=
  dueOr s (resume s vf ident other fun _ w =>
    match w with
    | .sleep f t => some (f.nas, ⟨[], codes f.a 1, []⟩, fun s =>
        if now s < t then .wait .held s
        else match takeAll [(1, f.a, 1)] s with | .error e => portStop s e | .ok (_, s') => .ok s')
    | _ => none)

/-- GWAITT (R318). -/
def execGwaitt (f : FmtR) (s : State) : Host.Outcome State Fault Refusal :=
  issue s f.nas ⟨noAp s ++ kBad f.d 1 ++ kBad f.a 2, codes f.a 2, codes f.d 1⟩ fun s =>
    match takeAll [(1, f.a, 2)] s with
    | .error e => portStop s e
    | .ok (os, s') =>
      let t := (uniPair s os 0).toNat
      if 999999999 < t % 2 ^ 30 then .trap (precise s 0x02)
      else if t ≤ s.tnow.toNat then .ok (putUniform s' f.d.toNat 1)
      else .wait (.deadline f t) s

/-- DEADLINE_REACHED (R318). -/
def execDeadlineReached (vf ident : Nat) (other : Bool) (s : State) : Host.Outcome State Fault Refusal :=
  dueOr s (deadlineEnd s vf ident other)

/-! ## Translations (R319, R320) -/

/-- The bits of address within a page of size SZ. -/
def invSize (sz : Nat) : Nat := if sz = 0 then 12 else if sz = 1 then 16 else if sz = 2 then 21 else 30

/-- An invalidation covers a translation of a VF under a root (R109, R319), which the context named made or whose context has that root: of the
page of an address, or of one that `shared` marks as every context's. -/
def Inval.covers (i : Inval) (s : State) (vf : Nat) (ident : Option Nat) (root va : Nat) (shared : Bool) : Bool :=
  let ofCtx := root == rootOf s ⟨i.tvf, i.ctx, .usr, 0⟩ || ident == some i.ctx
  vf == i.tvf &&
    (if i.kind = 0 then ofCtx && va >>> i.size == i.va >>> i.size
     else if i.kind = 1 then ofCtx
     else if i.kind = 2 then !shared
     else true)

/-- The head entry of the group's core waits for software to give it a translation, and so for this invalidation (R101). -/
def headAwaits (s : State) (i : Inval) : Bool :=
  logStuck s && match headEntry s (coreId s.g.who.loc) with
    | some e => i.covers s e.vf (some e.ident) (rootOf s e.acc) e.va false
    | none => false

/-- GTINV (R319): a release at domain scope, then an invalidation is accepted. It does not wait for a log whose head entry waits for
this very invalidation (R101; DEDUCED, notes/assumptions/73.md). -/
def execGtinv (f : FmtR) (s : State) : Host.Outcome State Fault Refusal :=
  issue s f.nas ⟨noAp s ++ supOnly s ++ kBad f.a 2 ++ kBad f.b 1, codes f.a 2 ++ codes f.b 1, []⟩ fun s =>
    match takeAll [(1, f.a, 2), (2, f.b, 1)] s with
    | .error e => portStop s e
    | .ok (os, s') =>
      let va := (uniPair s os 0).toNat
      let x := (uni s os 1 0).toNat
      let kind := bits x 1 0
      if bits x 31 20 ≠ 0 then .trap (precise s 0x02)
      else if kind = 0 ∧ 2 ^ 57 ≤ va then .trap { precise s 0x21 with addr := BitVec.ofNat 64 va }
      else
        let vf := match s.g.mode with | .usr | .sup => s.g.who.vf | _ => bits x 19 16
        let i : Inval := ⟨s.fresh + 1, s.g.who.uid, kind, bits x 15 4, va, invSize (bits x 3 2), vf⟩
        match releaseAfter s (headAwaits s i) with
        | some r => r
        | none =>
          let (_, t) := takeFresh (fenceRelease (uniteActive s') 6)
          .ok { t with en := { t.en with invals := t.en.invals ++ [i] } }

/-- GTSYNC (R320). -/
def execGtsync (f : FmtR) (s : State) : Host.Outcome State Fault Refusal :=
  issue s f.nas ⟨noAp s ++ supOnly s ++ kBad f.d 1, [], codes f.d 1⟩ fun s =>
    let me := s.g.who.uid
    if s.en.invals.any fun i => i.uid == me then .wait .held s
    else
      let t := { s with en := { s.en with cut := s.en.cut.filter (· != me) } }
      .ok (putUniform t f.d.toNat (if s.en.cut.contains me then 1 else 0))

/-- A cached translation is covered by an invalidation (R109, R319). -/
def covers (s : State) (i : Inval) (e : TlbEntry) : Bool := i.covers s e.vf e.ident e.root (e.vpn * 4096) (e.pte.getLsbD 4)

/-- A side-log entry is translated again after an invalidation of its page (R101, R109). -/
def unwaited (s : State) (i : Inval) (e : LogEntry) : LogEntry :=
  if i.covers s e.vf (some e.ident) (rootOf s e.acc) e.va false then { e with waits := false } else e

/-- The dirty sectors that a dropped translation led to are written back (R109). -/
def writeBack (s : State) (e : TlbEntry) : State :=
  recallFrames s (leafPa s (e.vpn * 4096) e.level e.pte.toNat / 4096) 1

/-- INVALIDATION_COMPLETE (R109, R320): every agent has dropped what the invalidation covers, a gtinv's or the Ladle's (R102); `cut` says that
some agent was unreachable. -/
def execInvalidationComplete (n : Nat) (cut : Bool) (s : State) : Host.Outcome State Fault Refusal :=
  match s.en.invals.find? fun i => i.num == n with
  | none => dueOr s ((s.ld.moves.find? fun m => m.inv == n && (m.phase == 1 || m.phase == 3)).map (moveInvalidated s))
  | some i =>
    let me := i.uid
    let t := (s.ms.tlb.filter (covers s i)).foldl writeBack s
    .next { t with
      ms := { t.ms with tlb := t.ms.tlb.filter (fun e => !covers s i e), log := t.ms.log.map (unwaited s i) }
      en := { t.en with
        saved := t.en.saved.map fun x => { x with log := x.log.map (unwaited s i) }
        invals := t.en.invals.filter fun x => x.num != n
        cut := if cut && !t.en.cut.contains me then t.en.cut ++ [me] else t.en.cut } }

/-! ## Context save and restore (R321, R322) -/

/-- The causes of a save that stand before those of its area: 0x24. -/
def areaAlign (va : Nat) : List Nat := if va % 64 = 0 then [] else [0x24]

/-- A cause of a save area: a misaligned area has its address (R147). -/
def areaCause (va c : Nat) : Halt := .cause c (if c = 0x24 then va else 0)

/-- The keys of an area's first `n` bytes, or the cause that R154 chooses among `others` and those of the translation. -/
def areaKeys (s : State) (u : Use) (va n : Nat) (others : List Nat) : Except Halt (List Nat × State) :=
  match vaKeys s (accOf s.g) u va n with
  | .ok r => (match firstCause (areaAlign va ++ others) with | some c => .error (areaCause va c) | none => .ok r)
  | .error (.cause c at_) =>
    (match firstCause (areaAlign va ++ others ++ [c]) with
     | some e => .error (if e = c then .cause c at_ else areaCause va e)
     | none => .error (.cause c at_))
  | .error (.hold pte) =>
    (match firstCause (areaAlign va ++ others) with | some c => .error (areaCause va c) | none => .error (.hold pte))

/-- 0x0B for a progress point beyond the last (R153, R321). -/
def progressBad (s : State) (last : Nat) : List Nat := if s.g.pidx.toNat ≤ last then [] else [0x0B]

/-- Remembers a context that an instruction saved, in place of an older one at the same area. -/
def noteSaved (s : State) (c : Ctx) (area : Nat) : State :=
  { s with en := { s.en with saved := s.en.saved.filter (fun y => y.by_ != 0 || y.area != area) ++ [savedOf s c area 0 0] } }

/-- A context leaves its place after an instruction saved it: it ends for its gang (R16, R321), with what is before its end (R73). -/
def leaveSaved (s : State) (c : Ctx) : State :=
  let s := parkCtx (dropMatrix s c.who.vf c.who.ident) c.who.vf c.who.ident
  let s := { s with en := { s.en with resting := s.en.resting.filter fun x => x.1 != c.who.uid } }
  match c.who.gang with
  | some g => endGang (noteEnd s g (ctxIds c)) g
  | none => s

/-- A save has reached its last progress point: the rest of the area is not written (R321). -/
def lastPart (c : Ctx) (p : Nat) : Bool := decide (areaEnd c ≤ 1024 * (p + 1))

/-- Writes the bytes of an area up to the progress point after `p` (R321). -/
def savePart (s : State) (c : Ctx) (keys : List Nat) (p : Nat) : State :=
  putArea s c (fun i => keys.getD i 0) (1024 * p) (1024 * (p + 1))

/-- The issuing group has reached a progress point, and goes on from there (R153): `target` stays at rest meanwhile. -/
def reached (s : State) (p target : Nat) : State :=
  let rest := (target, s.g.who.uid)
  { s with
    g := { s.g with pidx := BitVec.ofNat 32 p, waitCnt := 0, stamp := some (now s) }
    en := { s.en with resting := s.en.resting.filter (· != rest) ++ [rest] } }

/-- Another group saves a context. -/
def savedByOther (s : State) (uid : Nat) : Bool := s.en.resting.any fun x => x.1 == uid && x.2 != s.g.who.uid

/-- A self save may begin (R321). -/
def selfSavable (c : Ctx) (nas : Nas) : Bool :=
  !c.iss && !c.s1.valid && depthOf c.dsp == 0 && !hmode c && nas == .seq

/-- GCTXSV (R321): the group saves itself, from one progress point to the next at each issue, and ends. The release of the save is not
checked by SCOPEPOL, which R70 applies to scopes that instructions name (DESIGN CHOICE, notes/assumptions/96.md). -/
def execGctxsv (f : FmtE) (s : State) : Host.Outcome State Fault Refusal :=
  issue s f.nas ⟨noAp s ++ supOnly s ++ kBad f.d 1 ++ kBad f.a 2, codes f.a 2, []⟩ fun s =>
    match takeAll [(1, f.a, 2)] s with
    | .error e => portStop s e
    | .ok (os, s') =>
      let bad := progressBad s 44 ++ if selfSavable s.g f.nas then [] else [0x6D]
      match areaKeys s' .store (uniPair s os 0).toNat (areaEnd s.g) bad with
      | .error e => haltRes s e
      | .ok (keys, t) =>
        let p := s.g.pidx.toNat
        let rest (x : State) : State := bringToRest (uniteActive x) false s.g.who.vf s.g.who.ident
        let c := { (issued (setPc (rest t) (curPc s + 4))).g with pidx := 0 }
        if lastPart c p then .over (leaveSaved (noteSaved (savePart (rest t) c keys p) c (keys.headD 0)) c)
        else .stop (reached (savePart (rest { t with g := s.g }) c keys p) (p + 1) s.g.who.uid)

/-- GCTXSV.TARGET (R321), which likewise goes from point to point. A target that another group saves already waits for that (R324). -/
def execGctxsvTarget (f : FmtE) (s : State) : Host.Outcome State Fault Refusal :=
  issue s f.nas ⟨noAp s ++ supOnly s ++ kBad f.d 1 ++ kBad f.a 2, codes f.d 1 ++ codes f.a 2, codes f.d 1⟩ fun s =>
    match takeAll [(0, f.d, 1), (1, f.a, 2)] s with
    | .error e => portStop s e
    | .ok (os, s') =>
      let vf := s.g.who.vf
      let ident := bits (uni s os 0 0).toNat 11 0
      let p := s.g.pidx.toNat
      let done (t : State) (x : Word) : Res :=
        .ok (uniWindow s (putUniform { t with g := { t.g with pidx := 0 } } f.d.toNat x) f.la (codes f.d 1) (destKeys s f.d 1))
      match ctxOf s vf ident with
      | none =>
        (match firstCause (areaAlign (uniPair s os 1).toNat ++ progressBad s 44) with
         | some c => haltRes s (areaCause (uniPair s os 1).toNat c)
         | none => done s' 1)
      | some c =>
        let bad := progressBad s 44 ++ if ident = s.g.who.ident ∨ c.who.origin = .gang then [0x6D] else []
        match areaKeys s' .store (uniPair s os 1).toNat (areaEnd c) bad with
        | .error e => haltRes s e
        | .ok (keys, t) =>
          if savedByOther s c.who.uid then .wait .held s
          else
            let t := bringToRest (uniteActive t) false vf ident
            match ctxOf t vf ident with
            | none => done t 1
            | some c =>
              let t := savePart t c keys p
              if lastPart c p then done (leaveSaved (noteSaved t c (keys.headD 0)) c) 0
              else .stop (reached { t with g := s.g } (p + 1) c.who.uid)

/-- Who a restored group is: of the gang and team it was saved from, if they still stand. Of an area that the device has not saved at
this address it knows the origin alone: a group of any origin but GANG is then of the class that may not block (R38, R59; DESIGN
CHOICE, notes/assumptions/86.md). A save that has been restored already makes another group. -/
def loadedWho (s : State) (old : Option Saved) (origin : Origin) (ident : Nat) (loc : Loc) : Who × State :=
  let (tid, t) := takeFresh s
  match old with
  | some x =>
    let gang := if s.wk.gangs.any fun g => some g.num == x.who.gang then x.who.gang else none
    (⟨s.g.who.vf, ident, loc, origin, x.who.recClass, gang, if gang.isSome then x.who.team else none, x.who.teamId, x.who.gidx,
      x.who.join, if x.who.uid = 0 then tid else x.who.uid⟩, t)
  | none => (⟨s.g.who.vf, ident, loc, origin, origin != .gang, none, none, tid, 0, 0, tid⟩, t)

/-- What the engines do for a saved group goes on under its new identifier (R157): its commands, and a repair that it measures. -/
def takeCmds (s : State) (x : Saved) (who : Who) : State :=
  let mine (r : Repair) : Bool := r.vf == x.who.vf && r.ident == x.who.ident && r.stage == .measure
  let s := { s with en := { s.en with
    cmds := mapWhere (ownCmd who.uid) (fun c => { c with ident := who.ident }) s.en.cmds
    repairs := mapWhere mine (fun r => { r with ident := who.ident }) s.en.repairs } }
  resumeCmds s { x with who := who }

/-- The saved writes of a note are entered again once, and one group goes on. -/
def spendNote (s : State) (old : Option Saved) : State :=
  match old with
  | some x =>
    let spent (x : Saved) : Saved := { x with log := [], who := { x.who with uid := 0 } }
    { s with en := { s.en with saved := mapWhere (· == x) spent s.en.saved } }
  | none => s

/-- Restores the area at these keys into a free context of the issuing core: its identifier, if there is room. -/
def loadAt (s : State) (keys : List Nat) (held : Nat) : Option (Nat × State) :=
  let rd := areaReader s (fun i => keys.getD i 0)
  let h := rd 0 4
  let core := coreNum s.g.who.loc
  match loadPart s core held, freeIdent s s.g.who.vf with
  | some part, some ident =>
    let old := s.en.saved.find? fun x => x.by_ == 0 && x.area == keys.headD 0
    let (who, t) := loadedWho s old (originOf (bits h 22 21)) ident (locOf core part (freeNum s core part))
    let mode := match old with | some x => x.mode | none => if bit h 8 then .sup else .usr
    let ids := distinct ((match old with | some x => x.ids | none => []) ++ knownIds s.g.ord (active s))
    let num := (freeAp s core part 0).getD apWanted
    let c := ctxOfArea rd who mode num (match old with | some x => x.apAddr | none => 0) ids
    let c := match old with | some x => withKept c x | none => c
    let t := spendNote (copyEntry t s.g.who.vf s.g.who.ident ident) old
    let (t, c) := logOfArea rd t c (match old with | some x => x.log | none => [])
    let t := rereadTop (addCtx t c) s.g.who.vf ident
    some (ident, match old with | some x => takeCmds t x who | none => t)
  | _, _ => none

/-- GCTXLD (R322). -/
def execGctxld (f : FmtE) (s : State) : Host.Outcome State Fault Refusal :=
  issue s f.nas ⟨noAp s ++ supOnly s ++ (if f.c = 0 then [] else [0x02]) ++ kBad f.d 1 ++ kBad f.a 2, codes f.a 2, codes f.d 1⟩
    fun s =>
      match takeAll [(1, f.a, 2)] s with
      | .error e => portStop s e
      | .ok (os, s') =>
        let va := (uniPair s os 0).toNat
        let scalar := s.g.who.loc.die == 2
        match areaKeys s' .load va 64 [] with
        | .error e => haltRes s e
        | .ok (head, _) =>
          let h := homeNat s' (head.take 4)
          let held := min (bits h 13 10) 8
          let bad := (if h % 256 = 1 then [] else [0x02]) ++ progressBad s 0 ++
            if originOf (bits h 22 21) = .gang ∨ (scalar ∧ (bit h 9 ∨ held ≠ 0)) then [0x6D] else []
          match areaKeys s' .load va (0x3000 + 4096 * held) bad with
          | .error e => haltRes s e
          | .ok (keys, t) =>
            let t := uniteActive t
            let (x, t) : Word × State := match loadAt t keys held with
              | some (ident, u) => (BitVec.ofNat 32 (ident * 65536), u)
              | none => (1, t)
            .ok (uniWindow s (putUniform t f.d.toNat x) f.la (codes f.d 1) (destKeys s f.d 1))

/-! ## Halt (R323) -/

/-- GHALT (R312, R323): every context of the core is brought to rest. -/
def execGhalt (f : FmtR) (s : State) : Host.Outcome State Fault Refusal :=
  issue s f.nas ⟨noAp s ++ (if s.g.mode = .mch then [] else [0x0C]), [], []⟩ fun s =>
    match applyNas (selectorMask s) s f.nas with
    | .error e => haltRes s e
    | .ok t =>
      let core := coreNum s.g.who.loc
      let ws := ((allCtx t).filter fun c => coreNum c.who.loc == core).map (·.who)
      let t := ws.foldl (fun t w => bringToRest t false w.vf w.ident) (issued t)
      .over { t with mg := { t.mg with cores := t.mg.cores.filter (· != core) ++ [core] } }

/-! ## Between issues -/

/-- RESULT_RETURN (R151, R170, R240): window `win` of a context closes, those of its access processor counted after the group's
own; lanes that complete with 0x30 take their trap. -/
def execResultReturn (vf ident win : Nat) (s : State) : Host.Outcome State Fault Refusal :=
  let drop (ws : List Window) (i : Nat) : List Window := ws.take i ++ ws.drop (i + 1)
  match ctxOf s vf ident with
  | none => .next s
  | some c =>
    match c.wins[win]?, c.ap with
    | some w, _ =>
      dueOr s (onCtx s vf ident fun t =>
        let t := setG t { t.g with wins := drop c.wins win }
        if w.gone = 0 then t else takeGone t w)
    | none, some a =>
      if win - c.wins.length < a.wins.length then
        dueOr s (onCtx s vf ident fun t =>
          setG t { t.g with ap := some { a with wins := drop a.wins (win - c.wins.length) } })
      else .next s
    | none, none => .next s

/-- The fate that a save area names (R158). -/
def fateOf (n : Nat) : Fate := if n = 0 then .a else if n = 1 then .c else .f

/-- The trap that a context takes before its next issue outside a handler (R155, R399): a cause decided before a save, else the
oldest pending replay after the access that gtret re-issues. -/
def dueTrap (c : Ctx) : Option (Pend × Ctx) :=
  if hmode c then none
  else
    match c.pend, c.replays with
    | some p, _ => some (p, { c with pend := none })
    | none, p :: t => if c.redo.isSome then none else some (p, { c with replays := t })
    | none, [] => none

/-- How a memory form addresses (R171, R230, R286): whether it is a lane form, its space, its size, and whether [4:0] is an
offset. -/
structure AddrForm where
  lane : Bool
  vt : Bool
  z : Nat
  off : Bool
deriving DecidableEq, Repr

/-- The forms of the lane grid that access memory and may be replayed (R182). -/
def laneAddrForm (op : Nat) : Option AddrForm :=
  let pow (i : Nat) : Nat := 2 ^ i
  if 0x40 ≤ op ∧ op ≤ 0x43 then some ⟨true, false, (op - 0x40) / 2 + 1, true⟩
  else if 0x44 ≤ op ∧ op ≤ 0x46 then some ⟨true, false, pow (op - 0x42), true⟩
  else if 0x48 ≤ op ∧ op ≤ 0x4C then some ⟨true, true, pow (op - 0x48), true⟩
  else if 0x50 ≤ op ∧ op ≤ 0x54 then some ⟨true, false, pow (op - 0x50), true⟩
  else if 0x55 ≤ op ∧ op ≤ 0x59 then some ⟨true, true, pow (op - 0x55), true⟩
  else if 0x5A ≤ op ∧ op ≤ 0x5E then some ⟨true, false, pow (op - 0x5A), false⟩
  else if 0x60 ≤ op ∧ op ≤ 0x64 then some ⟨true, false, pow (op - 0x60), false⟩
  else if op = 0x5F ∨ op = 0x65 then some ⟨true, true, 4, false⟩
  else if op = 0x67 ∨ op = 0x69 ∨ op = 0x6B ∨ op = 0x75 then some ⟨true, false, 8, false⟩
  else if 0x66 ≤ op ∧ op ≤ 0x78 then some ⟨true, false, 4, false⟩
  else none

/-- The forms of the group grid that access memory and may be replayed (R185). -/
def groupAddrForm (op : Nat) : Option AddrForm :=
  if 0x30 ≤ op ∧ op ≤ 0x37 then some ⟨false, bit op 1, if bit op 0 then 8 else 4, true⟩
  else if op = 0x39 ∨ op = 0x3C ∨ op = 0x41 ∨ op = 0x4A then some ⟨false, false, 8, false⟩
  else if op = 0x3A ∨ op = 0x3D then some ⟨false, true, 4, false⟩
  else if op = 0x38 ∨ op = 0x3B ∨ (0x40 ≤ op ∧ op ≤ 0x49) then some ⟨false, false, 4, false⟩
  else none

/-- The form of a word that accesses memory. -/
def addrForm (w : Word) : Option AddrForm :=
  if bit w.toNat 31 then groupAddrForm (bits w.toNat 27 21) else laneAddrForm (bits w.toNat 27 21)

/-- The address that a memory form forms for a lane. -/
def formAddr (s : State) (f : AddrForm) (w : Word) (l : Nat) : Option Nat :=
  match takeAll [(1, w.extractLsb' 9 6, if f.vt then 1 else 2)] s with
  | .error _ => none
  | .ok (os, _) => some (laneVa s (os.getD 0 (.k [])) f.vt f.z (if f.off then w.extractLsb' 0 5 else 0) (if f.lane then l else 0))

/-- The address that VKVLD forms for a lane (R257). -/
def kvAddr (s : State) (w : Word) (l : Nat) : Option Nat :=
  match takeAll [(1, w.extractLsb' 9 6, 4)] s with
  | .error _ => none
  | .ok (os, _) =>
    let w3 := (uni s os 0 3).toNat
    match partOfBlock (accOf s.g) (uniPair s os 0).toNat (uni s os 0 2).toNat (bits w3 7 0) (bits w3 8 8) s with
    | .error _ => none
    | .ok ((base, words), _) => some (partWord base words w3 (w.extractLsb' 0 5).toInt l)

/-- TADDR of a pending replay (R399): the address that the access at `pc` forms for the lowest of the lanes `m` from the registers
as they now stand. An access that is no form of its own, and one that cannot be read again, keeps the address `old` that it had
(notes/assumptions/63.md). -/
def replayAddr (s : State) (pc : Addr) (m : Mask) (old : DWord) : DWord :=
  match translate s (accOf s.g) .fetch pc.toNat with
  | .bad _ => old
  | .ok p =>
    let w : Word := BitVec.ofNat 32 (physNat s (p.pa + pc.toNat % 4096) 4)
    let va := if bit w.toNat 31 || bits w.toNat 27 21 != 0x4D then (addrForm w).bind fun f => formAddr s f w (lowest m)
      else kvAddr s w (lowest m)
    (va.map (BitVec.ofNat 64)).getD old

/-- The raise of a pending cause (R155, R399). -/
def pendRaise (s : State) (p : Pend) : Raise :=
  ⟨p.cause, fateOf p.fate, if p.cause = 0x26 then 3 else 0, p.lanes,
    if p.cause = 0x30 then replayAddr s p.pc p.lanes p.addr else p.addr, p.pc⟩

/-- TRAP_ENTRY (R148, R155, R399). -/
def execTrapEntry (vf ident : Nat) (s : State) : Host.Outcome State Fault Refusal :=
  match ctxOf s vf ident with
  | none => .next s
  | some c =>
    match dueTrap c with
    | none => .next s
    | some (p, d) =>
      dueOr s (onCtx s vf ident fun t =>
        takeLate (setG t d) (pendRaise (setG t d) p) false p.lanes p.lanes)

/-! ## Words -/

/-- The slots of the opcode grids that no form has (R182, R185). -/
def unassignedSlot (w : Word) : Bool :=
  let op := bits w.toNat 27 21
  if bit w.toNat 31 then op == 0x2F else op == 0x4F || op == 0x7F

/-- WORD_NOT_INSTRUCTION (R188, R397): a fetched word that is no instruction raises 0x01 in an unassigned slot, and else
0x02. -/
def execWordNotInstruction (w : Word) (s : State) : Host.Outcome State Fault Refusal :=
  issue s .seq ⟨[if unassignedSlot w then 0x01 else 0x02], [], []⟩ fun s => .ok s

/-- The cause of fetching at the pc (R150, R159), with the address that it reports. -/
def fetchCause (s : State) : Option (Nat × DWord) :=
  let pc := curPc s
  if pc.toNat % 4 ≠ 0 then some (0x01, 0)
  else
    match translate s (accOf s.g) .fetch pc.toNat with
    | .ok _ => none
    | .bad cs =>
      let c := (firstCause cs).getD 0x21
      some (if c = 0x21 then 0x20 else if c = 0x22 then 0x23 else c, pc.setWidth 64)

/-- FETCH_TRANSLATION_FAULT (R159): the fetch of the next instruction fails. -/
def execFetchTranslationFault (s : State) : Host.Outcome State Fault Refusal :=
  if !s.g.live then .fault (.noGroup none)
  else
    match fetchCause s with
    | none => .next s
    | some (c, addr) => .next (raiseNow s { precise s c with addr := addr } (active s))

/-- The word at the pc, and the translation it used, marked. -/
def fetchWord (s : State) : Word × State :=
  let pc := (curPc s).toNat
  match translate s (accOf s.g) .fetch pc with
  | .bad _ => (0, s)
  | .ok p => (BitVec.ofNat 32 (physNat s (p.pa + pc % 4096) 4), noteWalk s (accOf s.g) .fetch pc p)

/-- The access that gtret issues once more is about to issue (R150 step 4): one path of those lanes at its pc. -/
def redoStart (s : State) (pc : Addr) (m : Mask) : State :=
  { s with onAp := false, g := { s.g with redo := none, s0 := ⟨true, pc, m, .none⟩, s1 := emptySlot, iss := false } }

/-- After that access (`t`), the group's paths and sequencing are those of before (`s`). A cause taken before it was
performed leaves it to be issued once more at the next gtret; while it waits, it stays to be issued. A cause is that of the path which
holds its lanes now (R147, R148). -/
def redoFinish (s t : State) (pc : Addr) (m : Mask) : State :=
  let c := s.g
  let u := t.g
  if !u.live || u.endCause.isSome || u.who.ident != c.who.ident then t
  else if hmode u then
    let done := u.trap.tcause.getLsbD 10 || u.trap.tcause.getLsbD 15
    let trap := { u.trap with
      tepc0 := tepcOf c.s0, tepc1 := tepcOf c.s1, tmsk0 := c.s0.mask, tmsk1 := c.s1.mask
      tcause := ((if done then u.trap.tcause else u.trap.tcause ||| 0x8000) &&& ~~~(0x800 : Word)) |||
        (if raisingSlot c c.iss m then 0x800 else 0)
      trpc := if done then u.trap.trpc else pc.setWidth 64
      tlanes := if done then u.trap.tlanes else m }
    setG t { u with trap := trap, seq := c.seq, dsp := c.dsp, s0 := { u.s0 with mask := raisingMask c c.iss m m } }
  else
    let again := if u.s0.wait = .none then none else some (pc, m)
    setG t { u with s0 := c.s0, s1 := c.s1, iss := c.iss, seq := c.seq, dsp := c.dsp, top := none, redo := again }

end Sys2Proof.Machine
end

