-- ==== Sys2Proof/Machine/Dispatch.lean ====
section
/-! DEFINITION. The meaning of every instruction and of every step of the device: one arm each. -/

namespace Sys2Proof.Machine

/-- What an instruction does. -/
def exec (i : Instr) (s : State) : Host.Outcome State Fault Refusal :=
  match i with
  | .vadd f => Sys2Proof.Machine.execVadd f s
  | .vsub f => Sys2Proof.Machine.execVsub f s
  | .vmul f => Sys2Proof.Machine.execVmul f s
  | .vmulhs f => Sys2Proof.Machine.execVmulhs f s
  | .vmulhn f => Sys2Proof.Machine.execVmulhn f s
  | .vmins f => Sys2Proof.Machine.execVmins f s
  | .vminn f => Sys2Proof.Machine.execVminn f s
  | .vmaxs f => Sys2Proof.Machine.execVmaxs f s
  | .vmaxn f => Sys2Proof.Machine.execVmaxn f s
  | .vand f => Sys2Proof.Machine.execVand f s
  | .vor f => Sys2Proof.Machine.execVor f s
  | .vxor f => Sys2Proof.Machine.execVxor f s
  | .vshl f => Sys2Proof.Machine.execVshl f s
  | .vshr f => Sys2Proof.Machine.execVshr f s
  | .vsar f => Sys2Proof.Machine.execVsar f s
  | .vsel f => Sys2Proof.Machine.execVsel f s
  | .vadd64 f => Sys2Proof.Machine.execVadd64 f s
  | .vsub64 f => Sys2Proof.Machine.execVsub64 f s
  | .vclz f => Sys2Proof.Machine.execVclz f s
  | .vpopc f => Sys2Proof.Machine.execVpopc f s
  | .vbfx f => Sys2Proof.Machine.execVbfx f s
  | .vbfi f => Sys2Proof.Machine.execVbfi f s
  | .vaddi f => Sys2Proof.Machine.execVaddi f s
  | .vandi f => Sys2Proof.Machine.execVandi f s
  | .vori f => Sys2Proof.Machine.execVori f s
  | .vxori f => Sys2Proof.Machine.execVxori f s
  | .vshli f => Sys2Proof.Machine.execVshli f s
  | .vshri f => Sys2Proof.Machine.execVshri f s
  | .vsari f => Sys2Proof.Machine.execVsari f s
  | .vmovi f => Sys2Proof.Machine.execVmovi f s
  | .vcmps f => Sys2Proof.Machine.execVcmps f s
  | .vcmpn f => Sys2Proof.Machine.execVcmpn f s
  | .vfadd f => Sys2Proof.Machine.execVfadd f s
  | .vfsub f => Sys2Proof.Machine.execVfsub f s
  | .vfmul f => Sys2Proof.Machine.execVfmul f s
  | .vfma f => Sys2Proof.Machine.execVfma f s
  | .vfmin f => Sys2Proof.Machine.execVfmin f s
  | .vfmax f => Sys2Proof.Machine.execVfmax f s
  | .vfcmp f => Sys2Proof.Machine.execVfcmp f s
  | .vmop f => Sys2Proof.Machine.execVmop f s
  | .vhaddBf16x2 f => Sys2Proof.Machine.execVhaddBf16x2 f s
  | .vhaddF16x2 f => Sys2Proof.Machine.execVhaddF16x2 f s
  | .vhmulBf16x2 f => Sys2Proof.Machine.execVhmulBf16x2 f s
  | .vhmulF16x2 f => Sys2Proof.Machine.execVhmulF16x2 f s
  | .vhfmaBf16x2 f => Sys2Proof.Machine.execVhfmaBf16x2 f s
  | .vhfmaF16x2 f => Sys2Proof.Machine.execVhfmaF16x2 f s
  | .vfsgnBf16x2 f => Sys2Proof.Machine.execVfsgnBf16x2 f s
  | .vfsgnF16x2 f => Sys2Proof.Machine.execVfsgnF16x2 f s
  | .vrcp f => Sys2Proof.Machine.execVrcp f s
  | .vrsq f => Sys2Proof.Machine.execVrsq f s
  | .vsqrt f => Sys2Proof.Machine.execVsqrt f s
  | .vexp2 f => Sys2Proof.Machine.execVexp2 f s
  | .vlog2 f => Sys2Proof.Machine.execVlog2 f s
  | .vtrigSinpi f => Sys2Proof.Machine.execVtrigSinpi f s
  | .vtrigCospi f => Sys2Proof.Machine.execVtrigCospi f s
  | .vcvt f => Sys2Proof.Machine.execVcvt f s
  | .vpk f => Sys2Proof.Machine.execVpk f s
  | .vq4dec f => Sys2Proof.Machine.execVq4dec f s
  | .vshfl f => Sys2Proof.Machine.execVshfl f s
  | .vshflx f => Sys2Proof.Machine.execVshflx f s
  | .vlane f => Sys2Proof.Machine.execVlane f s
  | .vred f => Sys2Proof.Machine.execVred f s
  | .vscan f => Sys2Proof.Machine.execVscan f s
  | .vvote f => Sys2Proof.Machine.execVvote f s
  | .vldGlS8 f => Sys2Proof.Machine.execVldGlS8 f s
  | .vldGlN8 f => Sys2Proof.Machine.execVldGlN8 f s
  | .vldGlS16 f => Sys2Proof.Machine.execVldGlS16 f s
  | .vldGlN16 f => Sys2Proof.Machine.execVldGlN16 f s
  | .vldGlN32 f => Sys2Proof.Machine.execVldGlN32 f s
  | .vldGlN64 f => Sys2Proof.Machine.execVldGlN64 f s
  | .vldGlN128 f => Sys2Proof.Machine.execVldGlN128 f s
  | .vprf f => Sys2Proof.Machine.execVprf f s
  | .vldVtN8 f => Sys2Proof.Machine.execVldVtN8 f s
  | .vldVtN16 f => Sys2Proof.Machine.execVldVtN16 f s
  | .vldVtN32 f => Sys2Proof.Machine.execVldVtN32 f s
  | .vldVtN64 f => Sys2Proof.Machine.execVldVtN64 f s
  | .vldVtN128 f => Sys2Proof.Machine.execVldVtN128 f s
  | .vkvld f => Sys2Proof.Machine.execVkvld f s
  | .vdev f => Sys2Proof.Machine.execVdev f s
  | .vstGlN8 f => Sys2Proof.Machine.execVstGlN8 f s
  | .vstGlN16 f => Sys2Proof.Machine.execVstGlN16 f s
  | .vstGlN32 f => Sys2Proof.Machine.execVstGlN32 f s
  | .vstGlN64 f => Sys2Proof.Machine.execVstGlN64 f s
  | .vstGlN128 f => Sys2Proof.Machine.execVstGlN128 f s
  | .vstVtN8 f => Sys2Proof.Machine.execVstVtN8 f s
  | .vstVtN16 f => Sys2Proof.Machine.execVstVtN16 f s
  | .vstVtN32 f => Sys2Proof.Machine.execVstVtN32 f s
  | .vstVtN64 f => Sys2Proof.Machine.execVstVtN64 f s
  | .vstVtN128 f => Sys2Proof.Machine.execVstVtN128 f s
  | .vldsGlN8 f => Sys2Proof.Machine.execVldsGlN8 f s
  | .vldsGlN16 f => Sys2Proof.Machine.execVldsGlN16 f s
  | .vldsGlN32 f => Sys2Proof.Machine.execVldsGlN32 f s
  | .vldsGlN64 f => Sys2Proof.Machine.execVldsGlN64 f s
  | .vldsGlN128 f => Sys2Proof.Machine.execVldsGlN128 f s
  | .vldsVtN32 f => Sys2Proof.Machine.execVldsVtN32 f s
  | .vstsGlN8 f => Sys2Proof.Machine.execVstsGlN8 f s
  | .vstsGlN16 f => Sys2Proof.Machine.execVstsGlN16 f s
  | .vstsGlN32 f => Sys2Proof.Machine.execVstsGlN32 f s
  | .vstsGlN64 f => Sys2Proof.Machine.execVstsGlN64 f s
  | .vstsGlN128 f => Sys2Proof.Machine.execVstsGlN128 f s
  | .vstsVtN32 f => Sys2Proof.Machine.execVstsVtN32 f s
  | .vxchgN32 f => Sys2Proof.Machine.execVxchgN32 f s
  | .vxchgN64 f => Sys2Proof.Machine.execVxchgN64 f s
  | .vcasN32 f => Sys2Proof.Machine.execVcasN32 f s
  | .vcasN64 f => Sys2Proof.Machine.execVcasN64 f s
  | .vatomAddN32 f => Sys2Proof.Machine.execVatomAddN32 f s
  | .vatomAddN64 f => Sys2Proof.Machine.execVatomAddN64 f s
  | .vatomAddF32 f => Sys2Proof.Machine.execVatomAddF32 f s
  | .vatomAndN32 f => Sys2Proof.Machine.execVatomAndN32 f s
  | .vatomOrN32 f => Sys2Proof.Machine.execVatomOrN32 f s
  | .vatomXorN32 f => Sys2Proof.Machine.execVatomXorN32 f s
  | .vatomMinS32 f => Sys2Proof.Machine.execVatomMinS32 f s
  | .vatomMinN32 f => Sys2Proof.Machine.execVatomMinN32 f s
  | .vatomMaxS32 f => Sys2Proof.Machine.execVatomMaxS32 f s
  | .vatomMaxN32 f => Sys2Proof.Machine.execVatomMaxN32 f s
  | .vredMAddN32 f => Sys2Proof.Machine.execVredMAddN32 f s
  | .vredMAddN64 f => Sys2Proof.Machine.execVredMAddN64 f s
  | .vredMAddF32 f => Sys2Proof.Machine.execVredMAddF32 f s
  | .vredMMinS32 f => Sys2Proof.Machine.execVredMMinS32 f s
  | .vredMMaxS32 f => Sys2Proof.Machine.execVredMMaxS32 f s
  | .vmmq f => Sys2Proof.Machine.execVmmq f s
  | .vwld f => Sys2Proof.Machine.execVwld f s
  | .vaccrd f => Sys2Proof.Machine.execVaccrd f s
  | .vaccwr f => Sys2Proof.Machine.execVaccwr f s
  | .vaccz f => Sys2Proof.Machine.execVaccz f s
  | .vwmark f => Sys2Proof.Machine.execVwmark f s
  | .gadd f => Sys2Proof.Machine.execGadd f s
  | .gsub f => Sys2Proof.Machine.execGsub f s
  | .gmul f => Sys2Proof.Machine.execGmul f s
  | .gmulh f => Sys2Proof.Machine.execGmulh f s
  | .gdiv f => Sys2Proof.Machine.execGdiv f s
  | .grem f => Sys2Proof.Machine.execGrem f s
  | .gmin f => Sys2Proof.Machine.execGmin f s
  | .gmax f => Sys2Proof.Machine.execGmax f s
  | .gand f => Sys2Proof.Machine.execGand f s
  | .gor f => Sys2Proof.Machine.execGor f s
  | .gxor f => Sys2Proof.Machine.execGxor f s
  | .gshl f => Sys2Proof.Machine.execGshl f s
  | .gshr f => Sys2Proof.Machine.execGshr f s
  | .gsar f => Sys2Proof.Machine.execGsar f s
  | .gclz f => Sys2Proof.Machine.execGclz f s
  | .gpopc f => Sys2Proof.Machine.execGpopc f s
  | .gbfx f => Sys2Proof.Machine.execGbfx f s
  | .gbfi f => Sys2Proof.Machine.execGbfi f s
  | .gadd64 f => Sys2Proof.Machine.execGadd64 f s
  | .gsub64 f => Sys2Proof.Machine.execGsub64 f s
  | .gmul64 f => Sys2Proof.Machine.execGmul64 f s
  | .gcmp f => Sys2Proof.Machine.execGcmp f s
  | .gsel f => Sys2Proof.Machine.execGsel f s
  | .gaddi f => Sys2Proof.Machine.execGaddi f s
  | .gandi f => Sys2Proof.Machine.execGandi f s
  | .gori f => Sys2Proof.Machine.execGori f s
  | .gxori f => Sys2Proof.Machine.execGxori f s
  | .gshli f => Sys2Proof.Machine.execGshli f s
  | .gshri f => Sys2Proof.Machine.execGshri f s
  | .gsari f => Sys2Proof.Machine.execGsari f s
  | .gmovi f => Sys2Proof.Machine.execGmovi f s
  | .gmovhi f => Sys2Proof.Machine.execGmovhi f s
  | .gaddpc f => Sys2Proof.Machine.execGaddpc f s
  | .gfadd f => Sys2Proof.Machine.execGfadd f s
  | .gfsub f => Sys2Proof.Machine.execGfsub f s
  | .gfmul f => Sys2Proof.Machine.execGfmul f s
  | .gfma f => Sys2Proof.Machine.execGfma f s
  | .gfdiv f => Sys2Proof.Machine.execGfdiv f s
  | .gfsqrt f => Sys2Proof.Machine.execGfsqrt f s
  | .gfmnx f => Sys2Proof.Machine.execGfmnx f s
  | .gfcvt f => Sys2Proof.Machine.execGfcvt f s
  | .gfcmp f => Sys2Proof.Machine.execGfcmp f s
  | .gtgt f => Sys2Proof.Machine.execGtgt f s
  | .gtgtr f => Sys2Proof.Machine.execGtgtr f s
  | .gloop f => Sys2Proof.Machine.execGloop f s
  | .gloopi f => Sys2Proof.Machine.execGloopi f s
  | .gbrk f => Sys2Proof.Machine.execGbrk f s
  | .gldGlN32 f => Sys2Proof.Machine.execGldGlN32 f s
  | .gldGlN64 f => Sys2Proof.Machine.execGldGlN64 f s
  | .gldVtN32 f => Sys2Proof.Machine.execGldVtN32 f s
  | .gldVtN64 f => Sys2Proof.Machine.execGldVtN64 f s
  | .gstGlN32 f => Sys2Proof.Machine.execGstGlN32 f s
  | .gstGlN64 f => Sys2Proof.Machine.execGstGlN64 f s
  | .gstVtN32 f => Sys2Proof.Machine.execGstVtN32 f s
  | .gstVtN64 f => Sys2Proof.Machine.execGstVtN64 f s
  | .gldsGlN32 f => Sys2Proof.Machine.execGldsGlN32 f s
  | .gldsGlN64 f => Sys2Proof.Machine.execGldsGlN64 f s
  | .gldsVtN32 f => Sys2Proof.Machine.execGldsVtN32 f s
  | .gstsGlN32 f => Sys2Proof.Machine.execGstsGlN32 f s
  | .gstsGlN64 f => Sys2Proof.Machine.execGstsGlN64 f s
  | .gstsVtN32 f => Sys2Proof.Machine.execGstsVtN32 f s
  | .gfence f => Sys2Proof.Machine.execGfence f s
  | .gprf f => Sys2Proof.Machine.execGprf f s
  | .gatomAddN32 f => Sys2Proof.Machine.execGatomAddN32 f s
  | .gatomAddN64 f => Sys2Proof.Machine.execGatomAddN64 f s
  | .gatomAndN32 f => Sys2Proof.Machine.execGatomAndN32 f s
  | .gatomOrN32 f => Sys2Proof.Machine.execGatomOrN32 f s
  | .gatomXorN32 f => Sys2Proof.Machine.execGatomXorN32 f s
  | .gatomMinS32 f => Sys2Proof.Machine.execGatomMinS32 f s
  | .gatomMinN32 f => Sys2Proof.Machine.execGatomMinN32 f s
  | .gatomMaxS32 f => Sys2Proof.Machine.execGatomMaxS32 f s
  | .gatomMaxN32 f => Sys2Proof.Machine.execGatomMaxN32 f s
  | .gcasN32 f => Sys2Proof.Machine.execGcasN32 f s
  | .gcasN64 f => Sys2Proof.Machine.execGcasN64 f s
  | .gqpush f => Sys2Proof.Machine.execGqpush f s
  | .gqpop f => Sys2Proof.Machine.execGqpop f s
  | .gqtryPop f => Sys2Proof.Machine.execGqtryPop f s
  | .gqtryPush f => Sys2Proof.Machine.execGqtryPush f s
  | .gbar f => Sys2Proof.Machine.execGbar f s
  | .gbarm f => Sys2Proof.Machine.execGbarm f s
  | .gbwait f => Sys2Proof.Machine.execGbwait f s
  | .gbadd f => Sys2Proof.Machine.execGbadd f s
  | .gcopy f => Sys2Proof.Machine.execGcopy f s
  | .gcopyFill f => Sys2Proof.Machine.execGcopyFill f s
  | .ggather f => Sys2Proof.Machine.execGgather f s
  | .gscatter f => Sys2Proof.Machine.execGscatter f s
  | .gscatterAddf f => Sys2Proof.Machine.execGscatterAddf f s
  | .gscatterAddn f => Sys2Proof.Machine.execGscatterAddn f s
  | .gcollAllreduce f => Sys2Proof.Machine.execGcollAllreduce f s
  | .gcollAllgather f => Sys2Proof.Machine.execGcollAllgather f s
  | .gcollReducescatter f => Sys2Proof.Machine.execGcollReducescatter f s
  | .gcollBroadcast f => Sys2Proof.Machine.execGcollBroadcast f s
  | .gmfence f => Sys2Proof.Machine.execGmfence f s
  | .gmwait f => Sys2Proof.Machine.execGmwait f s
  | .gewait f => Sys2Proof.Machine.execGewait f s
  | .gevpost f => Sys2Proof.Machine.execGevpost f s
  | .gpin f => Sys2Proof.Machine.execGpin f s
  | .gunpin f => Sys2Proof.Machine.execGunpin f s
  | .ghint f => Sys2Proof.Machine.execGhint f s
  | .gwhere f => Sys2Proof.Machine.execGwhere f s
  | .gdup f => Sys2Proof.Machine.execGdup f s
  | .gspawn f => Sys2Proof.Machine.execGspawn f s
  | .gcpush f => Sys2Proof.Machine.execGcpush f s
  | .gcjoin f => Sys2Proof.Machine.execGcjoin f s
  | .glaunch f => Sys2Proof.Machine.execGlaunch f s
  | .gapon f => Sys2Proof.Machine.execGapon f s
  | .gapoff f => Sys2Proof.Machine.execGapoff f s
  | .gid f => Sys2Proof.Machine.execGid f s
  | .gyield f => Sys2Proof.Machine.execGyield f s
  | .gsplice f => Sys2Proof.Machine.execGsplice f s
  | .gkvwalk f => Sys2Proof.Machine.execGkvwalk f s
  | .gkvwalkNode f => Sys2Proof.Machine.execGkvwalkNode f s
  | .gkvref f => Sys2Proof.Machine.execGkvref f s
  | .gkvnew f => Sys2Proof.Machine.execGkvnew f s
  | .grepair f => Sys2Proof.Machine.execGrepair f s
  | .grepwm f => Sys2Proof.Machine.execGrepwm f s
  | .grepwmAbort f => Sys2Proof.Machine.execGrepwmAbort f s
  | .gprov f => Sys2Proof.Machine.execGprov f s
  | .gprovEnt f => Sys2Proof.Machine.execGprovEnt f s
  | .gring f => Sys2Proof.Machine.execGring f s
  | .gtrap f => Sys2Proof.Machine.execGtrap f s
  | .gtfence f => Sys2Proof.Machine.execGtfence f s
  | .gtret f => Sys2Proof.Machine.execGtret f s
  | .gsrr f => Sys2Proof.Machine.execGsrr f s
  | .gsrw f => Sys2Proof.Machine.execGsrw f s
  | .gsrxSet f => Sys2Proof.Machine.execGsrxSet f s
  | .gsrxClr f => Sys2Proof.Machine.execGsrxClr f s
  | .gtinv f => Sys2Proof.Machine.execGtinv f s
  | .gtsync f => Sys2Proof.Machine.execGtsync f s
  | .gwaitt f => Sys2Proof.Machine.execGwaitt f s
  | .gtime f => Sys2Proof.Machine.execGtime f s
  | .gsleep f => Sys2Proof.Machine.execGsleep f s
  | .gecall f => Sys2Proof.Machine.execGecall f s
  | .ghcall f => Sys2Proof.Machine.execGhcall f s
  | .gctxsv f => Sys2Proof.Machine.execGctxsv f s
  | .gctxsvTarget f => Sys2Proof.Machine.execGctxsvTarget f s
  | .gctxld f => Sys2Proof.Machine.execGctxld f s
  | .ghalt f => Sys2Proof.Machine.execGhalt f s
  | .resultReturn vf ident win => Sys2Proof.Machine.execResultReturn vf ident win s
  | .trapEntry vf ident => Sys2Proof.Machine.execTrapEntry vf ident s
  | .groupEnd vf ident => Sys2Proof.Machine.execGroupEnd vf ident s
  | .recordDispatch vf cluster => Sys2Proof.Machine.execRecordDispatch vf cluster s
  | .holdReached vf cluster => Sys2Proof.Machine.execHoldReached vf cluster s
  | .gangAdmission vf cluster => Sys2Proof.Machine.execGangAdmission vf cluster s
  | .overflowRetry n => Sys2Proof.Machine.execOverflowRetry n s
  | .graphNodeLaunch vf node => Sys2Proof.Machine.execGraphNodeLaunch vf node s
  | .dieLinkLoss die => Sys2Proof.Machine.execDieLinkLoss die s
  | .queueWaiterServed vf ident other => Sys2Proof.Machine.execQueueWaiterServed vf ident other s
  | .barrierWaitEnd vf ident other => Sys2Proof.Machine.execBarrierWaitEnd vf ident other s
  | .byteBarrierWaitEnd vf ident other => Sys2Proof.Machine.execByteBarrierWaitEnd vf ident other s
  | .eventWaitEnd vf ident other => Sys2Proof.Machine.execEventWaitEnd vf ident other s
  | .timedWaitExpiry vf ident other => Sys2Proof.Machine.execTimedWaitExpiry vf ident other s
  | .sleepEnd vf ident other => Sys2Proof.Machine.execSleepEnd vf ident other s
  | .deadlineReached vf ident other => Sys2Proof.Machine.execDeadlineReached vf ident other s
  | .assayAudit links => Sys2Proof.Machine.execAssayAudit links s
  | .leaseRenewal sector => Sys2Proof.Machine.execLeaseRenewal sector s
  | .engineChunkComplete cmd chunk peers => Sys2Proof.Machine.execEngineChunkComplete cmd chunk peers s
  | .arrayEntryBegin part => Sys2Proof.Machine.execArrayEntryBegin part s
  | .arrayRowWrite part => Sys2Proof.Machine.execArrayRowWrite part s
  | .tileWriteApply vf ident => Sys2Proof.Machine.execTileWriteApply vf ident s
  | .sideLogReplay core => Sys2Proof.Machine.execSideLogReplay core s
  | .epochEnd vf => Sys2Proof.Machine.execEpochEnd vf s
  | .ladleMoveBegin vf va => Sys2Proof.Machine.execLadleMoveBegin vf va s
  | .moveCopyComplete vf va => Sys2Proof.Machine.execMoveCopyComplete vf va s
  | .moveRetire vf va => Sys2Proof.Machine.execMoveRetire vf va s
  | .duplicateCreate vf va => Sys2Proof.Machine.execDuplicateCreate vf va s
  | .dupCollapse vf va => Sys2Proof.Machine.execDupCollapse vf va s
  | .collapseEnd vf va => Sys2Proof.Machine.execCollapseEnd vf va s
  | .ladleRingAction vf => Sys2Proof.Machine.execLadleRingAction vf s
  | .invalidationComplete n cut => Sys2Proof.Machine.execInvalidationComplete n cut s
  | .layerJoinComplete n => Sys2Proof.Machine.execLayerJoinComplete n s
  | .quantumRowBoundary => Sys2Proof.Machine.execQuantumRowBoundary s
  | .quantumTableTake => Sys2Proof.Machine.execQuantumTableTake s
  | .qctlLoad x => Sys2Proof.Machine.execQctlLoad x s
  | .vfctlWrite vf x => Sys2Proof.Machine.execVfctlWrite vf x s
  | .sldiscWrite core vf x => Sys2Proof.Machine.execSldiscWrite core vf x s
  | .addressRangeEnable j x => Sys2Proof.Machine.execAddressRangeEnable j x s
  | .poolRelease win page => Sys2Proof.Machine.execPoolRelease win page s
  | .poolReleaseDone => Sys2Proof.Machine.execPoolReleaseDone s
  | .poolTake win page => Sys2Proof.Machine.execPoolTake win page s
  | .poolQuery win page => Sys2Proof.Machine.execPoolQuery win page s
  | .extentActivate j => Sys2Proof.Machine.execExtentActivate j s
  | .extentOrderlyRelease j => Sys2Proof.Machine.execExtentOrderlyRelease j s
  | .extentReleaseAck j => Sys2Proof.Machine.execExtentReleaseAck j s
  | .forcedWithdrawal j dropped => Sys2Proof.Machine.execForcedWithdrawal j dropped s
  | .extentFree j => Sys2Proof.Machine.execExtentFree j s
  | .peerDown q dropped => Sys2Proof.Machine.execPeerDown q dropped s
  | .peerUp q pkg inc => Sys2Proof.Machine.execPeerUp q pkg inc s
  | .coldStart primary backup images hw selftest => Sys2Proof.Machine.execColdStart primary backup images hw selftest s
  | .warmStart primary backup images hw keptL keptH selftest => Sys2Proof.Machine.execWarmStart primary backup images hw keptL keptH selftest s
  | .unitPowerUp => Sys2Proof.Machine.execUnitPowerUp s
  | .attestationRequest x => Sys2Proof.Machine.execAttestationRequest x s
  | .attestationReport => Sys2Proof.Machine.execAttestationReport s
  | .pcapWrite x => Sys2Proof.Machine.execPcapWrite x s
  | .powerCapSample watts => Sys2Proof.Machine.execPowerCapSample watts s
  | .powerCapFallback => Sys2Proof.Machine.execPowerCapFallback s
  | .thermalTrip unit temp => Sys2Proof.Machine.execThermalTrip unit temp s
  | .scrubRead turn err at_ => Sys2Proof.Machine.execScrubRead turn err at_ s
  | .linkPacketCorrupt port tries vf ident win lanes => Sys2Proof.Machine.execLinkPacketCorrupt port tries vf ident win lanes s
  | .heartbeatSample => Sys2Proof.Machine.execHeartbeatSample s
  | .mcmdResume unit => Sys2Proof.Machine.execMcmdResume unit s
  | .mcmdDiscard unit => Sys2Proof.Machine.execMcmdDiscard unit s
  | .checkpointStart finish => Sys2Proof.Machine.execCheckpointStart finish s
  | .restore => Sys2Proof.Machine.execRestore s
  | .servoLock t => Sys2Proof.Machine.execServoLock t s
  | .sensorSample inlet outlet temps0 temps1 => Sys2Proof.Machine.execSensorSample inlet outlet temps0 temps1 s
  | .tgRegister die pkg mdie => Sys2Proof.Machine.execTgRegister die pkg mdie s
  | .tgRegisterAck die pkg cdie nmem held => Sys2Proof.Machine.execTgRegisterAck die pkg cdie nmem held s
  | .tgWithdraw die pkg mdie => Sys2Proof.Machine.execTgWithdraw die pkg mdie s
  | .tgRequest die pkg mdie req => Sys2Proof.Machine.execTgRequest die pkg mdie req s
  | .tgDwellExpiry die => Sys2Proof.Machine.execTgDwellExpiry die s
  | .tgAckTimeout die acked => Sys2Proof.Machine.execTgAckTimeout die acked s
  | .tgAnnouncement die level at_ seq nmem => Sys2Proof.Machine.execTgAnnouncement die level at_ seq nmem s
  | .tgStepApply die => Sys2Proof.Machine.execTgStepApply die s
  | .tgDetach die path => Sys2Proof.Machine.execTgDetach die path s
  | .tgLocalStep die => Sys2Proof.Machine.execTgLocalStep die s
  | .tgRegisterRetry die => Sys2Proof.Machine.execTgRegisterRetry die s
  | .counterCopy => Sys2Proof.Machine.execCounterCopy s
  | .counterClear => Sys2Proof.Machine.execCounterClear s
  | .registerWrite n x => Sys2Proof.Machine.execRegisterWrite n x s
  | .wordNotInstruction w => Sys2Proof.Machine.execWordNotInstruction w s
  | .fetchTranslationFault => Sys2Proof.Machine.execFetchTranslationFault s
  | .grandmasterLoss => Sys2Proof.Machine.execGrandmasterLoss s
  | .tnowAgreement => Sys2Proof.Machine.execTnowAgreement s
  | .collectiveMismatch cmd => Sys2Proof.Machine.execCollectiveMismatch cmd s
  | .signedFuseCommand raise value key sig => Sys2Proof.Machine.execSignedFuseCommand raise value key sig s

end Sys2Proof.Machine
end

