-- ==== Sys2Proof/WellFormed.lean ====
section
/-! DEFINITION. Which instructions a word can hold: the reserved values and unused fields that R161, R184, R187 and
the entries of the forms make raise 0x02 whatever the state. A step of the device has no word and is not well formed. -/

namespace Sys2Proof

/-- No field holds a reserved value, and every unused field is 0. -/
def Instr.wellFormed : Instr → Bool
  | .vadd _ => true
  | .vsub _ => true
  | .vmul _ => true
  | .vmulhs _ => true
  | .vmulhn _ => true
  | .vmins _ => true
  | .vminn _ => true
  | .vmaxs _ => true
  | .vmaxn _ => true
  | .vand _ => true
  | .vor _ => true
  | .vxor _ => true
  | .vshl _ => true
  | .vshr _ => true
  | .vsar _ => true
  | .vsel _ => true
  | .vadd64 _ => true
  | .vsub64 _ => true
  | .vclz f => f.b == 0
  | .vpopc f => f.b == 0
  | .vbfx _ => true
  | .vbfi _ => true
  | .vaddi _ => true
  | .vandi _ => true
  | .vori _ => true
  | .vxori _ => true
  | .vshli f => f.imm &&& 480 == 0
  | .vshri f => f.imm &&& 480 == 0
  | .vsari f => f.imm &&& 480 == 0
  | .vmovi f => f.a == 0
  | .vcmps f => decide (f.x ≤ 5)
  | .vcmpn f => decide (f.x ≤ 5)
  | .vfadd _ => true
  | .vfsub _ => true
  | .vfmul _ => true
  | .vfma _ => true
  | .vfmin _ => true
  | .vfmax _ => true
  | .vfcmp _ => true
  | .vmop f => f.x != 7 && (decide (f.x < 5) || f.b == 0)
  | .vhaddBf16x2 _ => true
  | .vhaddF16x2 _ => true
  | .vhmulBf16x2 _ => true
  | .vhmulF16x2 _ => true
  | .vhfmaBf16x2 _ => true
  | .vhfmaF16x2 _ => true
  | .vfsgnBf16x2 _ => true
  | .vfsgnF16x2 _ => true
  | .vrcp f => f.b == 0
  | .vrsq f => f.b == 0
  | .vsqrt f => f.b == 0
  | .vexp2 f => f.b == 0
  | .vlog2 f => f.b == 0
  | .vtrigSinpi f => f.b == 0
  | .vtrigCospi f => f.b == 0
  | .vcvt f => decide (f.b < 0x28) && decide (f.x ≤ 5)
  | .vpk f => decide (f.x ≤ 5)
  | .vq4dec _ => true
  | .vshfl _ => true
  | .vshflx _ => true
  | .vlane _ => true
  | .vred f => f.b == 0
  | .vscan f => f.b == 0
  | .vvote f => f.b == 0 && decide (f.x < 4)
  | .vldGlS8 _ => true
  | .vldGlN8 _ => true
  | .vldGlS16 _ => true
  | .vldGlN16 _ => true
  | .vldGlN32 _ => true
  | .vldGlN64 _ => true
  | .vldGlN128 _ => true
  | .vprf f => f.la == 0 && decide (f.d ≤ 2)
  | .vldVtN8 _ => true
  | .vldVtN16 _ => true
  | .vldVtN32 _ => true
  | .vldVtN64 _ => true
  | .vldVtN128 _ => true
  | .vkvld _ => true
  | .vdev _ => true
  | .vstGlN8 _ => true
  | .vstGlN16 _ => true
  | .vstGlN32 _ => true
  | .vstGlN64 _ => true
  | .vstGlN128 _ => true
  | .vstVtN8 _ => true
  | .vstVtN16 _ => true
  | .vstVtN32 _ => true
  | .vstVtN64 _ => true
  | .vstVtN128 _ => true
  | .vldsGlN8 f => decide (f.ord ≤ 1)
  | .vldsGlN16 f => decide (f.ord ≤ 1)
  | .vldsGlN32 f => decide (f.ord ≤ 1)
  | .vldsGlN64 f => decide (f.ord ≤ 1)
  | .vldsGlN128 f => decide (f.ord ≤ 1)
  | .vldsVtN32 f => decide (f.ord ≤ 1)
  | .vstsGlN8 f => f.ord &&& 1 == 0
  | .vstsGlN16 f => f.ord &&& 1 == 0
  | .vstsGlN32 f => f.ord &&& 1 == 0
  | .vstsGlN64 f => f.ord &&& 1 == 0
  | .vstsGlN128 f => f.ord &&& 1 == 0
  | .vstsVtN32 f => f.ord &&& 1 == 0
  | .vxchgN32 _ => true
  | .vxchgN64 _ => true
  | .vcasN32 _ => true
  | .vcasN64 _ => true
  | .vatomAddN32 _ => true
  | .vatomAddN64 _ => true
  | .vatomAddF32 _ => true
  | .vatomAndN32 _ => true
  | .vatomOrN32 _ => true
  | .vatomXorN32 _ => true
  | .vatomMinS32 _ => true
  | .vatomMinN32 _ => true
  | .vatomMaxS32 _ => true
  | .vatomMaxN32 _ => true
  | .vredMAddN32 f => f.ord == 0
  | .vredMAddN64 f => f.ord == 0
  | .vredMAddF32 f => f.ord == 0
  | .vredMMinS32 f => f.ord == 0
  | .vredMMaxS32 f => f.ord == 0
  | .vmmq _ => true
  | .vwld f => f.d == 0 && f.x == 0 && [0, 1, 2, 3, 4, 5, 8].contains f.b
  | .vaccrd f => f.stream == 0
  | .vaccwr f => f.stream == 0
  | .vaccz f => f.a == 0 && f.b == 0 && f.stream == 0
  | .vwmark f => f.b == 0 && f.stream == 0
  | .gadd f => f.x == 0
  | .gsub f => f.x == 0
  | .gmul f => f.x == 0
  | .gmulh f => f.x == 0
  | .gdiv f => f.x == 0
  | .grem f => f.x == 0
  | .gmin f => decide (f.x ≤ 1)
  | .gmax f => decide (f.x ≤ 1)
  | .gand f => f.x == 0
  | .gor f => f.x == 0
  | .gxor f => f.x == 0
  | .gshl f => f.x == 0
  | .gshr f => f.x == 0
  | .gsar f => f.x == 0
  | .gclz f => f.b == 0 && f.x == 0
  | .gpopc f => f.b == 0 && f.x == 0
  | .gbfx f => f.x == 0
  | .gbfi f => f.x == 0
  | .gadd64 f => f.x == 0
  | .gsub64 f => f.x == 0
  | .gmul64 f => f.x == 0
  | .gcmp f => decide (f.x ≤ 5)
  | .gsel f => f.x == 0
  | .gaddi _ => true
  | .gandi _ => true
  | .gori _ => true
  | .gxori _ => true
  | .gshli f => f.imm &&& 480 == 0
  | .gshri f => f.imm &&& 480 == 0
  | .gsari f => f.imm &&& 480 == 0
  | .gmovi _ => true
  | .gmovhi _ => true
  | .gaddpc _ => true
  | .gfadd f => f.x &&& 6 == 0
  | .gfsub f => f.x &&& 6 == 0
  | .gfmul f => f.x &&& 6 == 0
  | .gfma f => f.x &&& 6 == 0
  | .gfdiv f => f.x &&& 6 == 0
  | .gfsqrt f => f.b == 0 && f.x &&& 6 == 0
  | .gfmnx f => decide (f.x < 4)
  | .gfcvt f => decide (f.b < 0x10) && decide (f.x ≤ 5)
  | .gfcmp _ => true
  | .gtgt _ => true
  | .gtgtr f => f.d == 0 && f.b == 0 && f.x == 0
  | .gloop f => f.d == 0 && f.b == 0 && f.x == 0
  | .gloopi f => f.d == 0
  | .gbrk f => f.d == 0 && f.a == 0 && f.b == 0 && f.x == 0
  | .gldGlN32 _ => true
  | .gldGlN64 _ => true
  | .gldVtN32 _ => true
  | .gldVtN64 _ => true
  | .gstGlN32 _ => true
  | .gstGlN64 _ => true
  | .gstVtN32 _ => true
  | .gstVtN64 _ => true
  | .gldsGlN32 f => decide (f.ord ≤ 1)
  | .gldsGlN64 f => decide (f.ord ≤ 1)
  | .gldsVtN32 f => decide (f.ord ≤ 1)
  | .gstsGlN32 f => f.ord &&& 1 == 0
  | .gstsGlN64 f => f.ord &&& 1 == 0
  | .gstsVtN32 f => f.ord &&& 1 == 0
  | .gfence f => f.d == 0 && f.a == 0 && f.la == 0
  | .gprf f => f.la == 0 && decide (f.d ≤ 2)
  | .gatomAddN32 _ => true
  | .gatomAddN64 _ => true
  | .gatomAndN32 _ => true
  | .gatomOrN32 _ => true
  | .gatomXorN32 _ => true
  | .gatomMinS32 _ => true
  | .gatomMinN32 _ => true
  | .gatomMaxS32 _ => true
  | .gatomMaxN32 _ => true
  | .gcasN32 _ => true
  | .gcasN64 _ => true
  | .gqpush f => f.c &&& 8 == 0
  | .gqpop f => f.c &&& 8 == 0
  | .gqtryPop f => f.c &&& 8 == 0
  | .gqtryPush f => f.c &&& 8 == 8
  | .gbar f => f.d == 0 && f.c == 0
  | .gbarm f => f.c &&& 2 == 0
  | .gbwait _ => true
  | .gbadd f => f.c &&& 2 == 0
  | .gcopy f => f.d == 0 && f.c &&& 3 == 0
  | .gcopyFill f => f.d == 0 && f.c &&& 3 == 1
  | .ggather f => f.d == 0 && f.c &&& 3 == 0
  | .gscatter f => f.d == 0 && f.c &&& 3 == 0
  | .gscatterAddf f => f.d == 0 && f.c &&& 3 == 1
  | .gscatterAddn f => f.d == 0 && f.c &&& 3 == 2
  | .gcollAllreduce f => f.d == 0 && f.c &&& 3 == 0
  | .gcollAllgather f => f.d == 0 && f.c &&& 3 == 1
  | .gcollReducescatter f => f.d == 0 && f.c &&& 3 == 2
  | .gcollBroadcast f => f.d == 0 && f.c &&& 3 == 3
  | .gmfence f => f.a == 0 && f.b == 0 && f.x == 0
  | .gmwait f => f.d == 0 && f.imm &&& 496 == 0
  | .gewait _ => true
  | .gevpost f => f.c &&& 2 == 0
  | .gpin f => f.b == 0 && f.x == 0
  | .gunpin f => f.d == 0 && f.b == 0 && f.x == 0
  | .ghint f => f.d == 0 && f.x == 0
  | .gwhere f => f.b == 0 && f.x == 0
  | .gdup f => f.b == 0 && f.x == 0
  | .gspawn f => f.x == 0
  | .gcpush f => f.x &&& 6 == 0 && (f.x &&& 1 == 1 || f.b == 0)
  | .gcjoin f => f.d == 0 && f.x == 0
  | .glaunch f => f.x &&& 4 == 0
  | .gapon f => f.b == 0 && f.x == 0
  | .gapoff f => f.d == 0 && f.a == 0 && f.b == 0 && f.x == 0
  | .gid f => f.a == 0 && decide (f.imm ≤ 8)
  | .gyield f => f.d == 0 && f.a == 0 && f.b == 0 && f.x == 0
  | .gsplice f => f.c == 0
  | .gkvwalk f => f.c == 0
  | .gkvwalkNode f => f.c == 1
  | .gkvref f => f.c == 0
  | .gkvnew f => f.c == 0
  | .grepair f => f.c == 0
  | .grepwm f => f.c == 0
  | .grepwmAbort f => f.c == 1
  | .gprov f => f.c == 0
  | .gprovEnt f => f.c == 1
  | .gring f => f.c == 0
  | .gtrap f => f.d == 0 && f.a == 0 && decide (f.imm < 256)
  | .gtfence f => f.d == 0 && f.a == 0 && f.b == 0 && f.x == 0
  | .gtret f => f.d == 0 && f.a == 0 && f.b == 0 && f.x == 0
  | .gsrr f => f.a == 0
  | .gsrw f => f.d == 0
  | .gsrxSet _ => true
  | .gsrxClr _ => true
  | .gtinv f => f.d == 0 && f.x == 0
  | .gtsync f => f.a == 0 && f.b == 0 && f.x == 0
  | .gwaitt f => f.b == 0 && f.x == 0
  | .gtime f => f.a == 0 && decide (f.imm ≤ 1)
  | .gsleep f => f.d == 0
  | .gecall f => f.d == 0 && f.a == 0
  | .ghcall f => f.d == 0 && f.a == 0
  | .gctxsv f => f.c == 0
  | .gctxsvTarget f => f.c == 1
  | .gctxld f => f.c == 0
  | .ghalt f => f.d == 0 && f.a == 0 && f.b == 0 && f.x == 0
  | .resultReturn _ _ _ => false
  | .trapEntry _ _ => false
  | .groupEnd _ _ => false
  | .recordDispatch _ _ => false
  | .holdReached _ _ => false
  | .gangAdmission _ _ => false
  | .overflowRetry _ => false
  | .graphNodeLaunch _ _ => false
  | .dieLinkLoss _ => false
  | .queueWaiterServed _ _ _ => false
  | .barrierWaitEnd _ _ _ => false
  | .byteBarrierWaitEnd _ _ _ => false
  | .eventWaitEnd _ _ _ => false
  | .timedWaitExpiry _ _ _ => false
  | .sleepEnd _ _ _ => false
  | .deadlineReached _ _ _ => false
  | .assayAudit _ => false
  | .leaseRenewal _ => false
  | .engineChunkComplete _ _ _ => false
  | .arrayEntryBegin _ => false
  | .arrayRowWrite _ => false
  | .tileWriteApply _ _ => false
  | .sideLogReplay _ => false
  | .epochEnd _ => false
  | .ladleMoveBegin _ _ => false
  | .moveCopyComplete _ _ => false
  | .moveRetire _ _ => false
  | .duplicateCreate _ _ => false
  | .dupCollapse _ _ => false
  | .collapseEnd _ _ => false
  | .ladleRingAction _ => false
  | .invalidationComplete _ _ => false
  | .layerJoinComplete _ => false
  | .quantumRowBoundary => false
  | .quantumTableTake => false
  | .qctlLoad _ => false
  | .vfctlWrite _ _ => false
  | .sldiscWrite _ _ _ => false
  | .addressRangeEnable _ _ => false
  | .poolRelease _ _ => false
  | .poolReleaseDone => false
  | .poolTake _ _ => false
  | .poolQuery _ _ => false
  | .extentActivate _ => false
  | .extentOrderlyRelease _ => false
  | .extentReleaseAck _ => false
  | .forcedWithdrawal _ _ => false
  | .extentFree _ => false
  | .peerDown _ _ => false
  | .peerUp _ _ _ => false
  | .coldStart _ _ _ _ _ => false
  | .warmStart _ _ _ _ _ _ _ => false
  | .unitPowerUp => false
  | .attestationRequest _ => false
  | .attestationReport => false
  | .pcapWrite _ => false
  | .powerCapSample _ => false
  | .powerCapFallback => false
  | .thermalTrip _ _ => false
  | .scrubRead _ _ _ => false
  | .linkPacketCorrupt _ _ _ _ _ _ => false
  | .heartbeatSample => false
  | .mcmdResume _ => false
  | .mcmdDiscard _ => false
  | .checkpointStart _ => false
  | .restore => false
  | .servoLock _ => false
  | .sensorSample _ _ _ _ => false
  | .tgRegister _ _ _ => false
  | .tgRegisterAck _ _ _ _ _ => false
  | .tgWithdraw _ _ _ => false
  | .tgRequest _ _ _ _ => false
  | .tgDwellExpiry _ => false
  | .tgAckTimeout _ _ => false
  | .tgAnnouncement _ _ _ _ _ => false
  | .tgStepApply _ => false
  | .tgDetach _ _ => false
  | .tgLocalStep _ => false
  | .tgRegisterRetry _ => false
  | .counterCopy => false
  | .counterClear => false
  | .registerWrite _ _ => false
  | .wordNotInstruction _ => false
  | .fetchTranslationFault => false
  | .grandmasterLoss => false
  | .tnowAgreement => false
  | .collectiveMismatch _ => false
  | .signedFuseCommand _ _ _ _ => false

end Sys2Proof
end

