-- ==== Sys2Proof/Decode.lean ====
section
/-! DEFINITION. The decoder and the encoder, both from the field positions of R162 and the opcode grids of R182 and
R185. Decoding is total: a word that is no instruction is rejected by the cause it raises (R188). -/

namespace Sys2Proof

-- Compiled code holds no constructor with fields past the 245th, so what builds one has no compiled form. Lean's
-- kernel evaluates all of it.
noncomputable section

/-- Why bytes are no instruction. -/
inductive Reject
  /-- Fewer than four bytes. -/
  | short
  /-- The word names an unassigned slot and raises 0x01 (R188). -/
  | unassigned
  /-- A reserved value or a non-zero unused field: the word raises 0x02 (R161). -/
  | reserved
deriving DecidableEq, Repr

/-- The selector's code, bits [30:28]. -/
def Nas.code : Nas → BitVec 3
  | .seq => 0 | .loop => 1 | .bt => 2 | .bf => 3 | .jmp => 4 | .call => 5 | .ret => 6 | .stop => 7

/-- The selector that bits [30:28] name. -/
def nasOf (c : BitVec 3) : Nas :=
  if c = 0 then .seq else if c = 1 then .loop else if c = 2 then .bt else if c = 3 then .bf
  else if c = 4 then .jmp else if c = 5 then .call else if c = 6 then .ret else .stop

/-- The selector of a word. -/
def wordNas (w : Word) : Nas := nasOf (w.extractLsb' 28 3)

/-- The fields of format R in a word (R162). -/
def getR (w : Word) : FmtR :=
  { nas := wordNas w, d := w.extractLsb' 15 6, a := w.extractLsb' 9 6, b := w.extractLsb' 3 6, x := w.extractLsb' 0 3 }

/-- The fields of format I in a word (R162). -/
def getI (w : Word) : FmtI :=
  { nas := wordNas w, d := w.extractLsb' 15 6, a := w.extractLsb' 9 6, imm := w.extractLsb' 0 9 }

/-- The fields of format M in a word (R162). -/
def getM (w : Word) : FmtM :=
  { nas := wordNas w, d := w.extractLsb' 15 6, a := w.extractLsb' 9 6, la := w.extractLsb' 5 4, off := w.extractLsb' 0 5 }

/-- The fields of format A in a word (R162). -/
def getA (w : Word) : FmtA :=
  { nas := wordNas w, d := w.extractLsb' 15 6, a := w.extractLsb' 9 6, la := w.extractLsb' 5 4, scope := w.extractLsb' 2 3, ord := w.extractLsb' 0 2 }

/-- The fields of format X in a word (R162). -/
def getX (w : Word) : FmtX :=
  { nas := wordNas w, a := w.extractLsb' 15 6, b := w.extractLsb' 9 6, tile := w.extractLsb' 6 3, stream := w.extractLsb' 4 2, la := w.extractLsb' 0 4 }

/-- The fields of format E in a word (R162). -/
def getE (w : Word) : FmtE :=
  { nas := wordNas w, d := w.extractLsb' 15 6, a := w.extractLsb' 9 6, la := w.extractLsb' 5 4, c := w.extractLsb' 0 5 }

/-- The fields of format W in a word (R162). -/
def getW (w : Word) : FmtW :=
  { nas := wordNas w, d := w.extractLsb' 15 6, imm := w.extractLsb' 0 15 }

/-- The fields of format H in a word (R162). -/
def getH (w : Word) : FmtH :=
  { nas := wordNas w, d := w.extractLsb' 17 4, imm := w.extractLsb' 0 17 }

/-- The fields of format T in a word (R162). -/
def getT (w : Word) : FmtT :=
  { nas := wordNas w, imm := w.extractLsb' 0 21 }

/-- Packs SET and OP with the fields of format R (R160, R162). -/
def putR (set : BitVec 1) (op : BitVec 7) (f : FmtR) : Word :=
  set ++ f.nas.code ++ op ++ (f.d ++ f.a ++ f.b ++ f.x : BitVec 21)

/-- Packs SET and OP with the fields of format I (R160, R162). -/
def putI (set : BitVec 1) (op : BitVec 7) (f : FmtI) : Word :=
  set ++ f.nas.code ++ op ++ (f.d ++ f.a ++ f.imm : BitVec 21)

/-- Packs SET and OP with the fields of format M (R160, R162). -/
def putM (set : BitVec 1) (op : BitVec 7) (f : FmtM) : Word :=
  set ++ f.nas.code ++ op ++ (f.d ++ f.a ++ f.la ++ f.off : BitVec 21)

/-- Packs SET and OP with the fields of format A (R160, R162). -/
def putA (set : BitVec 1) (op : BitVec 7) (f : FmtA) : Word :=
  set ++ f.nas.code ++ op ++ (f.d ++ f.a ++ f.la ++ f.scope ++ f.ord : BitVec 21)

/-- Packs SET and OP with the fields of format X (R160, R162). -/
def putX (set : BitVec 1) (op : BitVec 7) (f : FmtX) : Word :=
  set ++ f.nas.code ++ op ++ (f.a ++ f.b ++ f.tile ++ f.stream ++ f.la : BitVec 21)

/-- Packs SET and OP with the fields of format E (R160, R162). -/
def putE (set : BitVec 1) (op : BitVec 7) (f : FmtE) : Word :=
  set ++ f.nas.code ++ op ++ (f.d ++ f.a ++ f.la ++ f.c : BitVec 21)

/-- Packs SET and OP with the fields of format W (R160, R162). -/
def putW (set : BitVec 1) (op : BitVec 7) (f : FmtW) : Word :=
  set ++ f.nas.code ++ op ++ (f.d ++ f.imm : BitVec 21)

/-- Packs SET and OP with the fields of format H (R160, R162). -/
def putH (set : BitVec 1) (op : BitVec 7) (f : FmtH) : Word :=
  set ++ f.nas.code ++ op ++ (f.d ++ f.imm : BitVec 21)

/-- Packs SET and OP with the fields of format T (R160, R162). -/
def putT (set : BitVec 1) (op : BitVec 7) (f : FmtT) : Word :=
  set ++ f.nas.code ++ op ++ (f.imm : BitVec 21)

/-- Row 0 of the lane-set grid (R182); the argument is OP[3:0]. -/
def laneRow0 (w : Word) (col : Nat) : Option Instr :=
  match col with
  | 0 => some (.vadd (getR w))
  | 1 => some (.vsub (getR w))
  | 2 => some (.vmul (getR w))
  | 3 => some (.vmulhs (getR w))
  | 4 => some (.vmulhn (getR w))
  | 5 => some (.vmins (getR w))
  | 6 => some (.vminn (getR w))
  | 7 => some (.vmaxs (getR w))
  | 8 => some (.vmaxn (getR w))
  | 9 => some (.vand (getR w))
  | 10 => some (.vor (getR w))
  | 11 => some (.vxor (getR w))
  | 12 => some (.vshl (getR w))
  | 13 => some (.vshr (getR w))
  | 14 => some (.vsar (getR w))
  | 15 => some (.vsel (getR w))
  | _ => none

/-- Row 1 of the lane-set grid (R182); the argument is OP[3:0]. -/
def laneRow1 (w : Word) (col : Nat) : Option Instr :=
  match col with
  | 0 => some (.vadd64 (getR w))
  | 1 => some (.vsub64 (getR w))
  | 2 => some (.vclz (getR w))
  | 3 => some (.vpopc (getR w))
  | 4 => some (.vbfx (getR w))
  | 5 => some (.vbfi (getR w))
  | 6 => some (.vaddi (getI w))
  | 7 => some (.vandi (getI w))
  | 8 => some (.vori (getI w))
  | 9 => some (.vxori (getI w))
  | 10 => some (.vshli (getI w))
  | 11 => some (.vshri (getI w))
  | 12 => some (.vsari (getI w))
  | 13 => some (.vmovi (getI w))
  | 14 => some (.vcmps (getR w))
  | 15 => some (.vcmpn (getR w))
  | _ => none

/-- Row 2 of the lane-set grid (R182); the argument is OP[3:0]. -/
def laneRow2 (w : Word) (col : Nat) : Option Instr :=
  match col with
  | 0 => some (.vfadd (getR w))
  | 1 => some (.vfsub (getR w))
  | 2 => some (.vfmul (getR w))
  | 3 => some (.vfma (getR w))
  | 4 => some (.vfmin (getR w))
  | 5 => some (.vfmax (getR w))
  | 6 => some (.vfcmp (getR w))
  | 7 => some (.vmop (getR w))
  | 8 => some (.vhaddBf16x2 (getR w))
  | 9 => some (.vhaddF16x2 (getR w))
  | 10 => some (.vhmulBf16x2 (getR w))
  | 11 => some (.vhmulF16x2 (getR w))
  | 12 => some (.vhfmaBf16x2 (getR w))
  | 13 => some (.vhfmaF16x2 (getR w))
  | 14 => some (.vfsgnBf16x2 (getR w))
  | 15 => some (.vfsgnF16x2 (getR w))
  | _ => none

/-- Row 3 of the lane-set grid (R182); the argument is OP[3:0]. -/
def laneRow3 (w : Word) (col : Nat) : Option Instr :=
  match col with
  | 0 => some (.vrcp (getR w))
  | 1 => some (.vrsq (getR w))
  | 2 => some (.vsqrt (getR w))
  | 3 => some (.vexp2 (getR w))
  | 4 => some (.vlog2 (getR w))
  | 5 => some (.vtrigSinpi (getR w))
  | 6 => some (.vtrigCospi (getR w))
  | 7 => some (.vcvt (getR w))
  | 8 => some (.vpk (getR w))
  | 9 => some (.vq4dec (getR w))
  | 10 => some (.vshfl (getR w))
  | 11 => some (.vshflx (getR w))
  | 12 => some (.vlane (getR w))
  | 13 => some (.vred (getR w))
  | 14 => some (.vscan (getR w))
  | 15 => some (.vvote (getR w))
  | _ => none

/-- Row 4 of the lane-set grid (R182); the argument is OP[3:0]. -/
def laneRow4 (w : Word) (col : Nat) : Option Instr :=
  match col with
  | 0 => some (.vldGlS8 (getM w))
  | 1 => some (.vldGlN8 (getM w))
  | 2 => some (.vldGlS16 (getM w))
  | 3 => some (.vldGlN16 (getM w))
  | 4 => some (.vldGlN32 (getM w))
  | 5 => some (.vldGlN64 (getM w))
  | 6 => some (.vldGlN128 (getM w))
  | 7 => some (.vprf (getM w))
  | 8 => some (.vldVtN8 (getM w))
  | 9 => some (.vldVtN16 (getM w))
  | 10 => some (.vldVtN32 (getM w))
  | 11 => some (.vldVtN64 (getM w))
  | 12 => some (.vldVtN128 (getM w))
  | 13 => some (.vkvld (getM w))
  | 14 => some (.vdev (getR w))
  | _ => none

/-- Row 5 of the lane-set grid (R182); the argument is OP[3:0]. -/
def laneRow5 (w : Word) (col : Nat) : Option Instr :=
  match col with
  | 0 => some (.vstGlN8 (getM w))
  | 1 => some (.vstGlN16 (getM w))
  | 2 => some (.vstGlN32 (getM w))
  | 3 => some (.vstGlN64 (getM w))
  | 4 => some (.vstGlN128 (getM w))
  | 5 => some (.vstVtN8 (getM w))
  | 6 => some (.vstVtN16 (getM w))
  | 7 => some (.vstVtN32 (getM w))
  | 8 => some (.vstVtN64 (getM w))
  | 9 => some (.vstVtN128 (getM w))
  | 10 => some (.vldsGlN8 (getA w))
  | 11 => some (.vldsGlN16 (getA w))
  | 12 => some (.vldsGlN32 (getA w))
  | 13 => some (.vldsGlN64 (getA w))
  | 14 => some (.vldsGlN128 (getA w))
  | 15 => some (.vldsVtN32 (getA w))
  | _ => none

/-- Row 6 of the lane-set grid (R182); the argument is OP[3:0]. -/
def laneRow6 (w : Word) (col : Nat) : Option Instr :=
  match col with
  | 0 => some (.vstsGlN8 (getA w))
  | 1 => some (.vstsGlN16 (getA w))
  | 2 => some (.vstsGlN32 (getA w))
  | 3 => some (.vstsGlN64 (getA w))
  | 4 => some (.vstsGlN128 (getA w))
  | 5 => some (.vstsVtN32 (getA w))
  | 6 => some (.vxchgN32 (getA w))
  | 7 => some (.vxchgN64 (getA w))
  | 8 => some (.vcasN32 (getA w))
  | 9 => some (.vcasN64 (getA w))
  | 10 => some (.vatomAddN32 (getA w))
  | 11 => some (.vatomAddN64 (getA w))
  | 12 => some (.vatomAddF32 (getA w))
  | 13 => some (.vatomAndN32 (getA w))
  | 14 => some (.vatomOrN32 (getA w))
  | 15 => some (.vatomXorN32 (getA w))
  | _ => none

/-- Row 7 of the lane-set grid (R182); the argument is OP[3:0]. -/
def laneRow7 (w : Word) (col : Nat) : Option Instr :=
  match col with
  | 0 => some (.vatomMinS32 (getA w))
  | 1 => some (.vatomMinN32 (getA w))
  | 2 => some (.vatomMaxS32 (getA w))
  | 3 => some (.vatomMaxN32 (getA w))
  | 4 => some (.vredMAddN32 (getA w))
  | 5 => some (.vredMAddN64 (getA w))
  | 6 => some (.vredMAddF32 (getA w))
  | 7 => some (.vredMMinS32 (getA w))
  | 8 => some (.vredMMaxS32 (getA w))
  | 9 => some (.vmmq (getX w))
  | 10 => some (.vwld (getR w))
  | 11 => some (.vaccrd (getX w))
  | 12 => some (.vaccwr (getX w))
  | 13 => some (.vaccz (getX w))
  | 14 => some (.vwmark (getX w))
  | _ => none

/-- Row 0 of the group-set grid (R185); the argument is OP[3:0]. -/
def groupRow0 (w : Word) (col : Nat) : Option Instr :=
  match col with
  | 0 => some (.gadd (getR w))
  | 1 => some (.gsub (getR w))
  | 2 => some (.gmul (getR w))
  | 3 => some (.gmulh (getR w))
  | 4 => some (.gdiv (getR w))
  | 5 => some (.grem (getR w))
  | 6 => some (.gmin (getR w))
  | 7 => some (.gmax (getR w))
  | 8 => some (.gand (getR w))
  | 9 => some (.gor (getR w))
  | 10 => some (.gxor (getR w))
  | 11 => some (.gshl (getR w))
  | 12 => some (.gshr (getR w))
  | 13 => some (.gsar (getR w))
  | 14 => some (.gclz (getR w))
  | 15 => some (.gpopc (getR w))
  | _ => none

/-- Row 1 of the group-set grid (R185); the argument is OP[3:0]. -/
def groupRow1 (w : Word) (col : Nat) : Option Instr :=
  match col with
  | 0 => some (.gbfx (getR w))
  | 1 => some (.gbfi (getR w))
  | 2 => some (.gadd64 (getR w))
  | 3 => some (.gsub64 (getR w))
  | 4 => some (.gmul64 (getR w))
  | 5 => some (.gcmp (getR w))
  | 6 => some (.gsel (getR w))
  | 7 => some (.gaddi (getI w))
  | 8 => some (.gandi (getI w))
  | 9 => some (.gori (getI w))
  | 10 => some (.gxori (getI w))
  | 11 => some (.gshli (getI w))
  | 12 => some (.gshri (getI w))
  | 13 => some (.gsari (getI w))
  | 14 => some (.gmovi (getW w))
  | 15 => some (.gmovhi (getH w))
  | _ => none

/-- Row 2 of the group-set grid (R185); the argument is OP[3:0]. -/
def groupRow2 (w : Word) (col : Nat) : Option Instr :=
  match col with
  | 0 => some (.gaddpc (getH w))
  | 1 => some (.gfadd (getR w))
  | 2 => some (.gfsub (getR w))
  | 3 => some (.gfmul (getR w))
  | 4 => some (.gfma (getR w))
  | 5 => some (.gfdiv (getR w))
  | 6 => some (.gfsqrt (getR w))
  | 7 => some (.gfmnx (getR w))
  | 8 => some (.gfcvt (getR w))
  | 9 => some (.gfcmp (getR w))
  | 10 => some (.gtgt (getT w))
  | 11 => some (.gtgtr (getR w))
  | 12 => some (.gloop (getR w))
  | 13 => some (.gloopi (getH w))
  | 14 => some (.gbrk (getR w))
  | _ => none

/-- Row 3 of the group-set grid (R185); the argument is OP[3:0]. -/
def groupRow3 (w : Word) (col : Nat) : Option Instr :=
  match col with
  | 0 => some (.gldGlN32 (getM w))
  | 1 => some (.gldGlN64 (getM w))
  | 2 => some (.gldVtN32 (getM w))
  | 3 => some (.gldVtN64 (getM w))
  | 4 => some (.gstGlN32 (getM w))
  | 5 => some (.gstGlN64 (getM w))
  | 6 => some (.gstVtN32 (getM w))
  | 7 => some (.gstVtN64 (getM w))
  | 8 => some (.gldsGlN32 (getA w))
  | 9 => some (.gldsGlN64 (getA w))
  | 10 => some (.gldsVtN32 (getA w))
  | 11 => some (.gstsGlN32 (getA w))
  | 12 => some (.gstsGlN64 (getA w))
  | 13 => some (.gstsVtN32 (getA w))
  | 14 => some (.gfence (getA w))
  | 15 => some (.gprf (getM w))
  | _ => none

/-- Row 4 of the group-set grid (R185); the argument is OP[3:0]. -/
def groupRow4 (w : Word) (col : Nat) : Option Instr :=
  match col with
  | 0 => some (.gatomAddN32 (getA w))
  | 1 => some (.gatomAddN64 (getA w))
  | 2 => some (.gatomAndN32 (getA w))
  | 3 => some (.gatomOrN32 (getA w))
  | 4 => some (.gatomXorN32 (getA w))
  | 5 => some (.gatomMinS32 (getA w))
  | 6 => some (.gatomMinN32 (getA w))
  | 7 => some (.gatomMaxS32 (getA w))
  | 8 => some (.gatomMaxN32 (getA w))
  | 9 => some (.gcasN32 (getA w))
  | 10 => some (.gcasN64 (getA w))
  | 11 => some (.gqpush (getE w))
  | 12 => some (.gqpop (getE w))
  | 13 => if w.extractLsb' 3 1 = 0 then some (.gqtryPop (getE w)) else some (.gqtryPush (getE w))
  | 14 => some (.gbar (getE w))
  | 15 => some (.gbarm (getE w))
  | _ => none

/-- Row 5 of the group-set grid (R185); the argument is OP[3:0]. -/
def groupRow5 (w : Word) (col : Nat) : Option Instr :=
  match col with
  | 0 => some (.gbwait (getE w))
  | 1 => some (.gbadd (getE w))
  | 2 => if w.extractLsb' 0 1 = 0 then some (.gcopy (getE w)) else some (.gcopyFill (getE w))
  | 3 => some (.ggather (getE w))
  | 4 => if w.extractLsb' 0 2 = 0 then some (.gscatter (getE w)) else if w.extractLsb' 0 2 = 1 then some (.gscatterAddf (getE w)) else some (.gscatterAddn (getE w))
  | 5 => if w.extractLsb' 0 2 = 0 then some (.gcollAllreduce (getE w)) else if w.extractLsb' 0 2 = 1 then some (.gcollAllgather (getE w)) else if w.extractLsb' 0 2 = 2 then some (.gcollReducescatter (getE w)) else some (.gcollBroadcast (getE w))
  | 6 => some (.gmfence (getR w))
  | 7 => some (.gmwait (getI w))
  | 8 => some (.gewait (getE w))
  | 9 => some (.gevpost (getE w))
  | 10 => some (.gpin (getR w))
  | 11 => some (.gunpin (getR w))
  | 12 => some (.ghint (getR w))
  | 13 => some (.gwhere (getR w))
  | 14 => some (.gdup (getR w))
  | 15 => some (.gspawn (getR w))
  | _ => none

/-- Row 6 of the group-set grid (R185); the argument is OP[3:0]. -/
def groupRow6 (w : Word) (col : Nat) : Option Instr :=
  match col with
  | 0 => some (.gcpush (getR w))
  | 1 => some (.gcjoin (getR w))
  | 2 => some (.glaunch (getR w))
  | 3 => some (.gapon (getR w))
  | 4 => some (.gapoff (getR w))
  | 5 => some (.gid (getI w))
  | 6 => some (.gyield (getR w))
  | 7 => some (.gsplice (getE w))
  | 8 => if w.extractLsb' 0 1 = 0 then some (.gkvwalk (getE w)) else some (.gkvwalkNode (getE w))
  | 9 => some (.gkvref (getE w))
  | 10 => some (.gkvnew (getE w))
  | 11 => some (.grepair (getE w))
  | 12 => if w.extractLsb' 0 1 = 0 then some (.grepwm (getE w)) else some (.grepwmAbort (getE w))
  | 13 => if w.extractLsb' 0 1 = 0 then some (.gprov (getE w)) else some (.gprovEnt (getE w))
  | 14 => some (.gring (getE w))
  | 15 => some (.gtrap (getI w))
  | _ => none

/-- Row 7 of the group-set grid (R185); the argument is OP[3:0]. -/
def groupRow7 (w : Word) (col : Nat) : Option Instr :=
  match col with
  | 0 => some (.gtfence (getR w))
  | 1 => some (.gtret (getR w))
  | 2 => some (.gsrr (getI w))
  | 3 => some (.gsrw (getI w))
  | 4 => some (.gsrxSet (getI w))
  | 5 => some (.gsrxClr (getI w))
  | 6 => some (.gtinv (getR w))
  | 7 => some (.gtsync (getR w))
  | 8 => some (.gwaitt (getR w))
  | 9 => some (.gtime (getI w))
  | 10 => some (.gsleep (getI w))
  | 11 => some (.gecall (getI w))
  | 12 => some (.ghcall (getI w))
  | 13 => if w.extractLsb' 0 1 = 0 then some (.gctxsv (getE w)) else some (.gctxsvTarget (getE w))
  | 14 => some (.gctxld (getE w))
  | 15 => some (.ghalt (getR w))
  | _ => none

/-- The instruction that the slot of a word names, its fields read by the slot's format; none in an unassigned
slot. -/
def assemble (w : Word) : Option Instr :=
  let col := (w.extractLsb' 21 4).toNat
  match (w.extractLsb' 31 1).toNat, (w.extractLsb' 25 3).toNat with
  | 0, 0 => laneRow0 w col
  | 0, 1 => laneRow1 w col
  | 0, 2 => laneRow2 w col
  | 0, 3 => laneRow3 w col
  | 0, 4 => laneRow4 w col
  | 0, 5 => laneRow5 w col
  | 0, 6 => laneRow6 w col
  | 0, 7 => laneRow7 w col
  | 1, 0 => groupRow0 w col
  | 1, 1 => groupRow1 w col
  | 1, 2 => groupRow2 w col
  | 1, 3 => groupRow3 w col
  | 1, 4 => groupRow4 w col
  | 1, 5 => groupRow5 w col
  | 1, 6 => groupRow6 w col
  | 1, 7 => groupRow7 w col
  | _, _ => none

/-- Decodes one word (R160, R161, R188). -/
def decode (w : Word) : Except Reject Instr :=
  match assemble w with
  | none => .error .unassigned
  | some i => if i.wellFormed then .ok i else .error .reserved

/-- The word of four bytes, fetched little-endian (R160). -/
def wordOfBytes (b0 b1 b2 b3 : Byte) : Word := b3 ++ b2 ++ b1 ++ b0

/-- Decodes the instruction at the front of a list of bytes. -/
def decodeBytes : List Byte → Except Reject Instr
  | b0 :: b1 :: b2 :: b3 :: _ => decode (wordOfBytes b0 b1 b2 b3)
  | _ => .error .short

/-- The four bytes of a word in the order in which memory holds them. -/
def bytesOfWord (w : Word) : List Byte :=
  [w.setWidth 8, (w >>> 8).setWidth 8, (w >>> 16).setWidth 8, (w >>> 24).setWidth 8]

/-- The instruction that the decoder reads from the word w of the opcode table. -/
def decodeTableWord (nbits w : Nat) : Option Instr :=
  if nbits ≤ 32 ∧ w < 2 ^ 32 then (decodeBytes (bytesOfWord (BitVec.ofNat 32 w))).toOption else none

/-- The word of an instruction; none for a step of the device, which has no word. -/
def encode : Instr → Option Word
  | .vadd f => some (putR 0 0x00 f)
  | .vsub f => some (putR 0 0x01 f)
  | .vmul f => some (putR 0 0x02 f)
  | .vmulhs f => some (putR 0 0x03 f)
  | .vmulhn f => some (putR 0 0x04 f)
  | .vmins f => some (putR 0 0x05 f)
  | .vminn f => some (putR 0 0x06 f)
  | .vmaxs f => some (putR 0 0x07 f)
  | .vmaxn f => some (putR 0 0x08 f)
  | .vand f => some (putR 0 0x09 f)
  | .vor f => some (putR 0 0x0A f)
  | .vxor f => some (putR 0 0x0B f)
  | .vshl f => some (putR 0 0x0C f)
  | .vshr f => some (putR 0 0x0D f)
  | .vsar f => some (putR 0 0x0E f)
  | .vsel f => some (putR 0 0x0F f)
  | .vadd64 f => some (putR 0 0x10 f)
  | .vsub64 f => some (putR 0 0x11 f)
  | .vclz f => some (putR 0 0x12 f)
  | .vpopc f => some (putR 0 0x13 f)
  | .vbfx f => some (putR 0 0x14 f)
  | .vbfi f => some (putR 0 0x15 f)
  | .vaddi f => some (putI 0 0x16 f)
  | .vandi f => some (putI 0 0x17 f)
  | .vori f => some (putI 0 0x18 f)
  | .vxori f => some (putI 0 0x19 f)
  | .vshli f => some (putI 0 0x1A f)
  | .vshri f => some (putI 0 0x1B f)
  | .vsari f => some (putI 0 0x1C f)
  | .vmovi f => some (putI 0 0x1D f)
  | .vcmps f => some (putR 0 0x1E f)
  | .vcmpn f => some (putR 0 0x1F f)
  | .vfadd f => some (putR 0 0x20 f)
  | .vfsub f => some (putR 0 0x21 f)
  | .vfmul f => some (putR 0 0x22 f)
  | .vfma f => some (putR 0 0x23 f)
  | .vfmin f => some (putR 0 0x24 f)
  | .vfmax f => some (putR 0 0x25 f)
  | .vfcmp f => some (putR 0 0x26 f)
  | .vmop f => some (putR 0 0x27 f)
  | .vhaddBf16x2 f => some (putR 0 0x28 f)
  | .vhaddF16x2 f => some (putR 0 0x29 f)
  | .vhmulBf16x2 f => some (putR 0 0x2A f)
  | .vhmulF16x2 f => some (putR 0 0x2B f)
  | .vhfmaBf16x2 f => some (putR 0 0x2C f)
  | .vhfmaF16x2 f => some (putR 0 0x2D f)
  | .vfsgnBf16x2 f => some (putR 0 0x2E f)
  | .vfsgnF16x2 f => some (putR 0 0x2F f)
  | .vrcp f => some (putR 0 0x30 f)
  | .vrsq f => some (putR 0 0x31 f)
  | .vsqrt f => some (putR 0 0x32 f)
  | .vexp2 f => some (putR 0 0x33 f)
  | .vlog2 f => some (putR 0 0x34 f)
  | .vtrigSinpi f => some (putR 0 0x35 f)
  | .vtrigCospi f => some (putR 0 0x36 f)
  | .vcvt f => some (putR 0 0x37 f)
  | .vpk f => some (putR 0 0x38 f)
  | .vq4dec f => some (putR 0 0x39 f)
  | .vshfl f => some (putR 0 0x3A f)
  | .vshflx f => some (putR 0 0x3B f)
  | .vlane f => some (putR 0 0x3C f)
  | .vred f => some (putR 0 0x3D f)
  | .vscan f => some (putR 0 0x3E f)
  | .vvote f => some (putR 0 0x3F f)
  | .vldGlS8 f => some (putM 0 0x40 f)
  | .vldGlN8 f => some (putM 0 0x41 f)
  | .vldGlS16 f => some (putM 0 0x42 f)
  | .vldGlN16 f => some (putM 0 0x43 f)
  | .vldGlN32 f => some (putM 0 0x44 f)
  | .vldGlN64 f => some (putM 0 0x45 f)
  | .vldGlN128 f => some (putM 0 0x46 f)
  | .vprf f => some (putM 0 0x47 f)
  | .vldVtN8 f => some (putM 0 0x48 f)
  | .vldVtN16 f => some (putM 0 0x49 f)
  | .vldVtN32 f => some (putM 0 0x4A f)
  | .vldVtN64 f => some (putM 0 0x4B f)
  | .vldVtN128 f => some (putM 0 0x4C f)
  | .vkvld f => some (putM 0 0x4D f)
  | .vdev f => some (putR 0 0x4E f)
  | .vstGlN8 f => some (putM 0 0x50 f)
  | .vstGlN16 f => some (putM 0 0x51 f)
  | .vstGlN32 f => some (putM 0 0x52 f)
  | .vstGlN64 f => some (putM 0 0x53 f)
  | .vstGlN128 f => some (putM 0 0x54 f)
  | .vstVtN8 f => some (putM 0 0x55 f)
  | .vstVtN16 f => some (putM 0 0x56 f)
  | .vstVtN32 f => some (putM 0 0x57 f)
  | .vstVtN64 f => some (putM 0 0x58 f)
  | .vstVtN128 f => some (putM 0 0x59 f)
  | .vldsGlN8 f => some (putA 0 0x5A f)
  | .vldsGlN16 f => some (putA 0 0x5B f)
  | .vldsGlN32 f => some (putA 0 0x5C f)
  | .vldsGlN64 f => some (putA 0 0x5D f)
  | .vldsGlN128 f => some (putA 0 0x5E f)
  | .vldsVtN32 f => some (putA 0 0x5F f)
  | .vstsGlN8 f => some (putA 0 0x60 f)
  | .vstsGlN16 f => some (putA 0 0x61 f)
  | .vstsGlN32 f => some (putA 0 0x62 f)
  | .vstsGlN64 f => some (putA 0 0x63 f)
  | .vstsGlN128 f => some (putA 0 0x64 f)
  | .vstsVtN32 f => some (putA 0 0x65 f)
  | .vxchgN32 f => some (putA 0 0x66 f)
  | .vxchgN64 f => some (putA 0 0x67 f)
  | .vcasN32 f => some (putA 0 0x68 f)
  | .vcasN64 f => some (putA 0 0x69 f)
  | .vatomAddN32 f => some (putA 0 0x6A f)
  | .vatomAddN64 f => some (putA 0 0x6B f)
  | .vatomAddF32 f => some (putA 0 0x6C f)
  | .vatomAndN32 f => some (putA 0 0x6D f)
  | .vatomOrN32 f => some (putA 0 0x6E f)
  | .vatomXorN32 f => some (putA 0 0x6F f)
  | .vatomMinS32 f => some (putA 0 0x70 f)
  | .vatomMinN32 f => some (putA 0 0x71 f)
  | .vatomMaxS32 f => some (putA 0 0x72 f)
  | .vatomMaxN32 f => some (putA 0 0x73 f)
  | .vredMAddN32 f => some (putA 0 0x74 f)
  | .vredMAddN64 f => some (putA 0 0x75 f)
  | .vredMAddF32 f => some (putA 0 0x76 f)
  | .vredMMinS32 f => some (putA 0 0x77 f)
  | .vredMMaxS32 f => some (putA 0 0x78 f)
  | .vmmq f => some (putX 0 0x79 f)
  | .vwld f => some (putR 0 0x7A f)
  | .vaccrd f => some (putX 0 0x7B f)
  | .vaccwr f => some (putX 0 0x7C f)
  | .vaccz f => some (putX 0 0x7D f)
  | .vwmark f => some (putX 0 0x7E f)
  | .gadd f => some (putR 1 0x00 f)
  | .gsub f => some (putR 1 0x01 f)
  | .gmul f => some (putR 1 0x02 f)
  | .gmulh f => some (putR 1 0x03 f)
  | .gdiv f => some (putR 1 0x04 f)
  | .grem f => some (putR 1 0x05 f)
  | .gmin f => some (putR 1 0x06 f)
  | .gmax f => some (putR 1 0x07 f)
  | .gand f => some (putR 1 0x08 f)
  | .gor f => some (putR 1 0x09 f)
  | .gxor f => some (putR 1 0x0A f)
  | .gshl f => some (putR 1 0x0B f)
  | .gshr f => some (putR 1 0x0C f)
  | .gsar f => some (putR 1 0x0D f)
  | .gclz f => some (putR 1 0x0E f)
  | .gpopc f => some (putR 1 0x0F f)
  | .gbfx f => some (putR 1 0x10 f)
  | .gbfi f => some (putR 1 0x11 f)
  | .gadd64 f => some (putR 1 0x12 f)
  | .gsub64 f => some (putR 1 0x13 f)
  | .gmul64 f => some (putR 1 0x14 f)
  | .gcmp f => some (putR 1 0x15 f)
  | .gsel f => some (putR 1 0x16 f)
  | .gaddi f => some (putI 1 0x17 f)
  | .gandi f => some (putI 1 0x18 f)
  | .gori f => some (putI 1 0x19 f)
  | .gxori f => some (putI 1 0x1A f)
  | .gshli f => some (putI 1 0x1B f)
  | .gshri f => some (putI 1 0x1C f)
  | .gsari f => some (putI 1 0x1D f)
  | .gmovi f => some (putW 1 0x1E f)
  | .gmovhi f => some (putH 1 0x1F f)
  | .gaddpc f => some (putH 1 0x20 f)
  | .gfadd f => some (putR 1 0x21 f)
  | .gfsub f => some (putR 1 0x22 f)
  | .gfmul f => some (putR 1 0x23 f)
  | .gfma f => some (putR 1 0x24 f)
  | .gfdiv f => some (putR 1 0x25 f)
  | .gfsqrt f => some (putR 1 0x26 f)
  | .gfmnx f => some (putR 1 0x27 f)
  | .gfcvt f => some (putR 1 0x28 f)
  | .gfcmp f => some (putR 1 0x29 f)
  | .gtgt f => some (putT 1 0x2A f)
  | .gtgtr f => some (putR 1 0x2B f)
  | .gloop f => some (putR 1 0x2C f)
  | .gloopi f => some (putH 1 0x2D f)
  | .gbrk f => some (putR 1 0x2E f)
  | .gldGlN32 f => some (putM 1 0x30 f)
  | .gldGlN64 f => some (putM 1 0x31 f)
  | .gldVtN32 f => some (putM 1 0x32 f)
  | .gldVtN64 f => some (putM 1 0x33 f)
  | .gstGlN32 f => some (putM 1 0x34 f)
  | .gstGlN64 f => some (putM 1 0x35 f)
  | .gstVtN32 f => some (putM 1 0x36 f)
  | .gstVtN64 f => some (putM 1 0x37 f)
  | .gldsGlN32 f => some (putA 1 0x38 f)
  | .gldsGlN64 f => some (putA 1 0x39 f)
  | .gldsVtN32 f => some (putA 1 0x3A f)
  | .gstsGlN32 f => some (putA 1 0x3B f)
  | .gstsGlN64 f => some (putA 1 0x3C f)
  | .gstsVtN32 f => some (putA 1 0x3D f)
  | .gfence f => some (putA 1 0x3E f)
  | .gprf f => some (putM 1 0x3F f)
  | .gatomAddN32 f => some (putA 1 0x40 f)
  | .gatomAddN64 f => some (putA 1 0x41 f)
  | .gatomAndN32 f => some (putA 1 0x42 f)
  | .gatomOrN32 f => some (putA 1 0x43 f)
  | .gatomXorN32 f => some (putA 1 0x44 f)
  | .gatomMinS32 f => some (putA 1 0x45 f)
  | .gatomMinN32 f => some (putA 1 0x46 f)
  | .gatomMaxS32 f => some (putA 1 0x47 f)
  | .gatomMaxN32 f => some (putA 1 0x48 f)
  | .gcasN32 f => some (putA 1 0x49 f)
  | .gcasN64 f => some (putA 1 0x4A f)
  | .gqpush f => some (putE 1 0x4B f)
  | .gqpop f => some (putE 1 0x4C f)
  | .gqtryPop f => some (putE 1 0x4D f)
  | .gqtryPush f => some (putE 1 0x4D f)
  | .gbar f => some (putE 1 0x4E f)
  | .gbarm f => some (putE 1 0x4F f)
  | .gbwait f => some (putE 1 0x50 f)
  | .gbadd f => some (putE 1 0x51 f)
  | .gcopy f => some (putE 1 0x52 f)
  | .gcopyFill f => some (putE 1 0x52 f)
  | .ggather f => some (putE 1 0x53 f)
  | .gscatter f => some (putE 1 0x54 f)
  | .gscatterAddf f => some (putE 1 0x54 f)
  | .gscatterAddn f => some (putE 1 0x54 f)
  | .gcollAllreduce f => some (putE 1 0x55 f)
  | .gcollAllgather f => some (putE 1 0x55 f)
  | .gcollReducescatter f => some (putE 1 0x55 f)
  | .gcollBroadcast f => some (putE 1 0x55 f)
  | .gmfence f => some (putR 1 0x56 f)
  | .gmwait f => some (putI 1 0x57 f)
  | .gewait f => some (putE 1 0x58 f)
  | .gevpost f => some (putE 1 0x59 f)
  | .gpin f => some (putR 1 0x5A f)
  | .gunpin f => some (putR 1 0x5B f)
  | .ghint f => some (putR 1 0x5C f)
  | .gwhere f => some (putR 1 0x5D f)
  | .gdup f => some (putR 1 0x5E f)
  | .gspawn f => some (putR 1 0x5F f)
  | .gcpush f => some (putR 1 0x60 f)
  | .gcjoin f => some (putR 1 0x61 f)
  | .glaunch f => some (putR 1 0x62 f)
  | .gapon f => some (putR 1 0x63 f)
  | .gapoff f => some (putR 1 0x64 f)
  | .gid f => some (putI 1 0x65 f)
  | .gyield f => some (putR 1 0x66 f)
  | .gsplice f => some (putE 1 0x67 f)
  | .gkvwalk f => some (putE 1 0x68 f)
  | .gkvwalkNode f => some (putE 1 0x68 f)
  | .gkvref f => some (putE 1 0x69 f)
  | .gkvnew f => some (putE 1 0x6A f)
  | .grepair f => some (putE 1 0x6B f)
  | .grepwm f => some (putE 1 0x6C f)
  | .grepwmAbort f => some (putE 1 0x6C f)
  | .gprov f => some (putE 1 0x6D f)
  | .gprovEnt f => some (putE 1 0x6D f)
  | .gring f => some (putE 1 0x6E f)
  | .gtrap f => some (putI 1 0x6F f)
  | .gtfence f => some (putR 1 0x70 f)
  | .gtret f => some (putR 1 0x71 f)
  | .gsrr f => some (putI 1 0x72 f)
  | .gsrw f => some (putI 1 0x73 f)
  | .gsrxSet f => some (putI 1 0x74 f)
  | .gsrxClr f => some (putI 1 0x75 f)
  | .gtinv f => some (putR 1 0x76 f)
  | .gtsync f => some (putR 1 0x77 f)
  | .gwaitt f => some (putR 1 0x78 f)
  | .gtime f => some (putI 1 0x79 f)
  | .gsleep f => some (putI 1 0x7A f)
  | .gecall f => some (putI 1 0x7B f)
  | .ghcall f => some (putI 1 0x7C f)
  | .gctxsv f => some (putE 1 0x7D f)
  | .gctxsvTarget f => some (putE 1 0x7D f)
  | .gctxld f => some (putE 1 0x7E f)
  | .ghalt f => some (putR 1 0x7F f)
  | .resultReturn _ _ _ => none
  | .trapEntry _ _ => none
  | .groupEnd _ _ => none
  | .recordDispatch _ _ => none
  | .holdReached _ _ => none
  | .gangAdmission _ _ => none
  | .overflowRetry _ => none
  | .graphNodeLaunch _ _ => none
  | .dieLinkLoss _ => none
  | .queueWaiterServed _ _ _ => none
  | .barrierWaitEnd _ _ _ => none
  | .byteBarrierWaitEnd _ _ _ => none
  | .eventWaitEnd _ _ _ => none
  | .timedWaitExpiry _ _ _ => none
  | .sleepEnd _ _ _ => none
  | .deadlineReached _ _ _ => none
  | .assayAudit _ => none
  | .leaseRenewal _ => none
  | .engineChunkComplete _ _ _ => none
  | .arrayEntryBegin _ => none
  | .arrayRowWrite _ => none
  | .tileWriteApply _ _ => none
  | .sideLogReplay _ => none
  | .epochEnd _ => none
  | .ladleMoveBegin _ _ => none
  | .moveCopyComplete _ _ => none
  | .moveRetire _ _ => none
  | .duplicateCreate _ _ => none
  | .dupCollapse _ _ => none
  | .collapseEnd _ _ => none
  | .ladleRingAction _ => none
  | .invalidationComplete _ _ => none
  | .layerJoinComplete _ => none
  | .quantumRowBoundary => none
  | .quantumTableTake => none
  | .qctlLoad _ => none
  | .vfctlWrite _ _ => none
  | .sldiscWrite _ _ _ => none
  | .addressRangeEnable _ _ => none
  | .poolRelease _ _ => none
  | .poolReleaseDone => none
  | .poolTake _ _ => none
  | .poolQuery _ _ => none
  | .extentActivate _ => none
  | .extentOrderlyRelease _ => none
  | .extentReleaseAck _ => none
  | .forcedWithdrawal _ _ => none
  | .extentFree _ => none
  | .peerDown _ _ => none
  | .peerUp _ _ _ => none
  | .coldStart _ _ _ _ _ => none
  | .warmStart _ _ _ _ _ _ _ => none
  | .unitPowerUp => none
  | .attestationRequest _ => none
  | .attestationReport => none
  | .pcapWrite _ => none
  | .powerCapSample _ => none
  | .powerCapFallback => none
  | .thermalTrip _ _ => none
  | .scrubRead _ _ _ => none
  | .linkPacketCorrupt _ _ _ _ _ _ => none
  | .heartbeatSample => none
  | .mcmdResume _ => none
  | .mcmdDiscard _ => none
  | .checkpointStart _ => none
  | .restore => none
  | .servoLock _ => none
  | .sensorSample _ _ _ _ => none
  | .tgRegister _ _ _ => none
  | .tgRegisterAck _ _ _ _ _ => none
  | .tgWithdraw _ _ _ => none
  | .tgRequest _ _ _ _ => none
  | .tgDwellExpiry _ => none
  | .tgAckTimeout _ _ => none
  | .tgAnnouncement _ _ _ _ _ => none
  | .tgStepApply _ => none
  | .tgDetach _ _ => none
  | .tgLocalStep _ => none
  | .tgRegisterRetry _ => none
  | .counterCopy => none
  | .counterClear => none
  | .registerWrite _ _ => none
  | .wordNotInstruction _ => none
  | .fetchTranslationFault => none
  | .grandmasterLoss => none
  | .tnowAgreement => none
  | .collectiveMismatch _ => none
  | .signedFuseCommand _ _ _ _ => none

end

end Sys2Proof
end

