-- ==== Sys2Proof/Machine/Run.lean ====
section
/-! DEFINITION. What a step does next: the fetch of an instruction (R160), which groups are ready on which port (R22, R23), the
choice of group and slot (R11, R21, R24, R25, R28), the passing of time (R7, R317), and how a program is placed where the next
step fetches. -/

namespace Sys2Proof.Machine

/-! ## Fetch (R160, R188) -/

/-- The instruction at the pc of who issues, and the state after its fetch. A word that is no instruction, and a fetch that
fails, are steps of their own. -/
noncomputable def fetched (s : State) : Instr × State :=
  match fetchCause s with
  | some _ => (.fetchTranslationFault, s)
  | none =>
    let (w, t) := fetchWord s
    match decode w with
    | .ok i => (i, t)
    | .error _ => (.wordNotInstruction w, t)

/-! ## Ports (R21, R22) -/

/-- The issue ports of a partition, in the order in which they choose (R24). -/
inductive Port
  | la | lb | lm | g
deriving DecidableEq, Repr

/-- The ports of a partition in that order. -/
def portOrder : List Port := [.la, .lb, .lm, .g]

/-- The ports to which the class of a word issues (R22): the group set to G; of the lane set, the special functions to LB, the
exchanges and reductions to LA, memory, matrix and attention forms to LM, and the rest to LA or LB. -/
def portsOf (w : Word) : List Port :=
  let op := bits w.toNat 27 21
  if bit w.toNat 31 then [.g]
  else if 0x40 ≤ op then [.lm]
  else if 0x3A ≤ op then [.la]
  else if 0x30 ≤ op ∧ op ≤ 0x36 then [.lb]
  else [.la, .lb]

/-! ## Readiness (R23, R397) -/

/-- A slot may issue, or try again what it was held in. -/
def issueable (x : Slot) : Bool :=
  x.valid && match x.wait with | .none => true | .held => true | _ => false

/-- A slot waits in gsleep or gwaitt, which makes its whole group not ready (R318). -/
def sleeping (x : Slot) : Bool := x.valid && match x.wait with | .sleep _ _ => true | .deadline _ _ => true | _ => false

/-- A slot of a context may issue, so far as what the group waits for lets it. -/
def mayIssue (c : Ctx) (x : Slot) : Bool := issueable x && !sleeping c.s0 && !sleeping c.s1

/-- A context may act: it holds a group that has not ended by a cause and has the access processor it needs (R36), no other group is
saving it, and its core runs. -/
def mayAct (s : State) (c : Ctx) : Bool :=
  c.live && c.endCause.isNone && !coreStopped s c.who.loc && !s.mg.tripped && apReady s c && !s.en.resting.any fun x => x.1 == c.who.uid && x.2 != c.who.uid

/-- What the issue of the instruction of the current path comes to: not ready; a step that needs no port, which is a cause of the first row
of R154 or a fetch that fails; or an issue on one of some ports. -/
inductive Trial
  | held
  | free
  | port (ps : List Port)
deriving DecidableEq, Repr

/-- The word at the current path raises a cause of the first row of R154, which needs no port (R397). -/
noncomputable def needsNoPort (s : State) : Bool :=
  match exec (fetched s).1 { (fetched s).2 with g := { (fetched s).2.g with live := false } } with
  | .fault (.noGroup (some _)) => true
  | _ => false

/-- Tries the current path: it is ready if its instruction, issued now, would not be held (R23). A form whose issue begins a wait issues on
its port like any other. A fetch that fails has no instruction and so no class: it is taken without a port (DESIGN CHOICE,
notes/assumptions/91.md). -/
noncomputable def trial (s : State) : Trial :=
  if (fetchCause s).isSome || needsNoPort s then .free
  else
    match exec (fetched s).1 (fetched s).2 with
    | .next t =>
      let x := if s.g.iss then t.g.s1 else t.g.s0
      if x.valid && x.wait == .held then .held else .port (portsOf (fetchWord s).1)
    | _ => .port (portsOf (fetchWord s).1)

/-- A context that may act now, with the slot that R11 chooses and the ports on which it is ready; none where it acts without
one. -/
structure Cand where
  ctx : Ctx
  slot : Bool
  ports : Option (List Port)
deriving DecidableEq, Repr

/-- A slot of the issuing context, if it is ready: none inside where it needs no port. -/
noncomputable def trySlot (s : State) (x : Bool) : Option (Option (List Port)) :=
  if !mayIssue s.g (if x then s.g.s1 else s.g.s0) then none
  else
    match trial { s with onAp := false, g := { s.g with iss := x } } with
    | .held => none
    | .free => some none
    | .port ps => some (some ps)

/-- The slot of the issuing context that issues (R11): of two ready ones that with the lower PC. -/
noncomputable def tryCtx (s : State) : Option Cand :=
  match trySlot s false, trySlot s true with
  | some p, some q => if s.g.s1.pc.toNat < s.g.s0.pc.toNat then some ⟨s.g, true, q⟩ else some ⟨s.g, false, p⟩
  | some p, none => some ⟨s.g, false, p⟩
  | none, some q => some ⟨s.g, true, q⟩
  | none, none => none

/-- A context whose access gtret issues once more, ready on the port of its word (R23, R150). -/
noncomputable def tryRedo (s : State) (pc : Addr) (m : Mask) : Option Cand :=
  match trial (redoStart s pc m) with
  | .held => none
  | .free => some ⟨s.g, s.g.iss, none⟩
  | .port ps => some ⟨s.g, s.g.iss, some ps⟩

/-- A context that may act now: it takes a due trap, issues once more an access of gtret, or has a ready slot. -/
noncomputable def candidate (s : State) (c : Ctx) : Option Cand :=
  if !mayAct s c then none
  else if (dueTrap c).isSome then some ⟨c, c.iss, none⟩
  else
    match bring s c.who.vf c.who.ident, c.redo with
    | some t, some (pc, m) => tryRedo (acquireAp t) pc m
    | some t, none => tryCtx (acquireAp t)
    | none, _ => none

/-- Every context that may act now. -/
noncomputable def candidates (s : State) : List Cand := (allCtx s).filterMap (candidate s)

/-! ## The choice (R11, R24, R25, R28) -/

/-- The urgent (R25). -/
def urgent (c : Ctx) : Bool := decide (64 ≤ c.waitCnt)

/-- A last-issue stamp is older; a group that has never issued has the oldest (R24). -/
def older : Option Nat → Option Nat → Bool
  | none, some _ => true
  | some a, some b => decide (a < b)
  | _, none => false

/-- Two contexts share a partition, or a scalar core. -/
def samePart (c d : Ctx) : Bool := partOf c.who.loc == partOf d.who.loc

/-- In a partition `c` issues before `d` (R24, R25); the contexts of a scalar core take turns (R28). -/
def before (c d : Ctx) : Bool :=
  let tie := older c.stamp d.stamp || (!older d.stamp c.stamp && decide (c.who.loc.num < d.who.loc.num))
  if c.who.loc.die = 2 then tie
  else if urgent c != urgent d then urgent c
  else if c.prio ≠ d.prio then decide (d.prio < c.prio)
  else tie

/-- A candidate is ready on a port. A scalar core issues one instruction at a time, whatever its class (R28). -/
def Cand.on (c : Cand) (p : Port) : Bool :=
  match c.ports with
  | none => false
  | some ps => if c.ctx.who.loc.die = 2 then p == .g else ps.contains p

/-- What the ports of every partition choose, in their order, each among the candidates that no earlier one has chosen (R24). -/
def choose : List Port → List Cand → List Cand
  | [], _ => []
  | p :: t, cs =>
    let won := cs.filter fun c => c.on p && !cs.any fun d => d.on p && samePart c.ctx d.ctx && before d.ctx c.ctx
    won ++ choose t (cs.filter fun c => !won.contains c)

/-- Every candidate that acts in this aclk: those that need no port, and those that the ports choose. -/
def actingNow (cs : List Cand) : List Cand := cs.filter (fun c => c.ports.isNone) ++ choose portOrder cs

/-- A context is among some candidates. -/
def isCand (cs : List Cand) (c : Ctx) : Bool := cs.any fun d => isCtx d.ctx.who.vf d.ctx.who.ident c

/-- The wait counters of the contexts named go up by one (R25). -/
def countWaits (s : State) (cs : List Cand) : State :=
  let up (c : Ctx) : Ctx := { c with waitCnt := c.waitCnt + 1 }
  { s with g := if isCand cs s.g then up s.g else s.g, others := mapWhere (isCand cs) up s.others }

/-- The access processor of a context issues: it runs, and no save has brought the context to rest. -/
def sliceActs (s : State) (c : Ctx) : Bool :=
  mayAct s c && (!s.en.resting.any fun x => x.1 == c.who.uid) && match c.ap with | some a => a.run == .running | none => false

/-- The access processors that run, each with a pipeline of its own (R30). -/
def runningAps (s : State) : List Act :=
  ((allCtx s).filter (sliceActs s)).map fun c =>
    .issueAp c.who.vf c.who.ident

/-- The choice of one aclk: the contexts that act, in port order, and the state in which the others that were ready on a port have
counted it (R24, R25). Every running access processor issues too. -/
noncomputable def beginRound (s : State) : State :=
  let cs := candidates s
  let won := actingNow cs
  let t := countWaits s (cs.filter fun c => !won.contains c)
  { t with round := won.map fun c => (c.ctx.who.vf, c.ctx.who.ident, c.slot), agenda := runningAps s }

/-! ## What a step is going to do -/

/-- What a step does: let an aclk pass; nothing, in no time; perform a step of the device between two aclk; take a context's due trap;
issue the instruction of the current path; issue once more an access of gtret; or issue the instruction of the access processor. -/
inductive Plan
  | idle (s : State)
  | drop (s : State)
  | event (i : Instr) (s : State)
  | entry (i : Instr) (s : State)
  | issue (s : State)
  | redo (s : State) (pc : Addr) (m : Mask)
  | slice (s : State) (mode : Mode)
deriving DecidableEq, Repr

/-- The slot that the agenda makes issue (R11): of two that may, the one with the lower PC, or on request the other one, the first
being then not ready. -/
def slotFor (c : Ctx) (other : Bool) : Option Bool :=
  match mayIssue c c.s0, mayIssue c c.s1 with
  | true, true => some (decide (c.s1.pc.toNat < c.s0.pc.toNat) != other)
  | true, false => if other then none else some false
  | false, true => if other then none else some true
  | false, false => none

/-- A context acts: its due trap, its access to issue again, or a slot of it. One that cannot act leaves the aclk to the others. -/
noncomputable def planCtx (s : State) (vf ident : Nat) (pick : Ctx → Option Bool) : Plan :=
  match bring s vf ident with
  | none => .drop s
  | some t =>
    let t := acquireAp { t with onAp := false }
    if !mayAct t t.g then .drop s
    else
      match dueTrap t.g, t.g.redo with
      | some _, _ => .entry (.trapEntry vf ident) t
      | none, some (pc, m) => .redo t pc m
      | none, none =>
        match pick t.g with
        | none => .drop s
        | some x => .issue { t with g := { t.g with iss := x } }

/-- A context that a port has chosen can still act in this aclk. -/
def stillActs (s : State) (x : Nat × Nat × Bool) : Bool :=
  match ctxOf s x.1 x.2.1 with
  | some c => mayAct s c && ((dueTrap c).isSome || c.redo.isSome || mayIssue c (if x.2.2 then c.s1 else c.s0))
  | none => false

/-- The next of those that act in this aclk goes on; without one, only time passes. -/
noncomputable def planRound (s : State) : Plan :=
  match s.round.dropWhile fun x => !stillActs s x with
  | [] => .idle { s with round := [] }
  | x :: t => planCtx { s with round := t } x.1 x.2.1 fun _ => some x.2.2

/-- The agenda makes a context the one of its partition that issues in the next aclk: the others of the partition that are ready on a port
wait (R25), and every other partition chooses as ever. None of those that wait may have counted 85 ready aclk already: from there
the ports' own choice, which lets at most 11 others go first, keeps it to 96. -/
noncomputable def planIssue (s : State) (c : Ctx) (other : Bool) : Plan :=
  if (allCtx s).all fun d => isCtx c.who.vf c.who.ident d then planCtx s c.who.vf c.who.ident (slotFor · other)
  else
    let cs := (candidates s).filter fun d => !isCtx c.who.vf c.who.ident d.ctx
    let near := cs.filter fun d => d.ports.isSome && samePart c d.ctx
    if near.any fun d => decide (85 ≤ d.ctx.waitCnt) then planRound (beginRound s)
    else
      let far := cs.filter fun d => !samePart c d.ctx
      let won := actingNow far
      let t := countWaits s (near ++ far.filter fun d => !won.contains d)
      planCtx { t with round := won.map fun d => (d.ctx.who.vf, d.ctx.who.ident, d.slot) } c.who.vf c.who.ident (slotFor · other)

/-- An access processor acts (R35). It has the mode of the group, whatever handler the group is in. -/
def planSlice (s : State) (vf ident : Nat) : Plan :=
  match bring s vf ident with
  | none => .drop s
  | some t =>
    if !sliceActs t t.g then .drop s
    else
      let mode := if hmode t.g then modeOf (bits t.g.trap.tcause.toNat 13 12) else t.g.mode
      .slice { t with onAp := true, g := { t.g with mode := mode } } t.g.mode

/-- After an instruction of an access processor the group has its own mode again. -/
def sliceDone (s : State) (mode : Mode) : State := { s with onAp := false, g := { s.g with mode := mode } }

/-- Steps of the device that only the fetch of an instruction makes. -/
def fetchEvent : Instr → Bool
  | .wordNotInstruction _ => true
  | .fetchTranslationFault => true
  | _ => false

/-- The plan: what the agenda asks for first, else what the ports choose. An issue that the agenda asks for waits until the aclk that has
begun is over; what it asks for and no rule lets happen is nothing. -/
noncomputable def plan (s : State) : Plan :=
  match s.agenda with
  | .event i :: t =>
    if (encode i).isSome || fetchEvent i then .drop { s with agenda := t } else .event i { s with agenda := t, onAp := false }
  | .issueAp vf ident :: t => planSlice { s with agenda := t } vf ident
  | .issue vf ident other :: t =>
    if !s.round.isEmpty then planRound s
    else
      match ctxOf s vf ident with
      | none => .drop { s with agenda := t }
      | some c => planIssue { s with agenda := t } c other
  | [] => planRound (if s.round.isEmpty then beginRound s else s)

/-! ## Time -/

/-- Loads in flight in a window return, each at a time that is open; one of the whole group returns whole (R75). -/
def returning (free : Nat) (w : Window) : Window :=
  let whole := w.srcs.any (·.1 == 32)
  { w with srcs := w.srcs.filter fun x => Config.inFlight free x.2.1 (if whole then 32 else x.1) }

/-- Loads of a group and of its slice in flight return. -/
def returned (free : Nat) (c : Ctx) : Ctx :=
  { c with wins := c.wins.map (returning free), ap := c.ap.map fun a => { a with wins := a.wins.map (returning free) } }

/-- What goes on while time passes: loads in flight return, writes on their way arrive and are counted (R244), and the device tries again
what waits for pages (R100). -/
def background (s : State) : State :=
  retryChores (countArrived (evict { s with g := returned s.free s.g, others := s.others.map (returned s.free) }))

/-- What a step that takes no aclk leaves: the free counter goes on, and so does what is on its way. -/
def lull (s : State) : State := background { s with free := s.free + 1 }

/-- Time passes after a step, unless others still issue in the same aclk: some aclk (R7), in all but the first of which no group
is ready (R25), and some nanoseconds (R317). The free counter goes on. -/
def tick (s : State) : State :=
  if !s.round.isEmpty then lull s
  else
    let dt := 1 + Config.aclkStep s.free
    let t := advanceTnow s (Config.nsStep s.free)
    background (accrue { t with acnt := t.acnt + BitVec.ofNat 64 dt, free := t.free + 1 } dt)

/-! ## Placing a program -/

/-- Where `placed` puts the instruction. -/
def placeAt : Nat := 0x10000

/-- Stores bytes of a value at a physical address, as a loader outside the machine would. -/
def placeBytes (s : State) (pa n x : Nat) : State :=
  { s with ms := { s.ms with
      mem := ((physKeys s pa n).zip (bytesOfNat n x)).foldl (fun m e => storeSet emptyByte m e.1 e.2) s.ms.mem } }

/-- The group that runs the placed instruction: context 0 of partition 0 of core 0 of CD0, in the mode of the management core's
own work, all lanes at the instruction. -/
def placedCtx : Ctx :=
  { noCtx with live := true, who := ⟨0, 0, ⟨0, 0, 0, 0, 0⟩, .graph, false, none, none, 0, 0, 0, 0⟩, mode := .mch
               s0 := ⟨true, BitVec.ofNat 57 placeAt, 0xFFFFFFFF, .none⟩ }

/-- The machine as a loader leaves it (notes/assumptions/1.md): range 0 of the address map covers LPDDR-6, the context table and
three tables at its start map the first GiB to itself, the instruction stands at `placeAt`, and the next step issues the
group there. -/
def placed (s : State) (w : Nat) : State :=
  let s := setDevReg s 0x140 0x8000000000000000
  let s := setDevReg s 0x141 0x7FE00000
  let s := setDevReg s 0x142 0xFE000102
  let s := placeBytes s 0 8 0x1001
  let s := placeBytes s 0x1000 8 0x7000000000020001
  let s := placeBytes s 0x2000 8 0x7000000000030001
  let s := placeBytes s 0x3000 8 0x2F
  let s := placeBytes s placeAt 4 w
  { s with
    g := placedCtx
    others := if s.g.live then s.others ++ [s.g] else s.others
    agenda := [.issue 0 0 false]
    round := [] }

end Sys2Proof.Machine
end

