-- ==== Sys2Proof/Machine/Step.lean ====
section
/-! DEFINITION. One step of the machine. -/

namespace Sys2Proof.Machine

/-- What follows an outcome that is a next state. -/
def after (f : State → State) : Host.Outcome State Fault Refusal → Host.Outcome State Fault Refusal
  | .next s => .next (f s)
  | .fault r => .fault r
  | .refused r => .refused r

/-- One step: the plan is carried out. -/
noncomputable def step (s : State) : Host.Outcome State Fault Refusal :=
  match plan s with
  | .idle t => .next (tick t)
  | .drop t => .next (lull t)
  | .event i t => after lull (exec i t)
  | .entry i t => after tick (exec i t)
  | .issue t => after tick (exec (fetched t).1 (fetched t).2)
  | .redo t pc m =>
    let u := redoStart t pc m
    after (fun v => tick (redoFinish t v pc m)) (exec (fetched u).1 (fetched u).2)
  | .slice t mode => after (fun v => lull (sliceDone v mode)) (exec (fetched t).1 (fetched t).2)

/-- The machine with the instruction of the table's word `w` placed where the next step fetches (notes/assumptions/1.md). -/
def State.withFetchWord (s : State) (_nbits w : Nat) : State := placed s w

end Sys2Proof.Machine
end

