-- ==== Sys2Proof/Safety.lean ====
section
/-! DEFINITION. The terms in which claims are stated: memory in its canonical form and the invariant that every step keeps;
when an instruction goes to its effect; what a selector may change. -/

namespace Sys2Proof.Machine

/-- Memory is in its canonical form: addresses strictly rising, no entry equal to what an unlisted address reads as. -/
def Memory.wf (m : List Host.Cell) : Bool := storeWf emptyByte m

/-- What every step keeps. -/
def StateInv (s : State) : Prop := Memory.wf s.ms.mem = true

/-- Nothing stands between an instruction and its effect: a group is live, the word raises no cause of the first row of R154
(`io.bad`), no window that must close first holds a lane that completes with 0x30 (R151, R170), and no debug read meets an
open window (R174). -/
def Clear (s : State) (nas : Nas) (io : Io) : Prop :=
  s.g.live = true ∧ io.bad = [] ∧ (∀ w ∈ closing s io.writes, w.gone = 0) ∧
    debugRead (closed s io.writes) nas io.reads = false

/-- `t` is `s` but for what a next-address selector uses: the slots, the sequencing state, the divergence regions with their
cached top, and what a push, a pop or a spill of them does to memory (R12 to R20, R167 to R169). -/
def Sequenced (s t : State) : Prop :=
  t = { s with
    ms := t.ms
    fresh := t.fresh
    g := { s.g with
      s0 := t.g.s0, s1 := t.g.s1, seq := t.g.seq, hseq := t.g.hseq, dsp := t.g.dsp, dsh := t.g.dsh, top := t.g.top
      ord := t.g.ord, ap := t.g.ap } }

/-- `new` is `old` with words 0 .. w - 1 of `val` in registers v_d on, in the lanes of a mask; every other lane of every
register stands (R10). -/
def LaneWritten (old new : Store Word) (d w : Nat) (m : Mask) (val : Nat → Nat → Word) : Prop :=
  ∀ key, storeGet 0 new key =
    if 32 * d ≤ key ∧ key < 32 * (d + w) ∧ lane m (key % 32) then val (key / 32 - d) (key % 32) else storeGet 0 old key

/-- `new` is `old` with words 0 .. w - 1 of `val` in the registers that code d names on: each k register once, each v register in
every lane that the group has (R164). -/
def UniformWritten (c : Ctx) (old new : Store Word) (d : RegCode) (w : Nat) (val : Nat → Word) : Prop :=
  if isV d then LaneWritten old new d.toNat w (allLanes c) fun i _ => val i
  else ∀ key, storeGet 0 new key =
    if kKey (d.toNat - 48) ≤ key ∧ key < kKey (d.toNat - 48 + w) then val (key - kKey (d.toNat - 48)) else storeGet 0 old key

/-- `new` is `old` with mask register i replaced; m0 discards what is written to it (R163). -/
def MaskWritten (old new : Store Word) (i : Nat) (x : Mask) : Prop :=
  ∀ key, storeGet 0 new key = if i ≠ 0 ∧ key = mKey i then x else storeGet 0 old key

/-- `s` with other registers and FLAGS of the group, and all else as it is. -/
def withRegs (s : State) (r : Store Word) (fl : Word) : State := { s with g := { s.g with regs := r, flags := fl } }

end Sys2Proof.Machine
end

