-- ==== Sys2Proof/Certificates/Slice0/Obligations.lean ====
section
/-! DEFINITION. The statements for the provers. Each says in its docstring which rule of spec/ it formalises. A statement of an
instruction's result has the same form throughout: nothing stands between the word and its effect (`Clear`), its operands are
there (`takeAll`, R33), and then the instruction completes (`exec i s = .next (finished u …)`) from any state that its selector
makes (`applyNas (selectorMask t) … = .ok u`) of one that differs from the old only as the statement says. What a selector may change is the
statement SelectorsSequence, and what `finished` changes is CompletionCounts. -/

open Sys2Proof Sys2Proof.Machine

/-! ## Number formats -/

/-- The sign bit of a pattern (R191). -/
def Claims.negative (f : Fmt) (x : Nat) : Bool := x.testBit (f.ebits + f.fbits)

/-- The fields E and F of a pattern (R191). -/
def Claims.expField (f : Fmt) (x : Nat) : Nat := x / 2 ^ f.fbits % 2 ^ f.ebits
@[inherit_doc Claims.expField] def Claims.fracField (f : Fmt) (x : Nat) : Nat := x % 2 ^ f.fbits

/-- A pattern is a NaN or an infinity (R191): E4M3 has one NaN pattern for each sign, and no infinity. -/
def Claims.nan (f : Fmt) (x : Nat) : Bool :=
  Claims.expField f x = 2 ^ f.ebits - 1 && if f.e4m3 then Claims.fracField f x = 7 else Claims.fracField f x ≠ 0
@[inherit_doc Claims.nan] def Claims.infinite (f : Fmt) (x : Nat) : Bool :=
  !f.e4m3 && Claims.expField f x = 2 ^ f.ebits - 1 && Claims.fracField f x = 0

/-- A pattern is neither. -/
def Claims.finite (f : Fmt) (x : Nat) : Bool := !Claims.nan f x && !Claims.infinite f x

/-- The value of a finite pattern (R191). -/
def Claims.number (f : Fmt) (x : Nat) : ℚ :=
  (if Claims.negative f x then -1 else 1) *
    if Claims.expField f x = 0 then (2 : ℚ) ^ (1 - (f.bias : ℤ)) * ((Claims.fracField f x : ℚ) / 2 ^ f.fbits)
    else (2 : ℚ) ^ ((Claims.expField f x : ℤ) - f.bias) * (1 + (Claims.fracField f x : ℚ) / 2 ^ f.fbits)

/-- The formats of R191, each with its canonical NaN. -/
def Claims.formats : List (Fmt × Nat) :=
  [(f64, 0x7FF8000000000000), (f32, 0x7FC00000), (bf16, 0x7FC0), (f16, 0x7E00), (e5m2, 0x7E), (e4m3, 0x7F)]

/-- The largest finite value (R191), and its pattern. -/
def Claims.largest (f : Fmt) : ℚ := if f.e4m3 then 448 else (2 - (2 : ℚ) ^ (-(f.fbits : ℤ))) * 2 ^ f.bias
@[inherit_doc Claims.largest] def Claims.maxPattern (f : Fmt) (neg : Bool) : Nat :=
  (if neg then 2 ^ (f.ebits + f.fbits) else 0) + if f.e4m3 then 0x7E else (2 ^ f.ebits - 1) * 2 ^ f.fbits - 1

/-- A zero and an infinity of a sign. -/
def Claims.zeroPattern (f : Fmt) (neg : Bool) : Nat := if neg then 2 ^ (f.ebits + f.fbits) else 0
@[inherit_doc Claims.zeroPattern] def Claims.infPattern (f : Fmt) (neg : Bool) : Nat :=
  Claims.zeroPattern f neg + (2 ^ f.ebits - 1) * 2 ^ f.fbits

/-- The values of n significant bits, with no exponent below `lo`. -/
def Claims.Grid (n : Nat) (lo : Option ℤ) (w : ℚ) : Prop := ∃ m k : ℤ, |m| < 2 ^ n ∧ (∀ q ∈ lo, q ≤ k) ∧ w = m * (2 : ℚ) ^ k

/-- `w` is what a rounding mode makes of v among the values `on`, where `even` says that the last bit of a value is 0 (R196). -/
def Claims.Rounded (mode : Rnd) (on even : ℚ → Prop) (v w : ℚ) : Prop :=
  on w ∧
  match mode with
  | .rne => ∀ y, on y → |w - v| ≤ |y - v| ∧ (|y - v| = |w - v| → y ≠ w → even w)
  | .rtz => |w| ≤ |v| ∧ 0 ≤ w * v ∧ ∀ y, on y → |y| ≤ |v| → |y| ≤ |w|
  | .rup => v ≤ w ∧ ∀ y, on y → v ≤ y → w ≤ y
  | .rdn => w ≤ v ∧ ∀ y, on y → y ≤ v → y ≤ w

/-- What an overflowed result becomes (R197). -/
def Claims.overflow (f : Fmt) (mode : Rnd) (sat neg : Bool) : Nat :=
  if sat ∨ mode = .rtz ∨ (mode = .rup ∧ neg = true) ∨ (mode = .rdn ∧ neg = false) then Claims.maxPattern f neg
  else if f.e4m3 then 0x7F else Claims.infPattern f neg

/-- `r` is the pattern and the FLAGS that an exact value v comes to in a format: zero with the sign `neg`; where the value rounded with
an unbounded exponent exceeds the largest finite one, OF and NX; else the value rounded among those of the format, subnormals
included, with NX where it differs from v and UF where it is tiny too (R193, R194, R196 to R198). -/
def Claims.Delivers (f : Fmt) (mode : Rnd) (sat neg : Bool) (v : ℚ) (r : Nat × Word) : Prop :=
  (v = 0 → r = (Claims.zeroPattern f neg, 0)) ∧
  (v ≠ 0 → ∃ u, Claims.Rounded mode (Claims.Grid (f.fbits + 1) none) (Claims.Grid f.fbits none) v u ∧
    (Claims.largest f < |u| → r = (Claims.overflow f mode sat (decide (v < 0)), flOf ||| flNx)) ∧
    (|u| ≤ Claims.largest f → r.1 < 2 ^ (f.ebits + f.fbits + 1) ∧ Claims.finite f r.1 = true ∧
      Claims.negative f r.1 = decide (v < 0) ∧
      Claims.Rounded mode (Claims.Grid (f.fbits + 1) (some (1 - f.bias - f.fbits))) (Claims.Grid f.fbits (some (2 - f.bias - f.fbits)))
        v (Claims.number f r.1) ∧
      r.2 = if Claims.number f r.1 = v then 0 else if |u| < (2 : ℚ) ^ (1 - (f.bias : ℤ)) then flNx ||| flUf else flNx))

/-- ArithmeticRounds (R191 to R194, R196 to R198, R203): addition, multiplication and the fused form round the exact value once, to
nearest even, with subnormals taken and given at their values; a NaN operand gives the canonical NaN without a flag, and what has no
value gives it with INV; subtraction adds with the sign of b turned; division and square root are rounded correctly, with DZ for a
finite value divided by zero. -/
def Obligations.ArithmeticRounds : Prop :=
  ∀ p ∈ Claims.formats.take 4, ∀ x y z : Nat,
    let f := p.1
    let neg := Claims.negative f
    let inf := fun a => Claims.infinite f a = true
    let fin := fun a => Claims.finite f a = true
    let nan := fun a => Claims.nan f a = true
    let zero := fun a => Claims.finite f a = true ∧ Claims.number f a = 0
    let sign := neg x != neg y
    x < 2 ^ (f.ebits + f.fbits + 1) → y < 2 ^ (f.ebits + f.fbits + 1) → z < 2 ^ (f.ebits + f.fbits + 1) →
    (nan x ∨ nan y → fAdd f x y = (p.2, 0) ∧ fMul f x y = (p.2, 0) ∧ fFma f x y z = (p.2, 0) ∧ fDiv f x y = (p.2, 0)) ∧
    (inf x → inf y → fAdd f x y = if sign then (p.2, flInv) else (x, 0)) ∧
    (inf x → fin y → fAdd f x y = (x, 0)) ∧ (fin x → inf y → fAdd f x y = (y, 0)) ∧
    (fin x → fin y → Claims.Delivers f .rne false (neg x && neg y) (Claims.number f x + Claims.number f y) (fAdd f x y)) ∧
    fSub f x y = fAdd f x (if neg y then y - 2 ^ (f.ebits + f.fbits) else y + 2 ^ (f.ebits + f.fbits)) ∧
    ((inf x ∧ zero y) ∨ (zero x ∧ inf y) → fMul f x y = (p.2, flInv) ∧ fFma f x y z = (p.2, flInv)) ∧
    ((inf x ∧ ¬nan y ∧ ¬zero y) ∨ (inf y ∧ ¬nan x ∧ ¬zero x) → fMul f x y = (Claims.infPattern f sign, 0) ∧
      fFma f x y z = if nan z then (p.2, 0) else if inf z ∧ neg z ≠ sign then (p.2, flInv) else (Claims.infPattern f sign, 0)) ∧
    (fin x → fin y → Claims.Delivers f .rne false sign (Claims.number f x * Claims.number f y) (fMul f x y) ∧
      (nan z → fFma f x y z = (p.2, 0)) ∧ (inf z → fFma f x y z = (z, 0)) ∧
      (fin z → Claims.Delivers f .rne false (sign && neg z) (Claims.number f x * Claims.number f y + Claims.number f z) (fFma f x y z))) ∧
    (inf x → inf y → fDiv f x y = (p.2, flInv)) ∧ (inf x → fin y → fDiv f x y = (Claims.infPattern f sign, 0)) ∧
    (fin x → inf y → fDiv f x y = (Claims.zeroPattern f sign, 0)) ∧ (zero x → zero y → fDiv f x y = (p.2, flInv)) ∧
    (fin x → ¬zero x → zero y → fDiv f x y = (Claims.infPattern f sign, flDz)) ∧
    (fin x → fin y → ¬zero y → Claims.Delivers f .rne false sign (Claims.number f x / Claims.number f y) (fDiv f x y)) ∧
    (nan x → fSqrt f x = (p.2, 0)) ∧ (inf x → fSqrt f x = if neg x then (p.2, flInv) else (x, 0)) ∧
    (zero x → fSqrt f x = (x, 0)) ∧ (fin x → ¬zero x → neg x = true → fSqrt f x = (p.2, flInv)) ∧
    (fin x → ¬zero x → neg x = false → ∃ r, fSqrt f x = (r, if Claims.number f r ^ 2 = Claims.number f x then 0 else flNx) ∧
      r < 2 ^ (f.ebits + f.fbits) ∧ fin r ∧ ∀ y, 0 ≤ y → Claims.Grid (f.fbits + 1) (some (1 - f.bias - f.fbits)) y →
        (y < Claims.number f r → ((y + Claims.number f r) / 2) ^ 2 ≤ Claims.number f x) ∧
        (Claims.number f r < y → Claims.number f x ≤ ((y + Claims.number f r) / 2) ^ 2))

/-- The integer that a pattern of w bits holds (R195). -/
def Claims.integer (w : Nat) (signed : Bool) (x : Nat) : ℤ :=
  if signed ∧ 2 ^ (w - 1) ≤ x then (x : ℤ) - 2 ^ w else x

/-- A conversion between two formats, of a pattern of the first (R197, R199): `r` is the result's pattern with its FLAGS. -/
def Claims.Converts (a b : Machine.Num) (mode : Rnd) (sat : Bool) (x : Nat) (r : Nat × Word) : Prop :=
  match a, b with
  | .fl f, .fl g =>
    (Claims.nan f x = true → ∀ p ∈ Claims.formats, p.1 = g → r = (p.2, 0)) ∧
    (f.ebits ≤ g.ebits ∧ f.fbits < g.fbits →
      (Claims.infinite f x = true → r = (Claims.infPattern g (Claims.negative f x), 0)) ∧
      (Claims.finite f x = true → r.2 = 0 ∧ r.1 < 2 ^ (g.ebits + g.fbits + 1) ∧ Claims.finite g r.1 = true ∧
        Claims.negative g r.1 = Claims.negative f x ∧ Claims.number g r.1 = Claims.number f x)) ∧
    (¬(f.ebits ≤ g.ebits ∧ f.fbits < g.fbits) →
      (Claims.infinite f x = true → r = if sat then (Claims.maxPattern g (Claims.negative f x), flOf ||| flNx)
        else if g.e4m3 then (0x7F, flInv) else (Claims.infPattern g (Claims.negative f x), 0)) ∧
      (Claims.finite f x = true → Claims.Delivers g mode sat (Claims.negative f x) (Claims.number f x) r))
  | .fl f, .int w signed =>
    let lo : ℤ := if signed then -2 ^ (w - 1) else 0
    let hi : ℤ := if signed then 2 ^ (w - 1) - 1 else 2 ^ w - 1
    let is := fun (z : ℤ) (fl : Word) => r.1 < 2 ^ w ∧ Claims.integer w signed r.1 = z ∧ r.2 = fl
    (Claims.nan f x = true → is (if sat then 0 else lo) flInv) ∧
    (Claims.infinite f x = true → is (if sat ∧ Claims.negative f x = false then hi else lo) flInv) ∧
    (Claims.finite f x = true → ∃ z : ℤ, Claims.Rounded mode (fun w => ∃ k : ℤ, w = k) (fun w => ∃ k : ℤ, w = 2 * k) (Claims.number f x) z ∧
      (lo ≤ z → z ≤ hi → is z (if (z : ℚ) = Claims.number f x then 0 else flNx)) ∧
      (z < lo → is lo flInv) ∧ (hi < z → is (if sat then hi else lo) flInv))
  | .int w signed, .fl g => Claims.Delivers g mode sat false (Claims.integer w signed x) r
  | .int w signed, .int w' signed' =>
    let v := Claims.integer w signed x
    let lo : ℤ := if signed' then -2 ^ (w' - 1) else 0
    let hi : ℤ := if signed' then 2 ^ (w' - 1) - 1 else 2 ^ w' - 1
    r.1 < 2 ^ w' ∧ (lo ≤ v ∧ v ≤ hi → Claims.integer w' signed' r.1 = v ∧ r.2 = 0) ∧
    (sat = true → (v < lo → Claims.integer w' signed' r.1 = lo ∧ r.2 = flOf) ∧ (hi < v → Claims.integer w' signed' r.1 = hi ∧ r.2 = flOf)) ∧
    (sat = false → ((r.1 : ℤ) - v) % 2 ^ w' = 0 ∧ r.2 = 0)

/-- The rounding codes 0 to 5 (R184). -/
def Claims.roundings : List (Rnd × Bool) := [(.rne, false), (.rtz, false), (.rup, false), (.rdn, false), (.rne, true), (.rtz, true)]

/-- The levels of R200, in 128ths. -/
def Claims.levels : List ℚ := [-128, -91, -69, -53, -40, -28, -16, -5, 5, 16, 28, 40, 53, 69, 91, 128]

/-- The pattern of an array operand's element k, and its value, in an activation or weight format of R112 (R249). -/
def Claims.element (fmt : Nat) (regs : List Word) (k : Nat) : Nat :=
  if fmt ≤ 1 then (regs.getD (k / 2) 0).toNat / 2 ^ (16 * (k % 2)) % 2 ^ 16 else (regs.getD (k / 4) 0).toNat / 2 ^ (8 * (k % 4)) % 2 ^ 8
@[inherit_doc Claims.element] def Claims.elementValue (fmt : Nat) (regs : List Word) (k : Nat) : ℚ :=
  let x := Claims.element fmt regs k
  if fmt = 0 then Claims.number bf16 x else if fmt = 1 then Claims.number f16 x else if fmt = 2 then Claims.number e4m3 x
  else if fmt = 3 then Claims.number e5m2 x else Claims.integer 8 (fmt = 4) x

/-- An element is a NaN or an infinity of its format (R118). -/
def Claims.elementSpecial (fmt : Nat) (regs : List Word) (k : Nat) : Bool :=
  let x := Claims.element fmt regs k
  if fmt = 0 then !Claims.finite bf16 x else if fmt = 1 then !Claims.finite f16 x else if fmt = 2 then !Claims.finite e4m3 x
  else if fmt = 3 then !Claims.finite e5m2 x else false

/-- ConversionsRound (R117, R118, R195, R199 to R201, R219, R282): every code of vcvt and gfcvt converts by its pair's rule, from the low
bits of the source, and extends a narrow result into its register; a Q4N element is one rounding of its exact value; an array's row
sum is exact, with the levels and scales of Q4N, and comes to an element by one rounding, with OF alone, zeros as +0, and canonical NaN
with INV in a flagged row. -/
def Obligations.ConversionsRound : Prop :=
  (∀ ab ∈ (List.range 40).map vcvtPair ++ (List.range 16).map gfcvtPair, ∀ x < 6, ∀ v : Nat,
    ∃ (m : Rnd × Bool) (r : Nat × Word), Claims.roundings[x]? = some m ∧ Claims.Converts ab.1 ab.2 m.1 m.2 (v % 2 ^ ab.1.width) r ∧
      convertRegs ab.1 ab.2 x v = (match ab.2 with
        | .int 64 _ | .fl ⟨11, 52, _, _⟩ => [BitVec.ofNat 32 r.1, BitVec.ofNat 32 (r.1 / 2 ^ 32)]
        | .int w true => [BitVec.ofInt 32 (Claims.integer w true r.1)]
        | _ => [BitVec.ofNat 32 r.1], r.2)) ∧
  (∀ c < 16, ∀ m S : Nat, S < 2 ^ 32 →
    (Claims.nan f32 S = true → q4Decode c m S = (0x7FC00000, 0)) ∧
    (Claims.infinite f32 S = true → q4Decode c m S = (Claims.infPattern f32 (Claims.negative f32 S != decide (c < 8)), 0)) ∧
    (Claims.finite f32 S = true → Claims.Delivers f32 .rne false (Claims.negative f32 S != decide (c < 8))
      (Claims.levels.getD c 0 / 128 * Claims.number f32 S * (m % 256 + 1 : Nat) / 256) (q4Decode c m S))) ∧
  (∀ (af n : Nat) (a : List Word) (b : List (List Word)) (w : Weights), af ≤ 5 → n < 32 →
    let col := b.map fun r => r.getD n 0
    let sum := columnSum af a b w n
    (w.fmt ≤ 5 → (∀ k < passDepth w.fmt, Claims.elementSpecial af a k = false ∧ Claims.elementSpecial w.fmt col k = false) →
      (sum.1 : ℚ) * 2 ^ sum.2 =
        ((List.range (if w.fmt ≤ 1 then 32 else 64)).map fun k => Claims.elementValue af a k * Claims.elementValue w.fmt col k).sum) ∧
    (w.fmt = 8 → (∀ k < 128, Claims.elementSpecial af a k = false) → Claims.finite f32 (w.s.getD n 0).toNat = true →
      (sum.1 : ℚ) * 2 ^ sum.2 = ((List.range 128).map fun k =>
        Claims.elementValue af a k * (Claims.levels.getD ((col.getD (k / 8) 0).toNat / 2 ^ (4 * (k % 8)) % 16) 0 / 128) *
          (((w.m.getD n 0).toNat / 2 ^ (8 * (k / 64)) % 256 + 1 : Nat) : ℚ) * Claims.number f32 (w.s.getD n 0).toNat / 256).sum)) ∧
  ∀ (old : Word) (sum : ℤ × ℤ), rowElem true old sum = (0x7FC00000, flInv) ∧
    (Claims.nan f32 old.toNat = true → rowElem false old sum = (0x7FC00000, flInv)) ∧
    (Claims.infinite f32 old.toNat = true → rowElem false old sum = (old, 0)) ∧
    (Claims.finite f32 old.toNat = true → ∃ r, Claims.Delivers f32 .rne false false (Claims.number f32 old.toNat + sum.1 * 2 ^ sum.2) r ∧
      rowElem false old sum = (if r.1 % 2 ^ 31 = 0 then 0 else BitVec.ofNat 32 r.1, r.2 &&& flOf))

/-! ## Lane arithmetic -/

/-- A lane form of format R: its constructor, its sources by place, code and width, the width of its result, whether x is its
predicate (R184), the masks it reads beside that, and the words and FLAGS of a lane, from word i of source n in a lane. -/
structure Claims.LaneRow where
  form : FmtR → Instr
  srcs : FmtR → List (Nat × RegCode × Nat)
  width : FmtR → Nat := fun _ => 1
  pred : Bool := true
  core : Bool := false
  masks : FmtR → List Nat := fun _ => []
  fn : FmtR → State → (Nat → Nat → Nat → Word) → Nat → List Word × Word

/-- The predicate field of a row. -/
def Claims.LaneRow.x (r : Claims.LaneRow) (f : FmtR) : BitVec 3 := if r.pred then f.x else 0

/-- What issue must know of a row. -/
def Claims.LaneRow.io (r : Claims.LaneRow) (f : FmtR) (s : State) : Io :=
  ⟨noAp s ++ vBad f.d (r.width f) ++ (if r.core then coreOnly s else (r.srcs f).flatMap fun o => alignBad o.2.1 o.2.2),
    (r.srcs f).flatMap (fun o => codes o.2.1 o.2.2) ++ (64 + (r.x f).toNat) :: r.masks f, codes f.d (r.width f)⟩

/-- A row's result: the acting lanes of the destination hold the row's words, FLAGS gain the row's flags of those lanes, and all
else is as the operands left it. -/
def Claims.LaneRow.holds (r : Claims.LaneRow) : Prop :=
  ∀ (f : FmtR) (s t s' : State) (os : List Opnd), t = closed s (codes f.d (r.width f)) →
    Clear s f.nas (r.io f s) → takeAll (r.srcs f) t = .ok (os, s') →
    ∃ regs, LaneWritten s'.g.regs regs f.d.toNat (r.width f) (acting t (r.x f))
        (fun i l => (r.fn f t (src t os) l).1.getD i 0) ∧
      ∀ u, applyNas (selectorMask t) (withRegs s' regs (s'.g.flags ||| orLanes (acting t (r.x f)) fun l => (r.fn f t (src t os) l).2)) f.nas = .ok u →
        exec (r.form f) s = .next (finished u (codes f.d (r.width f)))

/-- One, two and three 32-bit sources. -/
def Claims.one (f : FmtR) : List (Nat × RegCode × Nat) := [(1, f.a, 1)]
@[inherit_doc Claims.one] def Claims.two (f : FmtR) : List (Nat × RegCode × Nat) := [(1, f.a, 1), (2, f.b, 1)]
@[inherit_doc Claims.one] def Claims.three (f : FmtR) : List (Nat × RegCode × Nat) := [(0, f.d, 1), (1, f.a, 1), (2, f.b, 1)]

/-- A row of two sources and no flag. -/
def Claims.binary (mk : FmtR → Instr) (op : Word → Word → Word) : Claims.LaneRow :=
  { form := mk, srcs := Claims.two, fn := fun _ _ v l => ([op (v 0 0 l) (v 1 0 l)], 0) }

/-- A row of two sources with flags. -/
def Claims.binaryFlags (mk : FmtR → Instr) (op : Word → Word → Word × Word) : Claims.LaneRow :=
  { form := mk, srcs := Claims.two, fn := fun _ _ v l => let r := op (v 0 0 l) (v 1 0 l); ([r.1], r.2) }

/-- A row of one source with flags. -/
def Claims.unaryFlags (mk : FmtR → Instr) (op : Word → Word × Word) : Claims.LaneRow :=
  { form := mk, srcs := Claims.one, fn := fun _ _ v l => let r := op (v 0 0 l); ([r.1], r.2) }

/-- A row of three sources, d first, with flags. -/
def Claims.ternaryFlags (mk : FmtR → Instr) (op : Word → Word → Word → Word × Word) : Claims.LaneRow :=
  { form := mk, srcs := Claims.three, fn := fun _ _ v l => let r := op (v 0 0 l) (v 1 0 l) (v 2 0 l); ([r.1], r.2) }

/-- The integer operations of R208, on integers where the rule is. -/
def Claims.laneInteger : List Claims.LaneRow :=
  [Claims.binary .vadd fun a b => a + b,
   Claims.binary .vsub fun a b => a - b,
   Claims.binary .vmul fun a b => a * b,
   Claims.binary .vmulhs fun a b => BitVec.ofInt 32 (a.toInt * b.toInt / 2 ^ 32),
   Claims.binary .vmulhn fun a b => BitVec.ofNat 32 (a.toNat * b.toNat / 2 ^ 32),
   Claims.binary .vmins fun a b => if a.toInt < b.toInt then a else b,
   Claims.binary .vminn fun a b => if a.toNat < b.toNat then a else b,
   Claims.binary .vmaxs fun a b => if b.toInt < a.toInt then a else b,
   Claims.binary .vmaxn fun a b => if b.toNat < a.toNat then a else b,
   Claims.binary .vand fun a b => a &&& b,
   Claims.binary .vor fun a b => a ||| b,
   Claims.binary .vxor fun a b => a ^^^ b,
   Claims.binary .vshl fun a b => BitVec.ofNat 32 (a.toNat * 2 ^ (b.toNat % 256)),
   Claims.binary .vshr fun a b => BitVec.ofNat 32 (a.toNat / 2 ^ (b.toNat % 256)),
   Claims.binary .vsar fun a b => BitVec.ofInt 32 (a.toInt / 2 ^ (b.toNat % 256))]

/-- The forms of R208 to R210 with a mask, pairs or bit fields. -/
def Claims.laneField : List Claims.LaneRow :=
  [{ form := .vsel, srcs := Claims.two, pred := false, masks := fun f => [64 + f.x.toNat],
     fn := fun f t v l => ([if lane (readMask t 3 f.x.toNat) l then v 0 0 l else v 1 0 l], 0) },
   { form := .vadd64, srcs := fun f => [(1, f.a, 2), (2, f.b, 2)], width := fun _ => 2,
     fn := fun _ _ v l => let r := pair (v 0 1 l) (v 0 0 l) + pair (v 1 1 l) (v 1 0 l); ([loWord r, hiWord r], 0) },
   { form := .vsub64, srcs := fun f => [(1, f.a, 2), (2, f.b, 2)], width := fun _ => 2,
     fn := fun _ _ v l => let r := pair (v 0 1 l) (v 0 0 l) - pair (v 1 1 l) (v 1 0 l); ([loWord r, hiWord r], 0) },
   Claims.unaryFlags .vclz fun a => (clz a, 0),
   Claims.unaryFlags .vpopc fun a => (popc a, 0),
   Claims.binary .vbfx bitField,
   Claims.ternaryFlags .vbfi fun d a b => (insertField d a b, 0)]

/-- The floating-point forms of R213, R214 and R217 and the special functions of R218. -/
def Claims.laneFloat : List Claims.LaneRow :=
  [Claims.binaryFlags .vfadd fun a b => res32 (fAdd f32 a.toNat b.toNat),
   Claims.binaryFlags .vfsub fun a b => res32 (fSub f32 a.toNat b.toNat),
   Claims.binaryFlags .vfmul fun a b => res32 (fMul f32 a.toNat b.toNat),
   Claims.ternaryFlags .vfma fun d a b => res32 (fFma f32 a.toNat b.toNat d.toNat),
   Claims.binary .vfmin fun a b => BitVec.ofNat 32 (fMin f32 a.toNat b.toNat),
   Claims.binary .vfmax fun a b => BitVec.ofNat 32 (fMax f32 a.toNat b.toNat),
   Claims.binaryFlags .vhaddBf16x2 (packed2 (fAdd bf16)),
   Claims.binaryFlags .vhaddF16x2 (packed2 (fAdd f16)),
   Claims.binaryFlags .vhmulBf16x2 (packed2 (fMul bf16)),
   Claims.binaryFlags .vhmulF16x2 (packed2 (fMul f16)),
   Claims.ternaryFlags .vhfmaBf16x2 fun d a b => packed3 (fFma bf16) a b d,
   Claims.ternaryFlags .vhfmaF16x2 fun d a b => packed3 (fFma f16) a b d,
   Claims.binary .vfsgnBf16x2 fun a b => a ^^^ (b &&& 0x80008000),
   Claims.binary .vfsgnF16x2 fun a b => a ^^^ (b &&& 0x80008000),
   Claims.unaryFlags .vrcp fRcp,
   Claims.unaryFlags .vrsq fRsq,
   Claims.unaryFlags .vsqrt fSqrt32,
   Claims.unaryFlags .vexp2 fExp2,
   Claims.unaryFlags .vlog2 fLog2,
   Claims.unaryFlags .vtrigSinpi fSinPi,
   Claims.unaryFlags .vtrigCospi fCosPi]

/-- LaneFloatResults (R213, R214, R217, R218): floating-point results and the FLAGS they leave. The bits of the special functions
that R203 leaves open are the free values of notes/assumptions/8.md, and the statement holds for every value of them. -/
def Obligations.LaneFloatResults : Prop := ∀ r ∈ Claims.laneFloat, r.holds

/-- Conversion, packing, decompression (R219 to R221) and exchange (R222). -/
def Claims.laneMove : List Claims.LaneRow :=
  [{ form := .vcvt, pred := false, srcs := fun f => [(1, f.a, numRegs (vcvtPair f.b.toNat).1)],
     width := fun f => numRegs (vcvtPair f.b.toNat).2,
     fn := fun f _ v l => convertRegs (vcvtPair f.b.toNat).1 (vcvtPair f.b.toNat).2 f.x.toNat
       (if numRegs (vcvtPair f.b.toNat).1 = 2 then (pair (v 0 1 l) (v 0 0 l)).toNat else (v 0 0 l).toNat) },
   { form := .vpk, pred := false, srcs := fun f => if 4 ≤ f.x.toNat then Claims.three f else Claims.two f,
     fn := fun f _ v l =>
       let r := if 4 ≤ f.x.toNat then packCode f.x.toNat (v 0 0 l) (v 1 0 l) (v 2 0 l) else packCode f.x.toNat 0 (v 0 0 l) (v 1 0 l)
       ([r.1], r.2) },
   { form := .vq4dec, srcs := fun f => [(1, f.a, 1), (2, f.b, 2)],
     fn := fun _ _ v l =>
       let odd := (v 1 1 l).toNat
       let r := q4Decode ((v 0 0 l).toNat / 2 ^ (4 * (odd / 256 % 8)) % 16) (odd % 256) (v 1 0 l).toNat
       ([BitVec.ofNat 32 r.1], r.2) },
   { form := .vshfl, core := true, srcs := Claims.two, fn := fun _ _ v l => ([v 0 0 ((v 1 0 l).toNat % 32)], 0) },
   { form := .vshflx, core := true, srcs := Claims.two, fn := fun _ _ v l => ([v 0 0 (l ^^^ ((v 1 0 l).toNat % 32))], 0) },
   { form := .vlane, core := true, srcs := Claims.two, fn := fun _ _ v l => ([v 0 0 l + BitVec.ofNat 32 l * v 1 0 l], 0) }]

/-- LaneResults (R208 to R210, R219 to R222): the integer lane forms, selection, pairs, counts and bit fields, conversion,
packing, decompression and exchange between lanes, wherever they act. -/
def Obligations.LaneResults : Prop := ∀ r ∈ Claims.laneInteger ++ Claims.laneField ++ Claims.laneMove, r.holds

/-- The immediate forms of R211: the result from the source's word and the immediate. -/
def Claims.laneImmediate : List ((FmtI → Instr) × (FmtI → Word → Word)) :=
  [(.vaddi, fun f a => a + f.imm.signExtend 32),
   (.vandi, fun f a => a &&& f.imm.signExtend 32),
   (.vori, fun f a => a ||| f.imm.setWidth 32),
   (.vxori, fun f a => a ^^^ f.imm.signExtend 32),
   (.vshli, fun f a => BitVec.ofNat 32 (a.toNat * 2 ^ (f.imm.toNat % 32))),
   (.vshri, fun f a => BitVec.ofNat 32 (a.toNat / 2 ^ (f.imm.toNat % 32))),
   (.vsari, fun f a => BitVec.ofInt 32 (a.toInt / 2 ^ (f.imm.toNat % 32)))]

/-- The words of R211: opcode, form, and where a field is reserved (imm9[8:5] in the shifts, the unused a in vmovi). -/
def Claims.laneImmediateWords : List (BitVec 7 × (FmtI → Instr) × (FmtI → Bool)) :=
  [(0x16, .vaddi, fun _ => false), (0x17, .vandi, fun _ => false), (0x18, .vori, fun _ => false), (0x19, .vxori, fun _ => false),
   (0x1A, .vshli, fun f => f.imm.extractLsb' 5 4 != 0), (0x1B, .vshri, fun f => f.imm.extractLsb' 5 4 != 0),
   (0x1C, .vsari, fun f => f.imm.extractLsb' 5 4 != 0), (0x1D, .vmovi, fun f => f.a != 0)]

/-- Every word with one of these opcodes is a form of R211 with the word's fields, or raises 0x02 where a field is reserved. -/
def Claims.laneImmediateEncoded : Prop :=
  ∀ p ∈ Claims.laneImmediateWords, ∀ w : Word, w.getLsbD 31 = false → w.extractLsb' 21 7 = p.1 →
    let f : FmtI := ⟨wordNas w, w.extractLsb' 15 6, w.extractLsb' 9 6, w.extractLsb' 0 9⟩
    (p.2.2 f = true → decode w = .error .reserved ∧ ∀ s : State, s.g.live = true → s.onAp = false →
      exec (.wordNotInstruction w) s = .next (takeTrap s ⟨0x02, .p, 0, active s, 0, 0⟩ (active s))) ∧
    (p.2.2 f = false → decode w = .ok (p.2.1 f))

/-- LaneImmediateResults (R211): every active lane takes part, whatever the masks hold; a shift count above 31, and an a in vmovi, are
reserved. -/
def Obligations.LaneImmediateResults : Prop :=
  Claims.laneImmediateEncoded ∧
  (∀ p ∈ Claims.laneImmediate, ∀ (f : FmtI) (s t s' : State) (os : List Opnd), t = closed s (codes f.d 1) →
    Clear s f.nas ⟨noAp s ++ vBad f.d 1, codes f.a 1 ++ [64], codes f.d 1⟩ → takeAll [(1, f.a, 1)] t = .ok (os, s') →
    ∃ regs, LaneWritten s'.g.regs regs f.d.toNat 1 (active t) (fun _ l => p.2 f (src t os 0 0 l)) ∧
      ∀ u, applyNas (selectorMask t) (withRegs s' regs s'.g.flags) f.nas = .ok u → exec (p.1 f) s = .next (finished u (codes f.d 1))) ∧
  ∀ (f : FmtI) (s t : State), t = closed s (codes f.d 1) → Clear s f.nas ⟨noAp s ++ vBad f.d 1, [64], codes f.d 1⟩ →
    ∃ regs, LaneWritten t.g.regs regs f.d.toNat 1 (active t) (fun _ _ => f.imm.signExtend 32) ∧
      ∀ u, applyNas (selectorMask t) (withRegs t regs t.g.flags) f.nas = .ok u → exec (.vmovi f) s = .next (finished u (codes f.d 1))

/-- The comparison codes of R184. -/
def Claims.compare (x : BitVec 3) (lt eq : Prop) [Decidable lt] [Decidable eq] : Bool :=
  if x = 0 then eq else if x = 1 then ¬eq else if x = 2 then lt else if x = 3 then lt ∨ eq else if x = 4 then ¬lt ∧ ¬eq else ¬lt

/-- A pattern of FP32 is a NaN (R191). -/
abbrev Claims.isNan (a : Word) : Prop := a.extractLsb' 23 8 = 255 ∧ a.extractLsb' 0 23 ≠ 0

/-- A number that orders the patterns of FP32 that are no NaN as their values are ordered, with -0 equal to +0. -/
def Claims.order (a : Word) : Int := if a.getLsbD 31 then -(a.toNat % 2 ^ 31 : Nat) else (a.toNat % 2 ^ 31 : Nat)

/-- A comparison of R215: a lane's bit, and INV. -/
def Claims.floatCompare (x : BitVec 3) (a b : Word) : Bool × Word :=
  if Claims.isNan a ∨ Claims.isNan b then (x = 1 ∨ x = 6, if 2 ≤ x ∧ x ≤ 5 then flInv else 0)
  else if x = 6 then (false, 0) else if x = 7 then (true, 0)
  else (Claims.compare x (Claims.order a < Claims.order b) (Claims.order a = Claims.order b), 0)

/-- The comparisons of R212 and R215: form, opcode, and for two operands a lane's bit and its FLAGS. -/
def Claims.laneCompare : List ((FmtR → Instr) × BitVec 7 × (BitVec 3 → Word → Word → Bool × Word)) :=
  [(.vcmps, 0x1E, fun x a b => (Claims.compare x (a.toInt < b.toInt) (a = b), 0)),
   (.vcmpn, 0x1F, fun x a b => (Claims.compare x (a.toNat < b.toNat) (a = b), 0)), (.vfcmp, 0x26, Claims.floatCompare)]

/-- What a word of the lane set with this opcode, in format R, decodes to: an instruction with the word's fields, or nothing where
a field is reserved, and then the word raises 0x02 with fate P. -/
def Claims.Encoded (mk : FmtR → Instr) (op : BitVec 7) (reserved : FmtR → Prop) : Prop :=
  ∀ w : Word, w.getLsbD 31 = false → w.extractLsb' 21 7 = op →
    let f : FmtR := ⟨wordNas w, w.extractLsb' 15 6, w.extractLsb' 9 6, w.extractLsb' 3 6, w.extractLsb' 0 3⟩
    (reserved f → decode w = .error .reserved ∧ ∀ s : State, s.g.live = true → s.onAp = false →
      exec (.wordNotInstruction w) s = .next (takeTrap s ⟨0x02, .p, 0, active s, 0, 0⟩ (active s))) ∧
    (¬reserved f → decode w = .ok (mk f))

/-- A result of R216: vmop on the active lanes; code 6 keeps the lowest active lane of a alone, and 7 is reserved, as is a
mask b that a code does not use. -/
def Claims.maskLogic : Prop :=
  Claims.Encoded .vmop 0x27 (fun f => f.x = 7 ∨ (5 ≤ f.x ∧ f.b ≠ 0)) ∧ ∀ (f : FmtR) (s t : State), t = closed s [64 + f.d.toNat] → (Instr.vmop f).wellFormed = true →
    Clear s f.nas ⟨noAp s ++ maskBad f.d ++ maskBad f.a ++ maskBad f.b, [64 + f.a.toNat, 64 + f.b.toNat], [64 + f.d.toNat]⟩ →
    ∃ regs m, MaskWritten t.g.regs regs f.d.toNat m ∧
      (∀ l < 32, lane m l = (if lane (active t) l then
          (let a := lane (readMask t 1 f.a.toNat); let b := lane (readMask t 2 f.b.toNat)
           if f.x = 0 then a l && b l else if f.x = 1 then a l || b l else if f.x = 2 then a l != b l
           else if f.x = 3 then a l && !b l else if f.x = 4 then a l || !b l else if f.x = 5 then !a l
           else a l && decide (∀ k < l, lane (active t) k → a k = false))
        else lane (mAt t.g f.d.toNat) l && decide (t.g.who.loc.die ≠ 2 ∨ l = 0))) ∧
      ∀ u, applyNas (selectorMask t) (withRegs t regs t.g.flags) f.nas = .ok u → exec (.vmop f) s = .next (finished u [64 + f.d.toNat])

/-- LaneCompareResults (R212, R215, R216): the comparisons, and the logic of masks (`Claims.maskLogic`): x = 6 and 7 are reserved but in vfcmp; the bits of the active lanes of the mask are written,
the others stand; on the scalar die they become 0 (R27), and m0 takes nothing (R163). -/
def Obligations.LaneCompareResults : Prop :=
  Claims.maskLogic ∧ ∀ p ∈ Claims.laneCompare, Claims.Encoded p.1 p.2.1 (fun f => p.2.1 ≠ 0x26 ∧ 6 ≤ f.x) ∧
    ∀ (f : FmtR) (s t s' : State) (os : List Opnd), t = closed s [64 + f.d.toNat] →
    (p.1 f).wellFormed = true → Clear s f.nas ⟨noAp s ++ maskBad f.d, codes f.a 1 ++ codes f.b 1, [64 + f.d.toNat]⟩ →
    takeAll [(1, f.a, 1), (2, f.b, 1)] t = .ok (os, s') →
    ∃ regs m, MaskWritten s'.g.regs regs f.d.toNat m ∧
      (∀ l < 32, lane m l = (if lane (active t) l then (p.2.2 f.x (src t os 0 0 l) (src t os 1 0 l)).1
        else lane (mAt s'.g f.d.toNat) l && decide (s'.g.who.loc.die ≠ 2 ∨ l = 0))) ∧
      ∀ u, applyNas (selectorMask t) (withRegs s' regs (s'.g.flags ||| orLanes (active t) fun l => (p.2.2 f.x (src t os 0 0 l) (src t os 1 0 l)).2)) f.nas =
        .ok u → exec (p.1 f) s = .next (finished u [64 + f.d.toNat])

/-- What a result of R223 or R225 does to the registers: a k register once, or every active lane of a v register. -/
def Claims.ReducedWritten (c : State) (new : Store Word) (d : RegCode) (m : Mask) (x : Word) : Prop :=
  if isV d then LaneWritten c.g.regs new d.toNat 1 m fun _ _ => x
  else ∀ key, storeGet 0 new key = if key = kKey (d.toNat - 48) then x else storeGet 0 c.g.regs key

/-- The operations of R223 and R224 by the code x: a result and its FLAGS. -/
def Claims.combine (x : BitVec 3) (a b : Word) : Word × Word :=
  if x = 0 then (a + b, 0) else if x = 1 then res32 (fAdd f32 a.toNat b.toNat)
  else if x = 2 then (if a.toInt < b.toInt then a else b, 0) else if x = 3 then (if a.toNat < b.toNat then a else b, 0)
  else if x = 4 then (if b.toInt < a.toInt then a else b, 0) else if x = 5 then (if b.toNat < a.toNat then a else b, 0)
  else if x = 6 then (a &&& b, 0) else (a ||| b, 0)

/-- The identities of R223. -/
def Claims.identity (x : BitVec 3) : Word :=
  if x = 0 then 0 else if x = 1 then 0x80000000 else if x = 2 then 0x7FFFFFFF else if x = 3 then 0xFFFFFFFF
  else if x = 4 then 0x80000000 else if x = 5 then 0 else if x = 6 then 0xFFFFFFFF else 0

/-- The tree of R223 over 2^n words: each level combines words 2i and 2i + 1 into word i. -/
def Claims.tree (x : BitVec 3) : Nat → (Nat → Word) → Word × Word
  | 0, t => (t 0, 0)
  | n + 1, t =>
    let r := Claims.tree x n fun i => (Claims.combine x (t (2 * i)) (t (2 * i + 1))).1
    (r.1, ((List.range (2 ^ n)).foldl (fun fl i => fl ||| (Claims.combine x (t (2 * i)) (t (2 * i + 1))).2) 0) ||| r.2)

/-- The prefix of R224 over the lanes of a mask up to a lane. -/
def Claims.scan (x : BitVec 3) (m : Mask) (a : Nat → Word) (upTo : Nat) : Word × Word :=
  (((List.range 32).filter fun k => lane m k && decide (k ≤ upTo)).foldl (fun acc k =>
    ((Claims.combine x acc.1 (a k)).1, acc.2 ||| (Claims.combine x acc.1 (a k)).2)) (Claims.identity x, 0))

/-- The result of a vote of R225: the word of the active lanes' bits, against the active mask. -/
def Claims.vote (x : BitVec 3) (act b : Mask) : Word :=
  if x = 0 then (if b ≠ 0 then 1 else 0) else if x = 1 then (if b = act then 1 else 0) else if x = 2 then b
  else BitVec.ofNat 32 ((List.range 32).filter (lane b)).length

/-- LaneReduceResults (R223, R224, R225): vred combines the words of the active lanes, with the identity in the others, over the tree
of 32 lanes; vscan gives each active lane the fold of the active lanes up to it, and FLAGS those of the whole fold; vvote gives a vote
over a mask. A k register is written once, a v register in the active lanes; a second source, and a vote's code from 4 on, is
reserved. -/
def Obligations.LaneReduceResults : Prop :=
  (Claims.Encoded .vred 0x3D (fun f => f.b ≠ 0) ∧ ∀ (f : FmtR) (s t s' : State) (os : List Opnd), t = closed s (codes f.d 1) →
    Clear s f.nas ⟨coreOnly s, codes f.a 1, codes f.d 1⟩ → takeAll [(1, f.a, 1)] t = .ok (os, s') →
    let r := Claims.tree f.x 5 fun l => if lane (active t) l then src t os 0 0 l else Claims.identity f.x
    ∃ regs, Claims.ReducedWritten s' regs f.d (active t) r.1 ∧
      ∀ u, applyNas (selectorMask t) (withRegs s' regs (s'.g.flags ||| r.2)) f.nas = .ok u → exec (.vred f) s = .next (finished u (codes f.d 1))) ∧
  (Claims.Encoded .vscan 0x3E (fun f => f.b ≠ 0) ∧ ∀ (f : FmtR) (s t s' : State) (os : List Opnd), t = closed s (codes f.d 1) →
    Clear s f.nas ⟨coreOnly s ++ vBad f.d 1, codes f.a 1, codes f.d 1⟩ → takeAll [(1, f.a, 1)] t = .ok (os, s') →
    ∃ regs, LaneWritten s'.g.regs regs f.d.toNat 1 (active t) (fun _ l => (Claims.scan f.x (active t) (src t os 0 0) l).1) ∧
      ∀ u, applyNas (selectorMask t) (withRegs s' regs (s'.g.flags ||| (Claims.scan f.x (active t) (src t os 0 0) 31).2)) f.nas = .ok u →
        exec (.vscan f) s = .next (finished u (codes f.d 1))) ∧
  (Claims.Encoded .vvote 0x3F (fun f => 4 ≤ f.x ∨ f.b ≠ 0) ∧ ∀ (f : FmtR) (s t : State), t = closed s (codes f.d 1) →
    (Instr.vvote f).wellFormed = true → Clear s f.nas ⟨coreOnly s ++ maskBad f.a, [64 + f.a.toNat], codes f.d 1⟩ →
    ∃ regs, Claims.ReducedWritten t regs f.d (active t) (Claims.vote f.x (active t) (readMask t 1 f.a.toNat &&& active t)) ∧
      ∀ u, applyNas (selectorMask t) (withRegs t regs t.g.flags) f.nas = .ok u → exec (.vvote f) s = .next (finished u (codes f.d 1)))

/-! ## Group arithmetic and sequencing -/

/-- A group form: its constructor and fields, its k sources, destination, width, masks read, and result words with FLAGS. -/
structure Claims.GroupRow (φ : Type) where
  form : φ → Instr
  nas : φ → Nas
  srcs : φ → List (Nat × RegCode × Nat)
  dest : φ → RegCode
  width : φ → Nat := fun _ => 1
  masks : φ → List Nat := fun _ => []
  fn : φ → State → (Nat → Nat → Word) → List Word × Word

/-- What issue must know of a group row. -/
def Claims.GroupRow.io {φ : Type} (r : Claims.GroupRow φ) (f : φ) : Io :=
  ⟨srcsBad (r.srcs f) ++ alignBad (r.dest f) (r.width f), srcCodes (r.srcs f) ++ r.masks f, codes (r.dest f) (r.width f)⟩

/-- A group row's result, by the group, and by an access processor into a v register of its group: the destination, in every lane of
a v register, and FLAGS. -/
def Claims.GroupRow.holds {φ : Type} (r : Claims.GroupRow φ) : Prop :=
  ∀ (f : φ) (s t s' : State) (os : List Opnd), t = closed s (codes (r.dest f) (r.width f)) → s.onAp = false ∨ isV (r.dest f) = true →
    Clear s (r.nas f) (r.io f) → takeAll (r.srcs f) t = .ok (os, s') →
    ∃ regs, UniformWritten s'.g s'.g.regs regs (r.dest f) (r.width f) (fun i => (r.fn f t fun n j => src t os n j 0).1.getD i 0) ∧
      ∀ u, applyNas (selectorMask t) (withRegs s' regs (s'.g.flags ||| (r.fn f t fun n j => src t os n j 0).2)) (r.nas f) = .ok u →
        exec (r.form f) s = .next (finished u (codes (r.dest f) (r.width f)))

/-- A group row by an access processor: with room in the queues, the words go to its own k registers, and those of k12 to k15 to
its access queues too; where a queue has no room, the slice does not issue (R32). -/
def Claims.GroupRow.slice {φ : Type} (r : Claims.GroupRow φ) : Prop :=
  ∀ (f : φ) (s t s' : State) (a : Ap) (os : List Opnd), t = closed s (codes (r.dest f) (r.width f)) → s.onAp = true → s'.g.ap = some a →
    a.aq.length = 4 → isK (r.dest f) = true → Clear s (r.nas f) (r.io f) → takeAll (r.srcs f) t = .ok (os, s') →
    let room := ∀ i < r.width f, 12 ≤ (r.dest f).toNat - 48 + i → (a.aq.getD ((r.dest f).toNat - 48 + i - 12) []).length < 16
    (¬room → exec (r.form f) s = .next t) ∧ (room →
    ∃ b : Ap, (∀ i, storeGet 0 b.k i = if (r.dest f).toNat - 48 ≤ i ∧ i < (r.dest f).toNat - 48 + r.width f then
          (r.fn f t fun n j => src t os n j 0).1.getD (i - ((r.dest f).toNat - 48)) 0 else storeGet 0 a.k i) ∧
      (∀ q < 4, b.aq.getD q [] = a.aq.getD q [] ++
        if (r.dest f).toNat - 48 ≤ 12 + q ∧ 12 + q < (r.dest f).toNat - 48 + r.width f then [⟨storeGet 0 b.k (12 + q), a.ids, a.seen⟩] else []) ∧
      b.num = a.num ∧ b.pc = a.pc ∧ b.seq = a.seq ∧ b.run = a.run ∧ b.ids = a.ids ∧ b.wins = a.wins ∧ b.seen = a.seen ∧
      ∀ u, applyNas (selectorMask t) { s' with g := { s'.g with ap := some b, flags := s'.g.flags ||| (r.fn f t fun n j => src t os n j 0).2 } } (r.nas f) =
        .ok u → exec (r.form f) s = .next (finished u (codes (r.dest f) (r.width f))))

/-- What a group row does, whoever issues it. -/
def Claims.GroupRow.both {φ : Type} (r : Claims.GroupRow φ) : Prop := r.holds ∧ r.slice

/-- A group row of two words. -/
def Claims.groupBinary (mk : FmtR → Instr) (op : FmtR → Word → Word → Word × Word) : Claims.GroupRow FmtR :=
  { form := mk, nas := (·.nas), srcs := Claims.two, dest := (·.d), fn := fun f _ v => let r := op f (v 0 0) (v 1 0); ([r.1], r.2) }

/-- A group row of one word. -/
def Claims.groupUnary (mk : FmtR → Instr) (op : Word → Word) : Claims.GroupRow FmtR :=
  { form := mk, nas := (·.nas), srcs := Claims.one, dest := (·.d), fn := fun _ _ v => ([op (v 0 0)], 0) }

/-- A group row of two pairs. -/
def Claims.groupWide (mk : FmtR → Instr) (op : DWord → DWord → DWord) : Claims.GroupRow FmtR :=
  { form := mk, nas := (·.nas), srcs := fun f => [(1, f.a, 2), (2, f.b, 2)], dest := (·.d), width := fun _ => 2
    fn := fun _ _ v => let r := op (pair (v 0 1) (v 0 0)) (pair (v 1 1) (v 1 0)); ([loWord r, hiWord r], 0) }

/-- The integer forms of R276 and R277 and gsel (R278). -/
def Claims.groupInteger : List (Claims.GroupRow FmtR) :=
  [Claims.groupBinary .gadd fun _ a b => (a + b, 0),
   Claims.groupBinary .gsub fun _ a b => (a - b, 0),
   Claims.groupBinary .gmul fun _ a b => (a * b, 0),
   Claims.groupBinary .gmulh fun _ a b => (BitVec.ofInt 32 (a.toInt * b.toInt / 2 ^ 32), 0),
   Claims.groupBinary .gdiv fun _ a b => if b = 0 then (0xFFFFFFFF, flDz) else (BitVec.ofInt 32 (a.toInt.tdiv b.toInt), 0),
   Claims.groupBinary .grem fun _ a b => if b = 0 then (a, flDz) else (BitVec.ofInt 32 (a.toInt.tmod b.toInt), 0),
   Claims.groupBinary .gmin fun f a b => (if (if f.x = 0 then a.toInt < b.toInt else a.toNat < b.toNat) then a else b, 0),
   Claims.groupBinary .gmax fun f a b => (if (if f.x = 0 then b.toInt < a.toInt else b.toNat < a.toNat) then a else b, 0),
   Claims.groupBinary .gand fun _ a b => (a &&& b, 0),
   Claims.groupBinary .gor fun _ a b => (a ||| b, 0),
   Claims.groupBinary .gxor fun _ a b => (a ^^^ b, 0),
   Claims.groupBinary .gshl fun _ a b => (BitVec.ofNat 32 (a.toNat * 2 ^ (b.toNat % 256)), 0),
   Claims.groupBinary .gshr fun _ a b => (BitVec.ofNat 32 (a.toNat / 2 ^ (b.toNat % 256)), 0),
   Claims.groupBinary .gsar fun _ a b => (BitVec.ofInt 32 (a.toInt / 2 ^ (b.toNat % 256)), 0),
   Claims.groupUnary .gclz clz,
   Claims.groupUnary .gpopc popc,
   Claims.groupBinary .gbfx fun _ a b => (bitField a b, 0),
   { form := .gbfi, nas := (·.nas), srcs := Claims.three, dest := (·.d), fn := fun _ _ v => ([insertField (v 0 0) (v 1 0) (v 2 0)], 0) },
   Claims.groupWide .gadd64 (· + ·),
   Claims.groupWide .gsub64 (· - ·),
   Claims.groupWide .gmul64 (· * ·),
   { form := .gsel, nas := (·.nas), srcs := Claims.two, dest := (·.d), masks := fun _ => [71]
     fn := fun _ t v => ([if lane (readMask t 7 7) 0 then v 0 0 else v 1 0], 0) }]

/-- The immediate forms of R279. -/
def Claims.groupImmediate (mk : FmtI → Instr) (op : FmtI → Word → Word) : Claims.GroupRow FmtI :=
  { form := mk, nas := (·.nas), srcs := fun f => [(1, f.a, 1)], dest := (·.d), fn := fun f _ v => ([op f (v 0 0)], 0) }

/-- GroupIntegerResults (R30, R32, R276, R277, R278, R279): integer group forms, immediates, constants and addresses by a group,
and the same by an access processor; a constant C takes gmovi and then gmovhi. Rests on the model's choices of notes/assumptions 20. -/
def Obligations.GroupIntegerResults : Prop :=
  (∀ r ∈ Claims.groupInteger, r.both) ∧
  (∀ r ∈ [Claims.groupImmediate .gaddi fun f a => a + f.imm.signExtend 32,
      Claims.groupImmediate .gandi fun f a => a &&& f.imm.signExtend 32,
      Claims.groupImmediate .gori fun f a => a ||| f.imm.setWidth 32,
      Claims.groupImmediate .gxori fun f a => a ^^^ f.imm.signExtend 32,
      Claims.groupImmediate .gshli fun f a => BitVec.ofNat 32 (a.toNat * 2 ^ (f.imm.toNat % 32)),
      Claims.groupImmediate .gshri fun f a => BitVec.ofNat 32 (a.toNat / 2 ^ (f.imm.toNat % 32)),
      Claims.groupImmediate .gsari fun f a => BitVec.ofInt 32 (a.toInt / 2 ^ (f.imm.toNat % 32))], r.both) ∧
  Claims.GroupRow.both
    { form := .gmovi, nas := FmtW.nas, srcs := fun _ => [], dest := FmtW.d,
      fn := fun f _ _ => ([f.imm.signExtend 32], 0) } ∧
  Claims.GroupRow.both
    { form := .gmovhi, nas := FmtH.nas, srcs := fun _ => [], dest := fun f => 48 + f.d.setWidth 6,
      fn := fun f t _ => ([(f.imm ++ (readK t 0 f.d.toNat).setWidth 15 : BitVec 32)], 0) } ∧
  Claims.GroupRow.both
    { form := .gaddpc, nas := FmtH.nas, srcs := fun _ => [], dest := fun f => 48 + f.d.setWidth 6,
      width := fun _ => 2,
      fn := fun f t _ =>
        let r : DWord := (curPc t).setWidth 64 + f.imm.signExtend 64
        ([loWord r, hiWord r], 0) }

/-- A floating-point group row of two sources of the format that x[0] names. -/
def Claims.groupFloat (mk : FmtR → Instr) (op : FmtR → Fmt → Nat → Nat → Nat × Word) : Claims.GroupRow FmtR :=
  { form := mk, nas := (·.nas), srcs := fun f => [(1, f.a, gfRegs f.x), (2, f.b, gfRegs f.x)], dest := (·.d), width := fun f => gfRegs f.x
    fn := fun f _ v =>
      let num := fun n => if gfRegs f.x = 2 then (pair (v n 1) (v n 0)).toNat else (v n 0).toNat
      let r := op f (gfFmt f.x) (num 0) (num 1)
      (natWords (gfRegs f.x) r.1, r.2) }

/-- GroupFloatResults (R30, R32, R280, R281, R282): floating-point group forms and conversion, by a group and by an access processor. -/
def Obligations.GroupFloatResults : Prop :=
  (∀ r ∈ [Claims.groupFloat .gfadd fun _ => fAdd, Claims.groupFloat .gfsub fun _ => fSub, Claims.groupFloat .gfmul fun _ => fMul,
      Claims.groupFloat .gfdiv fun _ => fDiv,
      Claims.groupFloat .gfmnx fun f t a b => (if f.x.toNat / 2 = 0 then fMin t a b else fMax t a b, 0)], r.both) ∧
  Claims.GroupRow.both
    { form := .gfsqrt, nas := FmtR.nas, srcs := fun f => [(1, f.a, gfRegs f.x)], dest := FmtR.d,
      width := fun f => gfRegs f.x,
      fn := fun f _ v =>
        let r := fSqrt (gfFmt f.x) (if gfRegs f.x = 2 then (pair (v 0 1) (v 0 0)).toNat else (v 0 0).toNat)
        (natWords (gfRegs f.x) r.1, r.2) } ∧
  Claims.GroupRow.both
    { form := .gfma, nas := FmtR.nas, dest := FmtR.d, width := fun f => gfRegs f.x,
      srcs := fun f => [(0, f.d, gfRegs f.x), (1, f.a, gfRegs f.x), (2, f.b, gfRegs f.x)],
      fn := fun f _ v =>
        let num := fun n => if gfRegs f.x = 2 then (pair (v n 1) (v n 0)).toNat else (v n 0).toNat
        let r := fFma (gfFmt f.x) (num 1) (num 2) (num 0)
        (natWords (gfRegs f.x) r.1, r.2) } ∧
  Claims.GroupRow.both
    { form := .gfcvt, nas := FmtR.nas, dest := FmtR.d, width := fun f => numRegs (gfcvtPair f.b.toNat).2,
      srcs := fun f => [(1, f.a, numRegs (gfcvtPair f.b.toNat).1)],
      fn := fun f _ v => convertRegs (gfcvtPair f.b.toNat).1 (gfcvtPair f.b.toNat).2 f.x.toNat
        (if numRegs (gfcvtPair f.b.toNat).1 = 2 then (pair (v 0 1) (v 0 0)).toNat else (v 0 0).toNat) }

/-- GroupCompareResults (R278, R281): gcmp and gfcmp write all 32 bits of the mask. -/
def Obligations.GroupCompareResults : Prop :=
  (∀ (f : FmtR) (s t s' : State) (os : List Opnd), t = closed s [64 + f.d.toNat] → (Instr.gcmp f).wellFormed = true →
    Clear s f.nas ⟨maskBad f.d ++ srcsBad (Claims.two f), srcCodes (Claims.two f), [64 + f.d.toNat]⟩ →
    takeAll (Claims.two f) t = .ok (os, s') →
    ∃ regs, MaskWritten s'.g.regs regs f.d.toNat
        (let a := src t os 0 0 0; let b := src t os 1 0 0
         if (if f.x = 0 then a = b else if f.x = 1 then a ≠ b else if f.x = 2 then a.toInt < b.toInt
           else if f.x = 3 then a.toInt ≤ b.toInt else if f.x = 4 then a.toNat < b.toNat else a.toNat ≤ b.toNat)
         then 0xFFFFFFFF else 0) ∧
      ∀ u, applyNas (selectorMask t) (withRegs s' regs s'.g.flags) f.nas = .ok u → exec (.gcmp f) s = .next (finished u [64 + f.d.toNat])) ∧
  ∀ (f : FmtR) (s t s' : State) (os : List Opnd), t = closed s [64 + f.d.toNat] → (Instr.gfcmp f).wellFormed = true →
    Clear s f.nas ⟨maskBad f.d ++ srcsBad [(1, f.a, gfRegs f.x), (2, f.b, gfRegs f.x)],
      srcCodes [(1, f.a, gfRegs f.x), (2, f.b, gfRegs f.x)], [64 + f.d.toNat]⟩ →
    takeAll [(1, f.a, gfRegs f.x), (2, f.b, gfRegs f.x)] t = .ok (os, s') →
    ∃ regs, MaskWritten s'.g.regs regs f.d.toNat (if (gfcmpCode (gfFmt f.x) (f.x.toNat / 2) (uniNat t os 0 (gfRegs f.x))
          (uniNat t os 1 (gfRegs f.x))).1 then 0xFFFFFFFF else 0) ∧
      ∀ u, applyNas (selectorMask t) (withRegs s' regs (s'.g.flags ||| (gfcmpCode (gfFmt f.x) (f.x.toNat / 2) (uniNat t os 0 (gfRegs f.x))
          (uniNat t os 1 (gfRegs f.x))).2)) f.nas = .ok u → exec (.gfcmp f) s = .next (finished u [64 + f.d.toNat])

/-- SequencingForms (R167, R168, R283, R284, R285): targets and loop entries are pushed and popped before the selector of the same
word acts, on the oldest side a full queue or stack drops, and FLAGS.SQO is set when it does. -/
def Obligations.SequencingForms : Prop :=
  let pushT (s : State) (a : Addr) : State :=
    if (seqOf s).tqn < 4 then setSeq s { seqOf s with tq := setAt (seqOf s).tq (seqOf s).tqn a, tqn := (seqOf s).tqn + 1 }
    else { setSeq s { seqOf s with tq := (seqOf s).tq.drop 1 ++ [a] } with
      g := { (setSeq s { seqOf s with tq := (seqOf s).tq.drop 1 ++ [a] }).g with flags := s.g.flags ||| 64 } }
  let pushL (s : State) (e : Addr × Word) : State :=
    if (seqOf s).lsn < 4 then setSeq s { seqOf s with loops := setAt (seqOf s).loops (seqOf s).lsn e, lsn := (seqOf s).lsn + 1 }
    else { setSeq s { seqOf s with loops := (seqOf s).loops.drop 1 ++ [e] } with
      g := { (setSeq s { seqOf s with loops := (seqOf s).loops.drop 1 ++ [e] }).g with flags := s.g.flags ||| 64 } }
  (∀ (f : FmtT) (s t u : State), t = closed s [] → Clear s f.nas ⟨[], [], []⟩ →
    applyNas (selectorMask t) (pushT t (curPc t + BitVec.ofInt 57 (4 * f.imm.toInt))) f.nas = .ok u → exec (.gtgt f) s = .next (finished u [])) ∧
  (∀ (f : FmtR) (s t s' u : State) (os : List Opnd), t = closed s [] →
    Clear s f.nas ⟨srcsBad [(1, f.a, 2)], srcCodes [(1, f.a, 2)], []⟩ → takeAll [(1, f.a, 2)] t = .ok (os, s') →
    applyNas (selectorMask t) (pushT s' (BitVec.ofNat 57 ((pair (src t os 0 1 0) (src t os 0 0 0)).toNat / 4 * 4))) f.nas = .ok u →
    exec (.gtgtr f) s = .next (finished u [])) ∧
  (∀ (f : FmtR) (s t s' u : State) (os : List Opnd), t = closed s [] →
    Clear s f.nas ⟨srcsBad [(1, f.a, 1)], srcCodes [(1, f.a, 1)], []⟩ → takeAll [(1, f.a, 1)] t = .ok (os, s') →
    applyNas (selectorMask t) (pushL s' (curPc t + 4, src t os 0 0 0)) f.nas = .ok u → exec (.gloop f) s = .next (finished u [])) ∧
  (∀ (f : FmtH) (s t u : State), t = closed s [] → Clear s f.nas ⟨[], [], []⟩ →
    applyNas (selectorMask t) (pushL t (curPc t + 4, f.imm.setWidth 32)) f.nas = .ok u → exec (.gloopi f) s = .next (finished u [])) ∧
  ∀ (f : FmtR) (s t u : State), t = closed s [] → Clear s f.nas ⟨[], [], []⟩ →
    applyNas (selectorMask t) (if (seqOf t).lsn = 0 then t else
      setSeq t { seqOf t with loops := setAt (seqOf t).loops ((seqOf t).lsn - 1) (0, 0), lsn := (seqOf t).lsn - 1 }) f.nas = .ok u →
    exec (.gbrk f) s = .next (finished u [])

/-! ## Memory forms -/

/-- A memory form: its constructor and fields, the access that it makes, whether it is an acquire (a load) or a release (a
store), and the words of a result. -/
structure Claims.MemRow (φ : Type) where
  form : φ → Instr
  nas : φ → Nas
  d : φ → RegCode
  a : φ → RegCode
  la : φ → BitVec 4
  off : φ → BitVec 5 := fun _ => 0
  op : φ → MemOp
  order : φ → Bool := fun _ => false
  conv : Nat → List Word := fun _ => []

/-- Every request of an access passes: its scope is allowed (R70), its address is aligned if the event is strong (R76), lies in
the vault (R171) or translates in every page that it touches (R231), to a home that answers (R151, R375) and, but for a load, no page
that moves or has duplicates (R100, R242); the side log has room (R243); a strong access meets no older access of its lanes that
completes with 0x30 (R151), and follows no pending entry of the group's side log, a strong one or one of its bytes (R78); mixed sizes
are not checked (R77), and no filed proposal becomes a trap (R98). -/
def Claims.Passes (s : State) (op : MemOp) (reqs : List Req) : Prop :=
  (∀ n, op.scope = some n → scopeRefused s n = false) ∧
  (∀ r ∈ reqs, (op.strong = true → r.va % op.z = 0) ∧
    if op.vt then r.va < 2 ^ 29
    else r.va < 2 ^ 57 ∧ ∀ p ∈ reqPages op.z r, ∃ g, translate s (accOf s.g) op.use (p * 4096) = .ok g ∧
      (op.cls ≠ .load → bit g.pte 12 = false ∧ bit g.pte 13 = false) ∧
      let pa := g.pa + (if p = r.va / 4096 then r.va % 4096 else 0)
      peerGone s pa = false ∧ linkLost s s.g.who.vf s.g.who.ident s.g.who.loc.die r.lane pa = false) ∧
  (op.cls = .side → op.vt = false → logUsed s (coreId s.g.who.loc) + unitsOf op.z reqs ≤ 64) ∧
  (op.strong = true → (∀ w ∈ winsOf s, w.gone &&& active s = 0) ∧
    ∀ e ∈ ownLog s, e.kind = .plain ∧ (op.vt = false → ∀ r ∈ reqs, ∀ i < op.z, e.holds (r.va + i) = false)) ∧
  (vfReg s s.g.who.vf 0x030).getLsbD 1 = false ∧ migMode s s.g.who.vf ≠ 2

/-- Nothing holds back a release of the group (R78, R81, R151): no older access of its active lanes completes with 0x30, and its side
log holds nothing, and nothing that was declared unresolvable. -/
def Claims.Released (t : State) : Prop :=
  (∀ w ∈ winsOf t, w.gone &&& active t = 0) ∧ t.g.unres = false ∧ ownLog t = []

/-- A byte of memory is in none of the table entries that an access marks: the one it used, or the sixteen of a page of 64 KiB
(R352). -/
def Claims.Unmarked (s : State) (ps : Pages) (key : Nat) : Prop :=
  ∀ x ∈ ps, ∀ g, x.2 = .ok g → ∀ i < 16, key ∉ physKeys s (if bit g.pte 63 && g.level = 5 then g.pteAt / 128 * 128 + 8 * i else g.pteAt) 8

/-- A window in which the loads of some lanes have returned, those of a whole group together: what these lanes write strongly is
readable, or waits, until then (R75, R78). -/
def Claims.land (m : Mask) (w : Window) : Window :=
  { w with srcs := if w.flying &&& m = 0 then w.srcs else if w.srcs.any (·.1 == 32) then [] else w.srcs.filter fun x => !lane m x.1 }

/-- What an access leaves beside registers: memory and its records, the hotness counts and proposals (R96, R97); the side log
and all else as they were. -/
def Claims.Accessed (s e : State) (c : Ctx) : Prop :=
  e = { s with
    ms := { e.ms with log := s.ms.log }, fresh := e.fresh, g := c
    ld := { s.ld with hot := e.ld.hot, proposals := e.ld.proposals } }

/-- The lanes of an event of the group as a party to it. -/
def Claims.party (s : State) (m : Mask) : Party := ⟨agentOf s.g, m, s.g.ord⟩

/-- The value that one request of a load returns (R74, R78, R352): from the state `s` of the operands, with the places of its bytes. -/
def Claims.loaded (s : State) (p : Party) (op : MemOp) (ps : Pages) (r : Req) : Nat :=
  let spots := spotsOf s s.g.who.loc.die op ps r
  if op.strong then loadStrong s p r op.vt (keysOf spots) else if directReq op ps r then loadDirect s p r spots
  else loadPlain s p r op.vt spots

/-- Every write of every byte of `keys` has arrived at its home (R78), and the byte is defined (R128). -/
def Claims.Arrived (s : State) (keys : List Nat) : Prop :=
  ∀ key ∈ keys, key ∉ s.ms.undef ∧ ∀ w ∈ recsOf s key, w.arrived.isSome = true

/-- Every write of every byte of an access has arrived, and none was strong with another footprint (R77). -/
def Claims.Settled (s : State) (op : MemOp) (ps : Pages) (reqs : List Req) : Prop :=
  ∀ r ∈ reqs, let keys := keysOf (spotsOf s s.g.who.loc.die op ps r)
    Claims.Arrived s keys ∧ ∀ key ∈ keys, ∀ w ∈ recsOf s key, ∀ p, w.strong = some p → p = (keys.headD 0, op.z)

/-- The byte that was written last at a home: that of its last record, or where no record of it is kept the home's byte. -/
def Claims.latest (s : State) (key : Nat) : Byte :=
  match (recsOf s key).getLast? with
  | some w => w.val
  | none => homeByte s key

/-- A write of a byte that a load may read: one that is readable, and before none that is before the load, or that reached its home more
than Λ ago at a scope with the loader in it (R74, R75, R80). -/
def Claims.Maximal (s : State) (p : Party) (key : Nat) (w : WriteRec) : Prop :=
  w ∈ recsOf s key ∧ (knows p.ord p.lanes w.ev = true ∨ unreadable s w = false) ∧
    ∀ x ∈ recsOf s key, w.ev ∈ x.preds → knows p.ord p.lanes x.ev = false ∧
      ∀ at_, x.arrived = some at_ → at_ + 24000 < now s → ∃ a, x.agent = some a ∧ inScope x.scope a p.ag = false

/-- What a load gives (R74, R78): a strong one of bytes whose writes have all arrived, what these homes hold; a plain one of a group
without pending entries of the side log, for each byte the value of some maximal write. -/
def Claims.Gives (s : State) (p : Party) (op : MemOp) (ps : Pages) (r : Req) : Prop :=
  let keys := keysOf (spotsOf s s.g.who.loc.die op ps r)
  (op.strong = true → Claims.Settled s op ps [r] → Claims.loaded s p op ps r = natOfBytes (keys.map (Claims.latest s))) ∧
  (op.strong = false → directReq op ps r = false → ownLog s = [] →
    ∃ bs : List Byte, bs.length = op.z ∧ Claims.loaded s p op ps r = natOfBytes bs ∧ ∀ i < op.z, ∃ key, keys[i]? = some key ∧
      (key ∉ s.ms.undef → (∃ w, Claims.Maximal s p key w ∧ bs[i]? = some w.val) ∨
        (∀ w, ¬Claims.Maximal s p key w) ∧ bs[i]? = some (homeByte s key)))

/-- A lane load: each active lane gets its value (`Claims.Gives` says which), the window of `la` opens, and memory keeps every byte but marks. -/
def Claims.MemRow.loads {φ : Type} (r : Claims.MemRow φ) : Prop :=
  ∀ (f : φ) (s t s' : State) (os : List Opnd),
    let op := r.op f
    let w := sizeRegs op.z
    let wa := if op.vt then 1 else 2
    let base := os.getD 0 (.k [])
    let va := fun l => laneVa t base op.vt op.z (r.off f) l
    let reqs := (lanesOf (active t)).map fun l => (⟨l, va l⟩ : Req)
    let ps := pagesOf t (accOf t.g) op reqs
    t = closed s (codes (r.d f) w) →
    Clear s (r.nas f) ⟨spaceBad s op.vt ++ vBad (r.d f) w ++ baseBad (r.a f) op.vt, codes (r.a f) wa, codes (r.d f) w⟩ →
    takeAll [(1, r.a f, wa)] t = .ok (os, s') → Claims.Passes t op reqs →
    ∃ e regs ord, LaneWritten s'.g.regs regs (r.d f).toNat w (active t)
        (fun i l => (r.conv (Claims.loaded s' (Claims.party s' (laneMask l)) op ps ⟨l, va l⟩)).getD i 0) ∧
      (∀ q ∈ reqs, Claims.Gives s' (Claims.party s' (laneMask q.lane)) op ps q) ∧
      (op.strong = false → ord = s'.g.ord) ∧
      Claims.Accessed s' e { s'.g with
        regs := regs, ord := ord
        wins := s'.g.wins ++ [⟨(r.la f).toNat + 1, curPc t, codes (r.d f) w,
          (laneKeys (r.d f).toNat w (active t)).map fun k => (k, storeGet 0 t.g.regs k), 0, 0, loadSrcs t (accOf t.g) op reqs ps,
          t.g.iss, active t, e.fresh⟩] } ∧
      (∀ key, Claims.Unmarked s' ps key → homeByte e key = homeByte s' key) ∧
      ∀ u, applyNas (selectorMask t) e (r.nas f) = .ok u → exec (r.form f) s = .next (finished u (codes (r.d f) w))

/-- A plain load of R232. -/
def Claims.plainLoad (mk : FmtM → Instr) (vt : Bool) (z : Nat) (conv : Nat → List Word) : Claims.MemRow FmtM :=
  { form := mk, nas := (·.nas), d := (·.d), a := (·.a), la := (·.la), off := (·.off), op := fun _ => ⟨vt, z, .load, false, none⟩
    conv := conv }

/-- A strong load of R233: ord 1 makes it an acquire. -/
def Claims.strongLoad (mk : FmtA → Instr) (vt : Bool) (z : Nat) (conv : Nat → List Word) : Claims.MemRow FmtA :=
  { form := mk, nas := (·.nas), d := (·.d), a := (·.a), la := (·.la), op := fun f => ⟨vt, z, .load, true, some f.scope.toNat⟩
    order := fun f => f.ord == 1, conv := conv }

/-- The words of a value of w registers, lowest first (R4, R165). -/
def Claims.words (w v : Nat) : List Word := (upto w).map fun i => BitVec.ofNat 32 (v / 2 ^ (32 * i))

/-- LaneLoads (R74, R78, R228 to R233): the plain and the strong loads by lanes, and what of memory they give. s8 and s16 extend the sign, the others zeros. Rests on
the model's choices of notes/assumptions 11, 12, 46. -/
def Obligations.LaneLoads : Prop :=
  (∀ r ∈ [Claims.plainLoad .vldGlS8 false 1 fun v => [(BitVec.ofNat 8 v).signExtend 32],
      Claims.plainLoad .vldGlN8 false 1 (Claims.words 1), Claims.plainLoad .vldGlS16 false 2 fun v => [(BitVec.ofNat 16 v).signExtend 32],
      Claims.plainLoad .vldGlN16 false 2 (Claims.words 1), Claims.plainLoad .vldGlN32 false 4 (Claims.words 1),
      Claims.plainLoad .vldGlN64 false 8 (Claims.words 2), Claims.plainLoad .vldGlN128 false 16 (Claims.words 4),
      Claims.plainLoad .vldVtN8 true 1 (Claims.words 1), Claims.plainLoad .vldVtN16 true 2 (Claims.words 1),
      Claims.plainLoad .vldVtN32 true 4 (Claims.words 1), Claims.plainLoad .vldVtN64 true 8 (Claims.words 2),
      Claims.plainLoad .vldVtN128 true 16 (Claims.words 4)], r.loads) ∧
  ∀ r ∈ [Claims.strongLoad .vldsGlN8 false 1 (Claims.words 1), Claims.strongLoad .vldsGlN16 false 2 (Claims.words 1),
      Claims.strongLoad .vldsGlN32 false 4 (Claims.words 1), Claims.strongLoad .vldsGlN64 false 8 (Claims.words 2),
      Claims.strongLoad .vldsGlN128 false 16 (Claims.words 4), Claims.strongLoad .vldsVtN32 true 4 (Claims.words 1)], r.loads

/-- The value of z bytes in a lane's registers of a source operand, from register i on. -/
def Claims.operandNat (t : State) (os : List Opnd) (n i z l : Nat) : Nat :=
  (List.range (sizeRegs z)).foldr (fun j acc => acc + (src t os n (i + j) l).toNat * 2 ^ (32 * j)) 0 % 2 ^ (8 * z)

/-- Writes in their order, as a function of the key: the last one of a key stands. -/
def Claims.writeAll (m : Nat → Byte) (ws : List (Nat × Byte)) : Nat → Byte :=
  ws.foldl (fun m w k => if k = w.1 then w.2 else m k) m

/-- The windows of a group once some of its lanes have made an access: a strong write of theirs comes after their loads. -/
def Claims.landing (op : MemOp) (wins : List Window) (m : Mask) : List Window :=
  if op.strong ∧ op.cls ≠ .load then wins.map (Claims.land m) else wins

/-- A lane store: the bytes of each active lane go to the address that the lane's base gives, in ascending lane order. -/
def Claims.MemRow.stores {φ : Type} (r : Claims.MemRow φ) : Prop :=
  ∀ (f : φ) (s t s' : State) (os : List Opnd),
    let op := r.op f
    let w := sizeRegs op.z
    let wa := if op.vt then 1 else 2
    let base := os.getD 1 (.k [])
    let reqs := (lanesOf (active t)).map fun l => (⟨l, laneVa t base op.vt op.z (r.off f) l⟩ : Req)
    let ps := pagesOf t (accOf t.g) op reqs
    t = closed s [] →
    Clear s (r.nas f) ⟨spaceBad s op.vt ++ alignBad (r.d f) w ++ baseBad (r.a f) op.vt, codes (r.d f) w ++ codes (r.a f) wa, []⟩ →
    takeAll [(0, r.d f, w), (1, r.a f, wa)] t = .ok (os, s') → Claims.Passes t op reqs →
    (r.order f = true → Claims.Released t) →
    ∃ e ord m, Claims.Accessed s' e { s'.g with ord := ord, wins := Claims.landing op s'.g.wins (active t) } ∧
      (∀ key, Claims.Unmarked s' ps key → m key = homeByte s' key) ∧
      (∀ key, homeByte e key = Claims.writeAll m (reqs.flatMap fun q =>
        (keysOf (spotsOf s' s'.g.who.loc.die op ps q)).zip (bytesOfNat op.z (Claims.operandNat t os 0 0 op.z q.lane))) key) ∧
      ∀ u, applyNas (selectorMask t) e (r.nas f) = .ok u → exec (r.form f) s = .next (finished u [])

/-- A plain store of R232. -/
def Claims.plainStore (mk : FmtM → Instr) (vt : Bool) (z : Nat) : Claims.MemRow FmtM :=
  { form := mk, nas := (·.nas), d := (·.d), a := (·.a), la := (·.la), off := (·.off), op := fun _ => ⟨vt, z, .side, false, none⟩ }

/-- A strong store of R233: ord 2 makes it a release, which is in no side log (R100). -/
def Claims.strongStore (mk : FmtA → Instr) (vt : Bool) (z : Nat) : Claims.MemRow FmtA :=
  { form := mk, nas := (·.nas), d := (·.d), a := (·.a), la := (·.la)
    op := fun f => ⟨vt, z, if f.ord = 2 then .rmw else .side, true, some f.scope.toNat⟩, order := fun f => f.ord == 2 }

/-- LaneStores (R228 to R233): the plain and the strong stores by lanes. Rests on the model's choices of notes/assumptions 11,
16, 46. -/
def Obligations.LaneStores : Prop :=
  (∀ r ∈ [Claims.plainStore .vstGlN8 false 1, Claims.plainStore .vstGlN16 false 2, Claims.plainStore .vstGlN32 false 4,
      Claims.plainStore .vstGlN64 false 8, Claims.plainStore .vstGlN128 false 16, Claims.plainStore .vstVtN8 true 1,
      Claims.plainStore .vstVtN16 true 2, Claims.plainStore .vstVtN32 true 4, Claims.plainStore .vstVtN64 true 8,
      Claims.plainStore .vstVtN128 true 16], r.stores) ∧
  ∀ r ∈ [Claims.strongStore .vstsGlN8 false 1, Claims.strongStore .vstsGlN16 false 2, Claims.strongStore .vstsGlN32 false 4,
      Claims.strongStore .vstsGlN64 false 8, Claims.strongStore .vstsGlN128 false 16, Claims.strongStore .vstsVtN32 true 4], r.stores

/-- The bytes of an access: a key of one of its requests. -/
def Claims.Touches (s : State) (op : MemOp) (ps : Pages) (reqs : List Req) (key : Nat) : Prop :=
  ∃ r ∈ reqs, key ∈ keysOf (spotsOf s s.g.who.loc.die op ps r)

/-- RMWs one after the other on memory as a function of the key (R79): the old values by lane, and memory after. -/
def Claims.rmwAll (s : State) (op : MemOp) (ps : Pages) (f : Nat → Nat → Nat) : List Req → (Nat → Byte) → List (Nat × Nat) × (Nat → Byte)
  | [], m => ([], m)
  | r :: rs, m =>
    let keys := keysOf (spotsOf s s.g.who.loc.die op ps r)
    let old := natOfBytes (keys.map m)
    let rest := Claims.rmwAll s op ps f rs (Claims.writeAll m (keys.zip (bytesOfNat op.z (f r.lane old))))
    ((r.lane, old) :: rest.1, rest.2)

/-- What RMWs leave in memory `e`, begun from `m`: the bytes of the access as R79 says, and every other but marks as before. -/
def Claims.Rmwed (s e : State) (op : MemOp) (ps : Pages) (f : Nat → Nat → Nat) (reqs : List Req) (m : Nat → Byte) : Prop :=
  (∀ key, Claims.Unmarked s ps key → m key = Claims.latest s key) ∧
  (∀ key, Claims.Touches s op ps reqs key → homeByte e key = (Claims.rmwAll s op ps f reqs m).2 key) ∧
  ∀ key, ¬Claims.Touches s op ps reqs key → Claims.Unmarked s ps key → homeByte e key = homeByte s key

/-- The operation of an RMW on the old value and the operand, from its register i on. -/
structure Claims.Rmw where
  form : FmtA → Instr
  z : Nat := 4
  w : Nat := 1
  wr : Nat := 1
  fn : Nat → (Nat → Nat) → Nat

/-- The access of an RMW. -/
def Claims.Rmw.op (r : Claims.Rmw) (x : FmtA) : MemOp := ⟨false, r.z, .rmw, true, some x.scope.toNat⟩

/-- An RMW by lanes (R235): ascending lanes, each whole before the next; the old value returns. -/
def Claims.Rmw.holds (r : Claims.Rmw) : Prop :=
  ∀ (x : FmtA) (s t s' : State) (os : List Opnd),
    let reqs := (lanesOf (active t)).map fun l => (⟨l, laneVa t (os.getD 1 (.k [])) false r.z 0 l⟩ : Req)
    let ps := pagesOf t (accOf t.g) (r.op x) reqs
    let new := fun l old => r.fn old fun i => Claims.operandNat t os 0 i r.z l
    t = closed s (codes x.d r.wr) →
    Clear s x.nas ⟨noAp s ++ vBad x.d r.w ++ alignBad x.a 2, codes x.d r.w ++ codes x.a 2, codes x.d r.wr⟩ →
    takeAll [(0, x.d, r.w), (1, x.a, 2)] t = .ok (os, s') → Claims.Passes t (r.op x) reqs →
    Claims.Settled t (r.op x) ps reqs → (x.ord.getLsbD 1 = true → Claims.Released t) →
    ∃ e regs ord m, Claims.Rmwed s' e (r.op x) ps new reqs m ∧
      LaneWritten s'.g.regs regs x.d.toNat r.wr (active t) (fun i l =>
        (Claims.words r.wr (((Claims.rmwAll s' (r.op x) ps new reqs m).1.find? (·.1 == l)).getD (0, 0)).2).getD i 0) ∧
      Claims.Accessed s' e { s'.g with
        regs := regs, ord := ord
        wins := s'.g.wins.map (Claims.land (active t)) ++ [⟨x.la.toNat + 1, curPc t, codes x.d r.wr,
          (laneKeys x.d.toNat r.wr (active t)).map fun k => (k, storeGet 0 t.g.regs k), 0, 0, [], t.g.iss, active t, e.fresh⟩] } ∧
      ∀ u, applyNas (selectorMask t) e x.nas = .ok u → exec (r.form x) s = .next (finished u (codes x.d r.wr))

/-- A 32-bit operation of an RMW. -/
def Claims.word32 (mk : FmtA → Instr) (op : Word → Word → Word) : Claims.Rmw :=
  { form := mk, fn := fun m d => (op (BitVec.ofNat 32 m) (BitVec.ofNat 32 (d 0))).toNat }

/-- The exchanges, swaps and atomics of R235. -/
def Claims.laneRmws : List Claims.Rmw :=
  [{ form := .vxchgN32, fn := fun _ d => d 0 },
   { form := .vxchgN64, z := 8, w := 2, wr := 2, fn := fun _ d => d 0 },
   { form := .vcasN32, w := 2, fn := fun m d => if m = d 0 then d 1 else m },
   { form := .vcasN64, z := 8, w := 4, wr := 2, fn := fun m d => if m = d 0 then d 2 else m },
   Claims.word32 .vatomAddN32 (· + ·),
   { form := .vatomAddN64, z := 8, w := 2, wr := 2, fn := fun m d => (m + d 0) % 2 ^ 64 },
   { form := .vatomAddF32, fn := fun m d => (fAdd f32 m (d 0)).1 },
   Claims.word32 .vatomAndN32 (· &&& ·), Claims.word32 .vatomOrN32 (· ||| ·), Claims.word32 .vatomXorN32 (· ^^^ ·),
   Claims.word32 .vatomMinS32 fun a b => if a.toInt ≤ b.toInt then a else b,
   Claims.word32 .vatomMinN32 fun a b => if a.toNat ≤ b.toNat then a else b,
   Claims.word32 .vatomMaxS32 fun a b => if b.toInt ≤ a.toInt then a else b,
   Claims.word32 .vatomMaxN32 fun a b => if b.toNat ≤ a.toNat then a else b]

/-- The reductions of R236: size and operation. -/
def Claims.laneReductions : List Claims.Rmw :=
  [Claims.word32 .vredMAddN32 (· + ·), { form := .vredMAddN64, z := 8, w := 2, fn := fun m d => (m + d 0) % 2 ^ 64 },
   { form := .vredMAddF32, fn := fun m d => (fAdd f32 m (d 0)).1 },
   Claims.word32 .vredMMinS32 fun a b => if a.toInt ≤ b.toInt then a else b,
   Claims.word32 .vredMMaxS32 fun a b => if b.toInt ≤ a.toInt then a else b]

/-- The reductions of lanes (R236, R237): reductions at memory, which return nothing. Rests on the model's choices of notes/assumptions
11, 21. -/
def Claims.reductionsHold : Prop :=
  ∀ r ∈ Claims.laneReductions, ∀ (x : FmtA) (s t s' : State) (os : List Opnd),
    let op : MemOp := ⟨false, r.z, .side, true, some x.scope.toNat⟩
    let reqs := (lanesOf (active t)).map fun l => (⟨l, laneVa t (os.getD 1 (.k [])) false r.z 0 l⟩ : Req)
    let ps := pagesOf t (accOf t.g) op reqs
    t = closed s [] → Clear s x.nas ⟨noAp s ++ vBad x.d r.w ++ alignBad x.a 2, codes x.d r.w ++ codes x.a 2, []⟩ →
    takeAll [(0, x.d, r.w), (1, x.a, 2)] t = .ok (os, s') → Claims.Passes t op reqs → Claims.Settled t op ps reqs →
    ∃ e ord m, Claims.Rmwed s' e op ps (fun l old => r.fn old fun i => Claims.operandNat t os 0 i r.z l) reqs m ∧
      Claims.Accessed s' e { s'.g with ord := ord, wins := s'.g.wins.map (Claims.land (active t)) } ∧
      ∀ u, applyNas (selectorMask t) e x.nas = .ok u → exec (r.form x) s = .next (finished u [])

/-- LaneAtomics (R76, R79, R235, R236): exchange, compare-and-swap and atomic operations by lanes, and their reductions at memory. Rests on
the model's choices of notes/assumptions 11, 21. -/
def Obligations.LaneAtomics : Prop := (∀ r ∈ Claims.laneRmws, r.holds) ∧ Claims.reductionsHold

/-- A group load (R286, R287): one request for the active lanes of the slot, and a uniform result (`Claims.Gives` says which). -/
def Claims.MemRow.uniformLoads {φ : Type} (r : Claims.MemRow φ) : Prop :=
  ∀ (f : φ) (s t s' : State) (os : List Opnd),
    let op := r.op f
    let w := sizeRegs op.z
    let wa := if op.vt then 1 else 2
    let q : Req := ⟨0, laneVa t (os.getD 0 (.k [])) op.vt op.z (r.off f) 0⟩
    let ps := pagesOf t (accOf t.g) op [q]
    t = closed s (codes (r.d f) w) → s.onAp = false →
    Clear s (r.nas f) ⟨(if op.vt then noScalar s else []) ++ kBad (r.a f) wa ++ alignBad (r.d f) w, codes (r.a f) wa, codes (r.d f) w⟩ →
    takeAll [(1, r.a f, wa)] t = .ok (os, s') → Claims.Passes t op [q] →
    ∃ e regs ord, UniformWritten s'.g s'.g.regs regs (r.d f) w
        (fun i => (Claims.words w (Claims.loaded (uniteActive s') (Claims.party (uniteActive s') (active t)) op ps q)).getD i 0) ∧
      Claims.Gives (uniteActive s') (Claims.party (uniteActive s') (active t)) op ps q ∧
      (op.strong = false → ord = unite s'.g.ord (active t)) ∧
      Claims.Accessed s' e { s'.g with
        regs := regs, ord := ord
        wins := s'.g.wins ++ [⟨(r.la f).toNat + 1, curPc t, codes (r.d f) w,
          (destKeys t (r.d f) w).map fun k => (k, storeGet 0 t.g.regs k), 0, 0,
          (loadSrcs t (accOf t.g) op [q] ps).flatMap fun x => (32, x.2) :: (lanesOf (active t)).map fun l => (l, x.2),
          t.g.iss, active t, e.fresh⟩] } ∧
      (∀ key, Claims.Unmarked s' ps key → homeByte e key = homeByte s' key) ∧
      ∀ u, applyNas (selectorMask t) e (r.nas f) = .ok u → exec (r.form f) s = .next (finished u (codes (r.d f) w))

/-- A slice as a party to an event: what it has before it is before every lane (R34). -/
def Claims.sliceParty (s : State) (a : Ap) : Party := ⟨agentOf s.g, 0xFFFFFFFF, ⟨a.ids.map fun i => (i, 0xFFFFFFFF), [], []⟩⟩

/-- A group load by an access processor (R31, R32, R287): the value goes to its own k registers and, of k12 to k15, to its access
queues, with what the slice then has before it (R34), or to a v register of the group; its own window opens; with no room in a queue it
does not issue. -/
def Claims.MemRow.sliceLoads {φ : Type} (r : Claims.MemRow φ) : Prop :=
  ∀ (f : φ) (s t s' : State) (a : Ap) (os : List Opnd),
    let op := r.op f
    let w := sizeRegs op.z
    let wa := if op.vt then 1 else 2
    let d := r.d f
    let q : Req := ⟨0, laneVa t (os.getD 0 (.k [])) op.vt op.z (r.off f) 0⟩
    let ps := pagesOf t (accOf t.g) op [q]
    let room := isK d = true → ∀ i < w, 12 ≤ d.toNat - 48 + i → (a.aq.getD (d.toNat - 48 + i - 12) []).length < 16
    t = closed s (codes d w) → s.onAp = true → t.g.ap = some a → a.aq.length = 4 →
    Clear s (r.nas f) ⟨(if op.vt then noScalar s else []) ++ kBad (r.a f) wa ++ alignBad d w, codes (r.a f) wa, codes d w⟩ →
    (¬room → exec (r.form f) s = .next t) ∧
    (room → takeAll [(1, r.a f, wa)] t = .ok (os, s') → Claims.Passes t op [q] →
      let val := fun i => (Claims.words w (Claims.loaded s' (Claims.sliceParty s' a) op ps q)).getD i 0
      ∃ e regs, ∃ b : Ap, Claims.Gives s' (Claims.sliceParty s' a) op ps q ∧
        Claims.Accessed s' e { s'.g with regs := regs, ap := some { a with
          k := b.k, aq := b.aq, ids := b.ids, seen := b.seen
          wins := a.wins ++ [⟨(r.la f).toNat + 1, a.pc, codes d w, (destKeys t d w).map fun k => (k, regAt t k), 0, 0,
            (loadSrcs t (accOf t.g) op [q] ps).flatMap fun x => (32, x.2) :: (lanesOf (active t)).map fun l => (l, x.2),
            t.g.iss, active t, e.fresh⟩] } } ∧
        (op.strong = false → b.ids = a.ids ∧ b.seen = a.seen) ∧
        (isV d = true → LaneWritten s'.g.regs regs d.toNat w (allLanes s'.g) (fun i _ => val i) ∧ b.k = a.k ∧ b.aq = a.aq) ∧
        (isK d = true → regs = s'.g.regs ∧
          (∀ i, storeGet 0 b.k i = if d.toNat - 48 ≤ i ∧ i < d.toNat - 48 + w then val (i - (d.toNat - 48)) else storeGet 0 a.k i) ∧
          ∀ p < 4, b.aq.getD p [] = a.aq.getD p [] ++
            if d.toNat - 48 ≤ 12 + p ∧ 12 + p < d.toNat - 48 + w then [⟨storeGet 0 b.k (12 + p), b.ids, b.seen⟩] else []) ∧
        (∀ key, Claims.Unmarked s' ps key → homeByte e key = homeByte s' key) ∧
        ∀ u, applyNas (selectorMask t) e (r.nas f) = .ok u → exec (r.form f) s = .next (finished u (codes d w)))

/-- GroupLoads (R32, R74, R78, R286, R287): the loads of the group set, by a group and by an access processor. Rests on the model's choices
of notes/assumptions 11, 12, 20, 46. -/
def Obligations.GroupLoads : Prop :=
  (∀ r ∈ [Claims.plainLoad .gldGlN32 false 4 (Claims.words 1), Claims.plainLoad .gldGlN64 false 8 (Claims.words 2),
      Claims.plainLoad .gldVtN32 true 4 (Claims.words 1), Claims.plainLoad .gldVtN64 true 8 (Claims.words 2)],
    r.uniformLoads ∧ r.sliceLoads) ∧
  ∀ r ∈ [Claims.strongLoad .gldsGlN32 false 4 (Claims.words 1), Claims.strongLoad .gldsGlN64 false 8 (Claims.words 2),
      Claims.strongLoad .gldsVtN32 true 4 (Claims.words 1)], r.uniformLoads ∧ r.sliceLoads

/-- A group store (R286, R287). -/
def Claims.MemRow.uniformStores {φ : Type} (r : Claims.MemRow φ) : Prop :=
  ∀ (f : φ) (s t s' : State) (os : List Opnd),
    let op := r.op f
    let w := sizeRegs op.z
    let wa := if op.vt then 1 else 2
    let q : Req := ⟨0, laneVa t (os.getD 1 (.k [])) op.vt op.z (r.off f) 0⟩
    let ps := pagesOf t (accOf t.g) op [q]
    t = closed s [] →
    Clear s (r.nas f) ⟨spaceBad s op.vt ++ kBad (r.d f) w ++ kBad (r.a f) wa, codes (r.d f) w ++ codes (r.a f) wa, []⟩ →
    takeAll [(0, r.d f, w), (1, r.a f, wa)] t = .ok (os, s') → Claims.Passes t op [q] →
    (r.order f = true → Claims.Released t) →
    ∃ e ord m, Claims.Accessed s' e { s'.g with ord := ord, wins := Claims.landing op s'.g.wins (active t) } ∧
      (∀ key, Claims.Unmarked s' ps key → m key = homeByte s' key) ∧
      (∀ key, homeByte e key = Claims.writeAll m ((keysOf (spotsOf s' s'.g.who.loc.die op ps q)).zip
        (bytesOfNat op.z (Claims.operandNat t os 0 0 op.z 0))) key) ∧
      ∀ u, applyNas (selectorMask t) e (r.nas f) = .ok u → exec (r.form f) s = .next (finished u [])

/-- GroupStores (R286, R287): the stores of the group set. Rests on the model's choices of notes/assumptions 11, 16, 46. -/
def Obligations.GroupStores : Prop :=
  (∀ r ∈ [Claims.plainStore .gstGlN32 false 4, Claims.plainStore .gstGlN64 false 8, Claims.plainStore .gstVtN32 true 4,
      Claims.plainStore .gstVtN64 true 8], r.uniformStores) ∧
  ∀ r ∈ [Claims.strongStore .gstsGlN32 false 4, Claims.strongStore .gstsGlN64 false 8, Claims.strongStore .gstsVtN32 true 4],
    r.uniformStores

/-- An RMW of the group set (R287): the old value is a uniform result. -/
def Claims.Rmw.uniform (r : Claims.Rmw) : Prop :=
  ∀ (x : FmtA) (s t s' : State) (os : List Opnd),
    let q : Req := ⟨0, laneVa t (os.getD 1 (.k [])) false r.z 0 0⟩
    let ps := pagesOf t (accOf t.g) (r.op x) [q]
    let new := fun _ old => r.fn old fun i => Claims.operandNat t os 0 i r.z 0
    t = closed s (codes x.d r.wr) →
    Clear s x.nas ⟨noAp s ++ kBad x.d r.w ++ kBad x.a 2, codes x.d r.w ++ codes x.a 2, codes x.d r.wr⟩ →
    takeAll [(0, x.d, r.w), (1, x.a, 2)] t = .ok (os, s') → Claims.Passes t (r.op x) [q] →
    Claims.Settled t (r.op x) ps [q] → (x.ord.getLsbD 1 = true → Claims.Released t) →
    ∃ e regs ord m, Claims.Rmwed s' e (r.op x) ps new [q] m ∧
      UniformWritten s'.g s'.g.regs regs x.d r.wr (fun i =>
        (Claims.words r.wr (((Claims.rmwAll s' (r.op x) ps new [q] m).1.getD 0 (0, 0)).2)).getD i 0) ∧
      Claims.Accessed s' e { s'.g with
        regs := regs, ord := ord
        wins := s'.g.wins.map (Claims.land (active t)) ++ [⟨x.la.toNat + 1, curPc t, codes x.d r.wr,
          (destKeys t x.d r.wr).map fun k => (k, storeGet 0 t.g.regs k), 0, 0, [], t.g.iss, active t, e.fresh⟩] } ∧
      ∀ u, applyNas (selectorMask t) e x.nas = .ok u → exec (r.form x) s = .next (finished u (codes x.d r.wr))

/-- GroupAtomics (R287): the atomics and swaps of the group set. Rests on the model's choices of notes/assumptions 11. -/
def Obligations.GroupAtomics : Prop :=
  ∀ r ∈ [Claims.word32 .gatomAddN32 (· + ·),
      { form := .gatomAddN64, z := 8, w := 2, wr := 2, fn := fun m d => (m + d 0) % 2 ^ 64 },
      Claims.word32 .gatomAndN32 (· &&& ·), Claims.word32 .gatomOrN32 (· ||| ·), Claims.word32 .gatomXorN32 (· ^^^ ·),
      Claims.word32 .gatomMinS32 fun a b => if a.toInt ≤ b.toInt then a else b,
      Claims.word32 .gatomMinN32 fun a b => if a.toNat ≤ b.toNat then a else b,
      Claims.word32 .gatomMaxS32 fun a b => if b.toInt ≤ a.toInt then a else b,
      Claims.word32 .gatomMaxN32 fun a b => if b.toNat ≤ a.toNat then a else b,
      { form := .gcasN32, w := 2, fn := fun m d => if m = d 0 then d 1 else m },
      { form := .gcasN64, z := 8, w := 4, wr := 2, fn := fun m d => if m = d 0 then d 2 else m }], r.uniform

/-- FencesAndPrefetches (R68, R72, R239, R288, R289): with its scope allowed (R70) and, but for an acquire, the group's side log
empty (R81), a fence by a group makes what the active lanes' earlier strong loads read happen before their later events
of every active lane (acquire, R71), makes what they know released at the scope of their later strong writes, and every earlier write of
the group arrived once its loads have returned, but for what waits for a load or a side log of another (release), and ends the windows of
their loads (full, R78); memory and registers stand. A fence by an access processor, which writes nothing, orders its own loads and, but
for an acquire, waits for what it has before it of the group's side log and makes the group's writes before it arrive (R34). vprf by lanes and gprf complete whatever
their addresses hold; only hotness counts and proposals of what they cross can change, and with the mode of proposals that writes to
a ring (R98) its memory. Rests on the model's choices of notes/assumptions 22, 46. -/
def Obligations.FencesAndPrefetches : Prop :=
  let quiet (s' e : State) : Prop :=
    (migMode s' s'.g.who.vf ≠ 2 → e = { s' with ld := { s'.ld with hot := e.ld.hot, proposals := e.ld.proposals } }) ∧ e.g = s'.g
  (∀ (f : FmtA) (s t : State), t = closed s [] → Clear s f.nas ⟨[], [], []⟩ → s.onAp = false →
    scopeRefused t f.scope.toNat = false →
    (f.ord ≠ 1 → Claims.Released t) →
    ∃ e : State, e = { t with
        ms := { t.ms with hist := e.ms.hist }
        g := { t.g with wins := e.g.wins, ord := { t.g.ord with know := e.g.ord.know, relFences := e.g.ord.relFences } } } ∧
      (∀ ev, knows t.g.ord (active t) ev = true → ∀ l < 32, lane (active t) l = true → knows e.g.ord (laneMask l) ev = true) ∧
      (f.ord ≠ 2 → ∀ x ∈ t.g.ord.seen, x.lanes &&& active t ≠ 0 → ∀ ev ∈ acquired x.rels f.scope.toNat (agentOf t.g),
        ∀ l < 32, lane (active t) l = true → knows e.g.ord (laneMask l) ev = true) ∧
      (f.ord = 1 → e.g.wins = t.g.wins) ∧ (f.ord = 2 ∨ f.ord = 3 → e.g.wins = t.g.wins.map (Claims.land (allLanes t.g))) ∧
      (f.ord = 0 → ∀ w ∈ e.g.wins, w.gone = 0 → ∃ x ∈ t.g.wins, w = Claims.land (allLanes t.g) x ∧ winLanes x &&& active t = 0) ∧
      (f.ord = 1 → e.g.ord.relFences = t.g.ord.relFences ∧ e.ms.hist = t.ms.hist) ∧
      (f.ord ≠ 1 → ∃ ids, e.g.ord.relFences = t.g.ord.relFences ++ [⟨ids, f.scope.toNat, active t⟩] ∧
        (∀ ev, ev ∈ ids ↔ ev ∈ knownIds e.g.ord (active t)) ∧
        ∀ w ∈ e.ms.hist, knows e.g.ord (allLanes t.g) w.ev = true → w.arrived ≠ none ∨ unreadable e w = true ∨ early t w = true) ∧
      ∀ u, applyNas (selectorMask t) e f.nas = .ok u → exec (.gfence f) s = .next (finished u [])) ∧
  (∀ (f : FmtA) (s t : State) (a : Ap), t = closed s [] → Clear s f.nas ⟨[], [], []⟩ → s.onAp = true → t.g.ap = some a →
    scopeRefused t f.scope.toNat = false →
    (f.ord ≠ 1 → (∃ e ∈ ownLog t, e.ev ∈ a.ids) → exec (.gfence f) s = .next t) ∧
    ((f.ord ≠ 1 → ∀ e ∈ ownLog t, e.ev ∉ a.ids) → ∃ b : Ap, ∃ hist, b = { a with ids := b.ids, wins := b.wins } ∧ (∀ ev ∈ a.ids, ev ∈ b.ids) ∧
      (f.ord ≠ 2 → ∀ x ∈ a.seen, x.lanes &&& active t ≠ 0 → ∀ ev ∈ acquired x.rels f.scope.toNat (agentOf t.g), ev ∈ b.ids) ∧
      (f.ord = 2 → b.ids = a.ids) ∧ (f.ord ≠ 0 → b.wins = a.wins) ∧ (f.ord = 1 → hist = t.ms.hist) ∧
      (f.ord ≠ 1 → ∀ w ∈ hist, w.ev ∈ b.ids → w.arrived ≠ none ∨ unreadable t w = true ∨ early t w = true) ∧
      ∀ u, applyNas (selectorMask t) { t with ms := { t.ms with hist := hist }, g := { t.g with ap := some b } } f.nas = .ok u →
        exec (.gfence f) s = .next (finished u []))) ∧
  (∀ (f : FmtM) (s t s' : State) (os : List Opnd), t = closed s [] → Clear s f.nas ⟨noAp s ++ alignBad f.a 2, codes f.a 2, []⟩ →
    takeAll [(1, f.a, 2)] t = .ok (os, s') →
    ∃ e, quiet s' e ∧ ∀ u, applyNas (selectorMask t) e f.nas = .ok u → exec (.vprf f) s = .next (finished u [])) ∧
  ∀ (f : FmtM) (s t s' : State) (os : List Opnd), t = closed s [] → Clear s f.nas ⟨kBad f.a 2, codes f.a 2, []⟩ →
    takeAll [(1, f.a, 2)] t = .ok (os, s') →
    ∃ e, quiet s' e ∧ ∀ u, applyNas (selectorMask t) e f.nas = .ok u → exec (.gprf f) s = .next (finished u [])

/-! ## Matrix forms -/

/-- From an effect `e` the instruction completes as soon as its selector acts. -/
def Claims.Ends (i : Instr) (nas : Nas) (writes : List Nat) (s e : State) : Prop :=
  ∀ u, applyNas (selectorMask (closed s writes)) e nas = .ok u → exec i s = .next (finished u writes)

/-- VdevResult (R256): vdev adds the square of a - b to d, three roundings. -/
def Claims.vdev : Claims.LaneRow :=
  { form := .vdev, core := true, srcs := Claims.three
    fn := fun _ _ v l =>
      let t := fSub f32 (v 1 0 l).toNat (v 2 0 l).toNat
      let q := fMul f32 t.1 t.1
      let r := fAdd f32 (v 0 0 l).toNat q.1
      ([BitVec.ofNat 32 r.1], t.2 ||| q.2 ||| r.2) }

/-- Entries placed at the back of the array queue of the group's partition, and nothing else of the arrays. -/
def Claims.Placed (t e : State) (es : List ArrayEntry) : Prop :=
  arrayOf e (partOf t.g.who.loc) = { arrayOf t (partOf t.g.who.loc) with queue := (arrayOf t (partOf t.g.who.loc)).queue ++ es } ∧
    ∀ p, p ≠ partOf t.g.who.loc → arrayOf e p = arrayOf t p

/-- MatrixForms (R111, R113 to R116, R251 to R253, R256): vwld places a reload with the weights that it read and makes them the
group's; vmmq places one operation for each quarter of the lanes that has an active one, with its A registers and the B
registers read at issue, and whether a load still in flight writes one of them later (R115); each takes PIDX = 1 as already done (R251), and does not issue while the queue has no room; vdev is a
lane form. Rests on the model's choices of notes/assumptions 2, 31. -/
def Obligations.MatrixForms : Prop :=
  (∀ (f : FmtX) (s t : State) (w : Weights) (n : Nat), t = closed s [] →
    Clear s f.nas ⟨coreOnly s ++ vmmqBad s f, codes f.a n ++ codes f.b 16, []⟩ →
    t.g.mx.weights = some w → aRegs w.fmt (streamFmt t f.stream) = some n → f.tile.toNat < t.g.mx.held →
    (t.g.pidx = 1 → Claims.Ends (.vmmq f) f.nas [] s { t with g := { t.g with pidx := 0 } }) ∧
    (t.g.pidx = 0 →
      let rows := fun q => (List.range 32).filter fun l => l / 8 = q ∧ lane (active t) l = true
      let es := ((List.range 4).filter fun q => rows q ≠ []).map fun q => (⟨t.g.who.vf, t.g.who.ident, t.fresh + 1, t.g.mx.batch,
        false, f.b.toNat, (List.range 16).map fun i => (List.range 32).map fun l => (Opnd.v 1 f.b.toNat).word t i l, !writtenLate t 1 f.b.toNat, w,
        f.tile.toNat, streamFmt t f.stream,
        (rows q).map fun l => (l, (List.range n).map fun i => (Opnd.v 0 f.a.toNat).word t i l)⟩ : ArrayEntry)
      ((arrayOf t (partOf t.g.who.loc)).queue.length + es.length ≤ 8 →
        ∃ e, Claims.Placed t e es ∧ e = { t with fresh := t.fresh + 1, arrays := e.arrays } ∧ Claims.Ends (.vmmq f) f.nas [] s e) ∧
      (8 < (arrayOf t (partOf t.g.who.loc)).queue.length + es.length → exec (.vmmq f) s = .next (setWait t .held)))) ∧
  (∀ (f : FmtR) (s t : State), t = closed s [] →
    Clear s f.nas ⟨coreOnly s ++ (if weightCode f.b.toNat then [] else [0x02]) ++ rangeBad f.a (bRegs f.b.toNat),
      codes f.a (bRegs f.b.toNat), []⟩ →
    (t.g.pidx = 1 → Claims.Ends (.vwld f) f.nas [] s { t with g := { t.g with pidx := 0 } }) ∧
    (t.g.pidx = 0 → (arrayOf t (partOf t.g.who.loc)).queue.length < 8 →
      let row := fun i => (List.range 32).map fun l => (Opnd.v 1 f.a.toNat).word t i l
      let w : Weights := if f.b.toNat = 8 then ⟨8, row 16, row 17⟩ else ⟨f.b.toNat, [], []⟩
      ∃ e, Claims.Placed t e [⟨t.g.who.vf, t.g.who.ident, t.fresh + 1, t.g.mx.batch, true, f.a.toNat, (List.range 16).map row,
          !writtenLate t 1 f.a.toNat, w, 0, 0, []⟩] ∧
        e = { t with fresh := t.fresh + 1, arrays := e.arrays, g := { t.g with mx := { t.g.mx with weights := some w } } } ∧
        Claims.Ends (.vwld f) f.nas [] s e) ∧
    (t.g.pidx = 0 → 8 ≤ (arrayOf t (partOf t.g.who.loc)).queue.length → exec (.vwld f) s = .next (setWait t .held))) ∧
  Claims.vdev.holds

/-- TileForms (R119, R120, R254, R255): vaccrd reads the row that each lane names once all of them are final; vaccwr and vaccz
place a tile write, of which four may wait; vwmark gives the watermark in [5:0] and the pending count in [15:8]. -/
def Obligations.TileForms : Prop :=
  (∀ (f : FmtX) (s t s' : State) (os : List Opnd), t = closed s (codes f.a 1) →
    Clear s f.nas ⟨coreOnly s ++ vBad f.a 1, codes f.b 1, codes f.a 1⟩ → f.tile.toNat < t.g.mx.held →
    takeAll [(1, f.b, 1)] t = .ok (os, s') →
    (∀ l < 32, lane (active t) l = true → rowFinal t t.g f.tile.toNat ((src t os 0 0 l).toNat % 32) = true) →
    ∃ regs, LaneWritten s'.g.regs regs f.a.toNat 1 (active t)
        (fun _ l => storeGet 0 t.g.mx.tiles (1024 * f.tile.toNat + 32 * ((src t os 0 0 l).toNat % 32) + l)) ∧
      Claims.Ends (.vaccrd f) f.nas (codes f.a 1) s { s' with g := { s'.g with
        regs := regs
        wins := s'.g.wins ++ [⟨f.la.toNat + 1, curPc t, codes f.a 1,
          (lanesOf (active t)).map fun l => (vKey f.a.toNat l, storeGet 0 t.g.regs (vKey f.a.toNat l)), 0, 0, [], t.g.iss, active t, t.fresh⟩] } }) ∧
  (∀ (f : FmtX) (s t s' : State) (os : List Opnd), t = closed s [] → Clear s f.nas ⟨coreOnly s, codes f.a 1 ++ codes f.b 1, []⟩ →
    f.tile.toNat < t.g.mx.held → t.g.mx.writes.length < 4 → takeAll [(0, f.a, 1), (1, f.b, 1)] t = .ok (os, s') →
    Claims.Ends (.vaccwr f) f.nas [] s (if lanesOf (active t) = [] then s' else { s' with
      fresh := t.fresh + 1
      g := { s'.g with mx := { s'.g.mx with writes := s'.g.mx.writes ++ [⟨f.tile.toNat, t.fresh + 1, t.g.mx.batch, false,
        (lanesOf (active t)).map fun l => ((src t os 1 0 l).toNat % 32, l, src t os 0 0 l)⟩] } } })) ∧
  (∀ (f : FmtX) (s t : State), t = closed s [] → Clear s f.nas ⟨coreOnly s, [], []⟩ → f.tile.toNat < t.g.mx.held →
    (t.g.mx.writes.length < 4 → Claims.Ends (.vaccz f) f.nas [] s { t with
      fresh := t.fresh + 1
      g := { t.g with mx := { t.g.mx with writes := t.g.mx.writes ++ [⟨f.tile.toNat, t.fresh + 1, t.g.mx.batch, true, []⟩] } } }) ∧
    (4 ≤ t.g.mx.writes.length → exec (.vaccz f) s = .next (setWait t .held))) ∧
  ∀ (f : FmtX) (s t : State), t = closed s (codes f.a 1) → Clear s f.nas ⟨coreOnly s ++ vBad f.a 1, [], codes f.a 1⟩ →
    f.tile.toNat < t.g.mx.held →
    ∃ regs, LaneWritten t.g.regs regs f.a.toNat 1 (active t) (fun _ _ =>
        BitVec.ofNat 32 (watermark t t.g f.tile.toNat + 256 * pendingOf t t.g f.tile.toNat)) ∧
      Claims.Ends (.vwmark f) f.nas (codes f.a 1) s { t with g := { t.g with
        regs := regs
        wins := t.g.wins ++ [⟨f.la.toNat + 1, curPc t, codes f.a 1,
          (lanesOf (active t)).map fun l => (vKey f.a.toNat l, storeGet 0 t.g.regs (vKey f.a.toNat l)), 0, 0, [], t.g.iss, active t, t.fresh⟩] } }

/-- ArraySteps (R115 to R118, R255): an array takes its oldest entry, a reload into the latch, a quarter operation, once no
earlier tile write of its tile is pending, into rows with the latched weights if the tag matches; its oldest row is added into
the tile, element by element with one rounding, canonical NaN where the row is flagged; and a due tile write is applied. Rests
on the model's choices of notes/assumptions 10. -/
def Obligations.ArraySteps : Prop :=
  (∀ (p : Nat) (s : State) (x : ArrayEntry) (q : List ArrayEntry), (arrayOf s p).queue = x :: q → (arrayOf s p).part = p →
    ((x.reload = false → entryHeld s x = false) →
    ∃ t, exec (.arrayEntryBegin p) s = .next t ∧ t = { s with arrays := t.arrays } ∧
      (∀ r, r ≠ p → arrayOf t r = arrayOf s r) ∧ (arrayOf t p).queue = q ∧
      (x.reload = true → (arrayOf t p).latch = some ⟨x.vf, x.ident, x.base, x.clean, x.codes, x.weights⟩ ∧
        (arrayOf t p).rows = (arrayOf s p).rows) ∧
      (x.reload = false → ∃ l, (arrayOf t p).latch = some l ∧
        (∀ k, (arrayOf s p).latch = some k → latchMatches (some k) x = true → l = k) ∧
        (latchMatches (arrayOf s p).latch x = false → l = ⟨x.vf, x.ident, x.base, x.clean, x.codes, x.weights⟩) ∧
        (arrayOf t p).rows = (arrayOf s p).rows ++ x.acts.map fun a => ⟨x.vf, x.ident, x.seq, x.batch, x.tile, a.1,
          weightsFlagged l.codes l.weights || rowFlagged x.afmt (passDepth l.weights.fmt) a.2,
          (List.range 32).map fun n => columnSum x.afmt a.2 l.codes l.weights n⟩))) ∧
  (∀ (p : Nat) (s : State) (x : ArrayRow) (q : List ArrayRow), (arrayOf s p).rows = x :: q → (arrayOf s p).part = p →
    ∃ t, exec (.arrayRowWrite p) s = .next t ∧ (arrayOf t p).rows = q ∧
      (∀ r, r ≠ p → arrayOf t r = arrayOf s r) ∧
      (isCtx x.vf x.ident s.g = true →
        let old := fun n => storeGet 0 s.g.mx.tiles (1024 * x.tile + 32 * x.row + n)
        let flag := x.flagged || (List.range 32).any fun n => fIsNan f32 (old n).toNat
        t = { s with arrays := t.arrays, g := { s.g with flags := t.g.flags, mx := { s.g.mx with tiles := t.g.mx.tiles } } } ∧
        t.g.flags = s.g.flags ||| (List.range 32).foldl (fun a n => a ||| (rowElem flag (old n) (x.sums.getD n (0, 0))).2) 0 ∧
        ∀ key, storeGet 0 t.g.mx.tiles key = if key / 32 = 32 * x.tile + x.row then
          (rowElem flag (old (key % 32)) (x.sums.getD (key % 32) (0, 0))).1 else storeGet 0 s.g.mx.tiles key)) ∧
  ∀ (s : State) (vf ident : Nat) (c : Ctx) (w : TileWrite), ctxOf s vf ident = some c → c.mx.writes.find? (writeDue s c) = some w →
    ∃ t c', exec (.tileWriteApply vf ident) s = .next t ∧ t = { s with g := t.g, others := t.others } ∧
      ctxOf t vf ident = some c' ∧ c' = { c with mx := { c.mx with tiles := c'.mx.tiles, writes := c'.mx.writes } } ∧
      (∀ x, x ∈ c'.mx.writes ↔ x ∈ c.mx.writes ∧ x.seq ≠ w.seq) ∧
      (w.zero = true → ∀ key, storeGet 0 c'.mx.tiles key = if key / 1024 = w.tile then 0 else storeGet 0 c.mx.tiles key) ∧
      (w.zero = false → ∀ key, storeGet 0 c'.mx.tiles key =
        ((w.elems.reverse.find? fun x => 1024 * w.tile + 32 * x.1 + x.2.1 = key).map (·.2.2)).getD (storeGet 0 c.mx.tiles key))

/-! ## Key/value forms -/

/-- The window that a form of R291 opens over its results once its effect has come to `e` (R170). -/
def Claims.window (t e : State) (la : BitVec 4) (regs keys : List Nat) : Window :=
  ⟨la.toNat + 1, curPc t, regs, keys.map fun k => (k, regAt t k), 0, 0, [], t.g.iss, active t, e.fresh⟩

/-- The access queues of a slice have room for a result of `w` words (R32). -/
def Claims.Room (t : State) (d : RegCode) (w : Nat) : Prop :=
  ∀ a, t.onAp = true → t.g.ap = some a → a.aq.length = 4 ∧
    (isK d = true → ∀ i < w, 12 ≤ d.toNat - 48 + i → (a.aq.getD (d.toNat - 48 + i - 12) []).length < 16)

/-- Words reach a uniform destination of who acts: a group's registers, those of its group where a slice names a v register
(notes/assumptions/20), or a slice's own k registers and, of k12 to k15, its access queues, with what it has before it (R32, R34,
R164). -/
def Claims.Delivered (e e' : State) (d : RegCode) (vals : List Word) : Prop :=
  ((e.onAp = true → isV d = true) → ∃ regs, UniformWritten e.g e.g.regs regs d vals.length (fun i => vals.getD i 0) ∧
    e' = { e with g := { e.g with regs := regs } }) ∧
  ∀ a, e.onAp = true → e.g.ap = some a → isK d = true → ∃ k aq, e' = { e with g := { e.g with ap := some { a with k := k, aq := aq } } } ∧
    (∀ i, storeGet 0 k i = if d.toNat - 48 ≤ i ∧ i < d.toNat - 48 + vals.length then vals.getD (i - (d.toNat - 48)) 0 else storeGet 0 a.k i) ∧
    aq.length = 4 ∧ ∀ p < 4, aq.getD p [] = a.aq.getD p [] ++
      if d.toNat - 48 ≤ 12 + p ∧ 12 + p < d.toNat - 48 + vals.length then [⟨storeGet 0 k (12 + p), a.ids, a.seen⟩] else []

/-- From the effect `e` the instruction writes words to a uniform destination under the window of `la`, and completes. -/
def Claims.Uniform (i : Instr) (nas : Nas) (d : RegCode) (la : BitVec 4) (s t e : State) (vals : List Word) : Prop :=
  ∃ e', Claims.Delivered e e' d vals ∧
    Claims.Ends i nas (codes d vals.length) s
      (setWins e' (winsOf e' ++ [Claims.window t e la (codes d vals.length) (destKeys t d vals.length)]))

/-- A plain load of n bytes on a context's behalf gives `v` and changes nothing: every page is present, marked, cached, on the
context's own die or not counted (R83, R96, R352). -/
def Claims.Reads (s : State) (a : Acc) (va n v : Nat) : Prop := vaPlain s a va n = .ok (v, s)

/-- A read of n bytes of a key/value structure on a context's behalf gives `v` and changes nothing (R269). -/
def Claims.Looks (s : State) (a : Acc) (va n v : Nat) : Prop := vaStruct s a va n = .ok (v, s)

/-- Bytes that an access finds at these keys, changing nothing. -/
def Claims.At (s : State) (a : Acc) (u : Use) (va n : Nat) (keys : List Nat) : Prop := vaKeys s a u va n = .ok (keys, s)

/-- `x` is a sequence descriptor without a reserved value (R125). -/
def Claims.SeqOk (x : Nat) : Prop :=
  bits x 39 32 ≠ 0 ∧ bits x 47 40 ≠ 0 ∧ bits x 47 40 ≤ 64 ∧ bits x 55 53 = 0 ∧ bits x 59 56 ≤ 3 ∧ bits x 63 60 = 0 ∧
    bits x 191 185 = 0 ∧ bits x 511 192 = 0

/-- `y` is the KV root of the context's VF, in use and without a reserved value (R127). -/
def Claims.Root (s : State) (a : Acc) (y : Nat) : Prop :=
  bit (vfReg s a.vf 0x050).toNat 63 = true ∧ Claims.Looks s a (bits (vfReg s a.vf 0x050).toNat 56 6 * 64) 64 y ∧
    4 ≤ bits y 68 64 ∧ bits y 68 64 ≤ 24 ∧ bits y 95 69 = 0 ∧ bits y 511 448 = 0

/-- A node of the pool that passes the checks of R131. -/
def Claims.Node (s : State) (a : Acc) (y n x : Nat) : Prop :=
  n < bits y 223 192 ∧ Claims.Looks s a (bits y 184 128 + 64 * n) 64 x ∧ bits x 63 47 = 0 ∧ bits x 38 32 + bits x 42 39 ≤ 64 ∧
    bits x 45 43 ≤ 5

/-- The loop of R131, from a node on with so many hops left: the node that covers a position, its value and the run offset. -/
inductive Claims.Walk (s : State) (a : Acc) (y tok pos : Nat) : Nat → Nat → Nat × Nat × Nat → Prop
  | here {k n x e : Nat} : Claims.Node s a y n x → bits x 31 0 ≤ pos → pos < bits x 31 0 + bits x 38 32 →
      nBlk x ((pos - bits x 31 0 + bits x 42 39) / 16) < 2 ^ bits y 68 64 →
      Claims.Looks s a (bits y 56 0 + 16 * nBlk x ((pos - bits x 31 0 + bits x 42 39) / 16)) 16 e → bit e 80 = true →
      Claims.Walk s a y tok pos (k + 1) n (n, x, pos - bits x 31 0 + bits x 42 39)
  | down {k n x key i : Nat} {r : Nat × Nat × Nat} : Claims.Node s a y n x → bits x 31 0 + bits x 38 32 ≤ pos →
      Claims.Looks s a (tok + 4 * (bits x 31 0 + bits x 38 32)) 4 key → i < bits x 45 43 →
      (nFirst x i = key ∨ nFirst x i = 0xFFFFFFFF ∧ ∀ j < bits x 45 43, nFirst x j ≠ key) →
      (∀ j < i, nFirst x j ≠ nFirst x i) → Claims.Walk s a y tok pos k (nKid x i) r → Claims.Walk s a y tok pos (k + 1) n r

/-- KvWalks (R31, R131, R261): gkvwalk, of a group or a slice, gives the block and the slot, or the node and the run offset, at which the walk of R131 ends.
Rests on the model's choices of notes/assumptions 68, 69. -/
def Obligations.KvWalks : Prop :=
  ∀ (f : FmtE) (s t s' : State) (os : List Opnd) (x y n z o : Nat),
    let v := uniteActive s'
    let a := accOf t.g
    t = closed s (codes f.d 2) → Claims.Room t f.d 2 →
    Clear s f.nas ⟨(if isK f.d then [] else [0x03]) ++ srcsBad [(0, f.d, 1), (1, f.a, 2)] ++ alignBad f.d 2,
      srcCodes [(0, f.d, 1), (1, f.a, 2)], codes f.d 2⟩ →
    takeAll [(0, f.d, 1), (1, f.a, 2)] t = .ok (os, s') →
    Claims.Looks v a (pair (src t os 1 1 0) (src t os 1 0 0)).toNat 64 x → Claims.SeqOk x → Claims.Root v a y →
    (src t os 0 0 0).toNat < bits x 95 64 →
    Claims.Walk v a y (bits x 184 128) (src t os 0 0 0).toNat 4097 (bits x 127 96) (n, z, o) →
    Claims.Uniform (.gkvwalk f) f.nas f.d f.la s t v [BitVec.ofNat 32 (nBlk z (o / 16)), BitVec.ofNat 32 (o % 16)] ∧
      Claims.Uniform (.gkvwalkNode f) f.nas f.d f.la s t v [BitVec.ofNat 32 n, BitVec.ofNat 32 o]

/-- A form of `w` words reads the entry `e` of block `b`, which its one k source names, from the table of the root `y`. -/
def Claims.Entry (f : FmtE) (w : Nat) (s t s' : State) (os : List Opnd) (y b e : Nat) : Prop :=
  t = closed s (codes f.d w) ∧
    Clear s f.nas ⟨noAp s ++ srcsBad [(1, f.a, 1)] ++ alignBad f.d w, srcCodes [(1, f.a, 1)], codes f.d w⟩ ∧
    takeAll [(1, f.a, 1)] t = .ok (os, s') ∧ b = (src t os 0 0 0).toNat ∧ Claims.Root (uniteActive s') (accOf t.g) y ∧
    b < 2 ^ bits y 68 64 ∧ Claims.Reads (uniteActive s') (accOf t.g) (bits y 56 0 + 16 * b) 16 e

/-- KvReads (R128, R129, R144, R145, R266 to R268): gprov and gprov with c = 1 give the tag and the entry of a block, grepwm its
progress with an acquire at tenant scope, gring the next member and the origin of a table that passes R144. Rests on the model's
choices of notes/assumptions 44, 68, 69. -/
def Obligations.KvReads : Prop :=
  (∀ (f : FmtE) (s t s' : State) (os : List Opnd) (y b e : Nat), Claims.Entry f 4 s t s' os y b e →
    (bits e 127 96 = 0xFFFFFFFF → Claims.Uniform (.gprov f) f.nas f.d f.la s t (uniteActive s')
        [0xFFFFFFFF, 0xFFFFFFFF, 0xFFFFFFFF, 0xFFFFFFFF]) ∧
    (bits e 127 96 ≠ 0xFFFFFFFF → ∀ z, Claims.Reads (uniteActive s') (accOf t.g) (bits y 312 256 + 16 * bits e 127 96) 16 z →
      Claims.Uniform (.gprov f) f.nas f.d f.la s t (uniteActive s') (Claims.words 4 z))) ∧
  (∀ (f : FmtE) (s t s' : State) (os : List Opnd) (y b e : Nat), Claims.Entry f 2 s t s' os y b e →
    Claims.Uniform (.gprovEnt f) f.nas f.d f.la s t (uniteActive s')
      [BitVec.ofNat 32 (bits e 79 48), BitVec.ofNat 32 (bits e 95 80)]) ∧
  (∀ (f : FmtE) (s t s' : State) (os : List Opnd) (y : Nat) (keys : List Nat),
    let v := uniteActive s'
    let a := accOf t.g
    let b := (src t os 0 0 0).toNat
    t = closed s (codes f.d 1) →
    Clear s f.nas ⟨noAp s ++ srcsBad [(1, f.a, 1)] ++ alignBad f.d 1, srcCodes [(1, f.a, 1)], codes f.d 1⟩ →
    takeAll [(1, f.a, 1)] t = .ok (os, s') → Claims.Root v a y → b < 2 ^ bits y 68 64 →
    Claims.At v a .load (bits y 56 0 + 16 * b) 16 keys → Claims.Arrived v keys →
    (∀ key ∈ keys, ∀ w ∈ recsOf v key, ∀ p, w.strong = some p → p = (keys.headD 0, 16)) → migMode v a.vf ≠ 2 →
    (∀ w ∈ winsOf t, w.gone &&& active t = 0) → (vfReg s a.vf 0x030).getLsbD 1 = false →
    let e := natOfBytes (keys.map (Claims.latest v))
    ∃ u, Claims.Accessed v u { v.g with ord := u.g.ord } ∧ (∀ key, homeByte u key = homeByte v key) ∧
      (∀ ev ∈ acquired (homeRels v (keys.headD 0)) 3 (agentOf v.g), ∀ l < 32, lane (active v) l = true →
        knows u.g.ord (laneMask l) ev = true) ∧
      Claims.Uniform (.grepwm f) f.nas f.d f.la s t u
      [BitVec.ofNat 32 (bits e 79 72 + 256 * bits e 81 81 + 512 * bits e 91 91 + 1024 * bits e 80 80 + 2048 * bits e 89 87)]) ∧
  ∀ (f : FmtE) (s t s' : State) (os : List Opnd) (h j : Nat) (es : List Nat),
    let v := uniteActive s'
    let a := accOf t.g
    let va := (pair (src t os 1 1 0) (src t os 1 0 0)).toNat
    let e := (src t os 0 0 0).toNat % 256
    let step := (src t os 0 1 0).toNat
    let live := (List.range es.length).filter fun i => ringKind (es.getD i 0) ≠ 1
    t = closed s (codes f.d 4) → Claims.Room t f.d 4 →
    Clear s f.nas ⟨(if isK f.d then [] else [0x03]) ++ srcsBad [(0, f.d, 2), (1, f.a, 2)] ++ alignBad f.d 4,
      srcCodes [(0, f.d, 2), (1, f.a, 2)], codes f.d 4⟩ →
    takeAll [(0, f.d, 2), (1, f.a, 2)] t = .ok (os, s') → Claims.Reads v a va 16 h → es.length = h % 256 →
    (∀ i < es.length, Claims.Reads v a (va + 16 + 16 * i) 16 (es.getD i 0)) → ringBad h es e = false →
    live[j]? = some e →
    let succ := live.getD ((j + 1) % live.length) 0
    let origin := live.getD ((j + live.length - step % live.length) % live.length) 0
    let skip := ((List.range es.length).find? fun i => ringKind (es.getD i 0) = 1 ∧ bits (es.getD i 0) 31 24 = origin).getD 255
    Claims.Uniform (.gring f) f.nas f.d f.la s t v
      [BitVec.ofNat 32 (succ + 256 * origin + 65536 * skip + 2 ^ 24 * bits (es.getD succ 0) 16 16),
        BitVec.ofNat 32 (bits (es.getD succ 0) 15 0), BitVec.ofNat 32 (bits (es.getD origin 0) 63 32),
        BitVec.ofNat 32 (bits (es.getD origin 0) 95 64)]

/-- DeviceAccesses (R4, R83, R132, R133, R357): an RMW that a walker or a step makes for the group on bytes that it reaches
writes them at the home, whatever they held, and no others, and the hotness counts may change (R96); a value that the device
writes at a physical address is held there and nowhere else, and only memory with its records changes. Rests on the model's
choices of notes/assumptions 11, 69. -/
def Obligations.DeviceAccesses : Prop :=
  (∀ (s : State) (a : Acc) (va n x : Nat) (keys : List Nat), s.onAp = false → Claims.At s a .store va n keys → migMode s a.vf ≠ 2 →
    (vfReg s s.g.who.vf 0x030).getLsbD 1 = false →
    ∃ e, vaRmw s a va n x = .ok e ∧
      Claims.Accessed s e { s.g with ord := e.g.ord, wins := s.g.wins.map (Claims.land (active s)) } ∧
      ∀ key, homeByte e key = Claims.writeAll (homeByte s) (keys.zip (bytesOfNat keys.length x)) key) ∧
  ∀ (s : State) (pa n x : Nat), let e := physPut s pa n x
    e = { s with ms := { s.ms with mem := e.ms.mem, hist := e.ms.hist, undef := e.ms.undef }, fresh := s.fresh + 1 } ∧
      (∀ key, homeByte e key = Claims.writeAll (homeByte s) ((physKeys s pa n).zip (bytesOfNat n x)) key) ∧
      ((physKeys s pa n).Nodup → physNat e pa n = x % 256 ^ n)

/-- KvReferences (R132, R133, R262, R263): gkvref adds its signed delta to REF of a live block whose release is not deferred; at
0 the entry goes onto the free list, or while it is pinned its release is deferred and counted; a delta of 0 changes nothing. gkvnew writes the address, slot
and block that its append gives; where the leaf's block has one reference, FILL, LEN and LENGTH go up by one token, the entry
by an RMW and LENGTH by a release. Rests on the model's choices of notes/assumptions 68, 69. -/
def Obligations.KvReferences : Prop :=
  (∀ (f : FmtE) (s t s' s1 s2 : State) (os : List Opnd) (y x n : Nat),
    let v := uniteActive s'
    let a := accOf t.g
    let b := (src t os 1 0 0).toNat
    let root := bits (vfReg v a.vf 0x050).toNat 56 6 * 64
    let entry := bits y 56 0 + 16 * b
    let rest := x - bits x 63 48 * 2 ^ 48
    t = closed s (codes f.d 1) →
    Clear s f.nas ⟨noAp s ++ srcsBad [(0, f.d, 1), (1, f.a, 1)] ++ alignBad f.d 1, srcCodes [(0, f.d, 1), (1, f.a, 1)], codes f.d 1⟩ →
    takeAll [(0, f.d, 1), (1, f.a, 1)] t = .ok (os, s') → Claims.Released t →
    Claims.Root v a y → b < 2 ^ bits y 68 64 → vaHome v a .store entry 16 = .ok (x, v) → bit x 80 = true → bit x 90 = false →
    (n : Int) = bits x 63 48 + (src t os 0 0 0).toInt → n ≤ 0xFFFF → s1.g.pend = t.g.pend → s2.g.pend = t.g.pend →
    (n ≠ 0 ∨ src t os 0 0 0 = 0 → vaRmw v a entry 16 (rest + n * 2 ^ 48) = .ok s1 →
      Claims.Uniform (.gkvref f) f.nas f.d f.la s t (stepMade s1) [BitVec.ofNat 32 n]) ∧
    (n = 0 → src t os 0 0 0 ≠ 0 → bits x 71 64 = 0 → ∀ free, vaHome v a .store (root + 12) 4 = .ok (free, v) →
      vaRmw v a entry 16 ((rest - 2 ^ 80) % 2 ^ 96 + free * 2 ^ 96) = .ok s1 → vaRmw s1 a (root + 12) 4 b = .ok s2 →
      Claims.Uniform (.gkvref f) f.nas f.d f.la s t (stepMade s2) [0]) ∧
    (n = 0 → src t os 0 0 0 ≠ 0 → bits x 71 64 ≠ 0 → vaRmw v a entry 16 (rest + 2 ^ 90) = .ok s1 →
      ∀ k, vaHome s1 a .store (root + 28) 4 = .ok (k, s1) → vaRmw s1 a (root + 28) 4 (min (k + 1) 0xFFFFFFFF) = .ok s2 →
      Claims.Uniform (.gkvref f) f.nas f.d f.la s t (stepMade s2) [0])) ∧
  (∀ (f : FmtE) (s t s' e : State) (os : List Opnd) (addr slot b : Nat), t = closed s (codes f.d 4) →
    Clear s f.nas ⟨noAp s ++ srcsBad [(1, f.a, 2)] ++ alignBad f.d 4, srcCodes [(1, f.a, 2)], codes f.d 4⟩ →
    takeAll [(1, f.a, 2)] t = .ok (os, s') → Claims.Released t → e.g.pend = t.g.pend →
    append (accOf t.g) (pair (src t os 0 1 0) (src t os 0 0 0)).toNat (uniteActive s') = .ok ((addr, slot, b), e) →
    Claims.Uniform (.gkvnew f) f.nas f.d f.la s t e
      [BitVec.ofNat 32 addr, BitVec.ofNat 32 (addr / 2 ^ 32), BitVec.ofNat 32 slot, BitVec.ofNat 32 b]) ∧
  ∀ (s s1 s2 s3 s4 : State) (a : Acc) (seq n x o e z : Nat) (d : SeqDesc) (r : KvRoot),
    readSeq a seq s = .ok (d, s) → readRoot a s = .ok (r, s) → leafOf a r d s = .ok ((n, x, o), s) →
    bit x 46 = false → o < 64 → nBlk x (o / 16) < r.count → vaHome s a .store (r.tbl + 16 * nBlk x (o / 16)) 16 = .ok (e, s) →
    bit e 80 = true → bits e 63 48 = 1 →
    vaRmw s a (r.tbl + 16 * nBlk x (o / 16)) 16 (e - bits e 86 82 * 2 ^ 82 + (o % 16 + 1) * 2 ^ 82) = .ok s1 →
    kvPut a (r.nodes + 64 * n + 4) 4 (bits x 63 32 + 1) s1 = .ok ((), s2) → vaRelease s2 a (seq + 8) 4 (d.length + 1) = .ok s3 →
    vaHome s3 a .load (r.tbl + 16 * nBlk x (o / 16)) 16 = .ok (z, s4) → r.count ≤ 2 ^ 24 →
    append a seq s = .ok ((r.win + 256 * bits z 47 0, o % 16, nBlk x (o / 16)), stepMade s4)

/-- KvLoads (R143, R257, R258): once the tests of R143 give a part to read, vkvld loads for each active lane the word that
k[a+3] and off5 select in it, and under AKV.MODE 0b01 sets m6 where the data are stale and clears it where they are not; the pin of the
block is given back once these loads have returned (R132). Rests
on the model's choices of notes/assumptions 11, 44. -/
def Obligations.KvLoads : Prop :=
  ∀ (f : FmtM) (s t s' e0 : State) (os : List Opnd) (base words : Nat) (stale : Bool),
    let mark := s.g.akv.toNat % 4 = 1
    let regs := codes f.d 1 ++ if mark then [70] else []
    let a := accOf t.g
    let w3 := (src t os 0 3 0).toNat
    let va := fun l => base + 4 * (((bits w3 31 9 : Int) + 32 * f.off.toInt + l) % (words : Int)).toNat
    let reqs := (lanesOf (active t)).map fun l => (⟨l, va l⟩ : Req)
    let op : MemOp := ⟨false, 4, .load, false, none⟩
    let ps := pagesOf e0 a op reqs
    t = closed s regs → Clear s f.nas ⟨coreOnly s ++ vBad f.d 1 ++ kBad f.a 4, codes f.a 4, regs⟩ →
    takeAll [(1, f.a, 4)] t = .ok (os, s') → active t ≠ 0 → (∀ w ∈ winsOf t, w.gone &&& active t = 0) →
    openBlock a (pair (src t os 0 1 0) (src t os 0 0 0)).toNat (src t os 0 2 0).toNat (bits w3 7 0) (bits w3 8 8) (t.g.akv.toNat % 4) s' =
      .ok ((base, words, stale), e0) → e0.g.pend = t.g.pend → Claims.Passes e0 op reqs →
    ∃ e regs', (∀ key, storeGet 0 regs' key =
        if 32 * f.d.toNat ≤ key ∧ key < 32 * (f.d.toNat + 1) ∧ lane (active t) (key % 32) then
          BitVec.ofNat 32 (Claims.loaded e0 (Claims.party e0 (laneMask (key % 32))) op ps ⟨key % 32, va (key % 32)⟩)
        else if mark ∧ key = mKey 6 then (if stale then mAt e0.g 6 ||| active t else mAt e0.g 6 &&& ~~~active t)
        else storeGet 0 e0.g.regs key) ∧
      (∀ q ∈ reqs, Claims.Gives e0 (Claims.party e0 (laneMask q.lane)) op ps q) ∧
      Claims.Accessed e0 e { e0.g with regs := regs', wins := e0.g.wins ++ [{ Claims.window t e f.la regs
        (laneKeys f.d.toNat 1 (active t) ++ if mark then [mKey 6] else []) with srcs := loadSrcs e0 a op reqs ps }] } ∧
      (∀ key, Claims.Unmarked e0 ps key → homeByte e key = homeByte e0 key) ∧
      Claims.Ends (.vkvld f) f.nas regs s { e with en := { e.en with
        chores := e.en.chores ++ [.unpin a (src t os 0 2 0).toNat (knownIds e0.g.ord (active t)) (some (t.g.who.uid, e.fresh))] } }

/-- BlockTests (R143): the order of the tests of an entry for a layer, and what each comes to. -/
def Obligations.BlockTests : Prop :=
  ∀ (d : SeqDesc) (e y mode : Nat) (tag : Option Nat),
    let outside := ∃ g, tag = some g ∧ (bits g 95 80 ≠ d.model ∨ bits g 111 96 ≠ d.version ∨ y < bits g 119 112 ∨ bits g 127 120 < y)
    (bit e 80 = false → blockTest d e y tag mode = .fails 0xA4) ∧
    (bit e 80 = true → outside → blockTest d e y tag mode = .fails 0xA2) ∧
    (bit e 80 = true → ¬outside → bit e 91 = true → bits e 79 72 ≤ y → blockTest d e y tag mode = .fails 0xA3) ∧
    (bit e 80 = true → ¬outside → bit e 91 = false → bit e 81 = true → bits e 79 72 ≤ y → mode < 4 →
      blockTest d e y tag mode = if mode = 0 then .stalls else if mode = 1 then .reads true else if mode = 2 then .fails 0xA3
        else .fails 0x02) ∧
    (bit e 80 = true → ¬outside → (bits e 79 72 ≤ y → bit e 91 = false ∧ bit e 81 = false) →
      blockTest d e y tag mode = .reads false)

/-- KvSplices (R135, R153, R264): gsplice goes on from the step that PIDX names, and once every step is done adds M to LENGTH
by a release, writes M and clears PIDX; at PIDX = 0 it forgets what an earlier splice with the descriptor took; a PIDX beyond the last step raises 0x0B. Rests on the model's choices of notes/assumptions 42. -/
def Obligations.KvSplices : Prop :=
  ∀ (f : FmtE) (s t s' e0 e1 e2 : State) (os : List Opnd) (m : Nat) (steps : List (Kv Unit)) (d : SeqDesc) (q : SpliceDesc),
    let a := accOf t.g
    let va := (pair (src t os 0 1 0) (src t os 0 0 0)).toNat
    t = closed s (codes f.d 1) → Clear s f.nas ⟨noAp s ++ kBad f.a 2, codes f.a 2, codes f.d 1⟩ →
    takeAll [(1, f.a, 2)] t = .ok (os, s') → Claims.Released t →
    spliceSteps a va t.g.pidx.toNat (uniteActive s') = .ok ((m, steps, d, q), e0) →
    let other := fun (x : Splice) => decide ¬(x.uid = t.g.who.uid ∧ x.desc = va)
    let begun : State := if t.g.pidx = 0 then { e0 with en := { e0.en with splices := e0.en.splices.filter other } } else e0
    (t.g.pidx.toNat ≤ steps.length → runSteps steps 0 t.g.pidx.toNat begun = (none, e1) →
      vaRelease e1 a (q.seq + 8) 4 (d.length + m) = .ok e2 → e2.g.pend = t.g.pend →
      Claims.Uniform (.gsplice f) f.nas f.d f.la s t { e2 with
        ms := { e2.ms with turn := e2.ms.turn + 1 }
        g := { e2.g with pidx := 0 }
        en := { e2.en with splices := e2.en.splices.filter other } }
        [BitVec.ofNat 32 m]) ∧
    (steps.length < t.g.pidx.toNat → (∀ c va, applyNas (selectorMask t) t f.nas = .error (.cause c va) → causeRank 0x0B ≤ causeRank c) →
      exec (.gsplice f) s = .next (takeTrap t ⟨0x0B, .p, 0, active t, 0, 0⟩ (active t)))

/-- KvRepairs (R138, R140, R141, R142, R265, R266): grepair measures, copies, marks and checkpoints in its steps, hands the
selected tokens to Anneal and writes how many there are; the end of a layer's join lets RWM move on to that layer and Anneal go
on; grepwm with c = 1, above USR, abandons every repair of the sequence and counts them: its blocks fail and its join follows (R142),
but where a layer's final join has come RWM advances first (R270); a grepair that has not completed stops at its next issue, no further
record is pushed, and a final join that waits for its page is not made. Rests on the model's choices of
notes/assumptions 40, 43. -/
def Obligations.KvRepairs : Prop :=
  (∀ (f : FmtE) (s t s' e0 e1 e2 e3 : State) (os : List Opnd) (q : RepairDesc) (d : SeqDesc) (r : KvRoot) (sel l bs : List Nat),
    let a := accOf t.g
    let va := (pair (src t os 0 1 0) (src t os 0 0 0)).toNat
    let v := uniteActive s'
    t = closed s (codes f.d 1) → Clear s f.nas ⟨noAp s ++ kBad f.a 2, codes f.a 2, codes f.d 1⟩ →
    takeAll [(1, f.a, 2)] t = .ok (os, s') → Claims.Released t → e3.g.pend = t.g.pend →
    readRepair a va v = .ok (q, v) → readSeq a q.seq v = .ok (d, v) → readRoot a v = .ok (r, v) → q.cp < d.layers →
    t.g.pidx.toNat ≤ q.n + 3 → (if t.g.pidx = 0 then repairChecks a r d q else pure ()) v = .ok ((), e0) →
    selectedOf a q t.g.pidx.toNat e0 = .ok (sel, e0) →
    (∀ x ∈ e0.en.repairs, ¬(x.vf = a.vf ∧ x.ident = a.ident ∧ x.desc = va ∧ x.stage = .measure)) →
    (∀ x ∈ e0.en.repairs, x.num ≠ e0.fresh + 1) →
    runSteps (repairSteps a r d q) 0 t.g.pidx.toNat { e0 with fresh := e0.fresh + 1 } = (none, e1) →
    selectedOf a q q.n e1 = .ok (l, e1) → markedBlocks a r d q l e1 = .ok (bs, e2) →
    annealGo e2 ⟨e0.fresh + 1, a.vf, a.ident, a.mode, a.die, issuingCluster t.g.who.loc, q.seq, va, q.prio, q.cp, d.layers, q.kcode,
      q.scr, q.join, r.tbl, q.n, l, bs, .measure, q.cp + 1, 0, false, knownIds e2.g.ord (active t)⟩ = .ok e3 →
    Claims.Uniform (.grepair f) f.nas f.d f.la s t { e3 with g := { e3.g with pidx := 0 } } [BitVec.ofNat 32 l.length]) ∧
  (∀ (s z t u : State) (n : Nat) (r : Repair) (ids keys : List Nat),
    s.en.repairs.find? (fun x => x.num = n ∧ x.stage = .layers) = some r → vaKeys s r.acc .load r.joinAt 4 = .ok (keys, z) →
    keys.length = 4 → homeNat s keys = 0 → (∃ c < 560, coreVf s c = some r.vf) →
    runAs s r.acc (r.ids ++ gained (enter s r.acc r.ids) (keys.headD 0)) (kvEach (fun b => do
      let x ← kvHome r.acc (r.tbl + 16 * b) 16
      kvRmw r.acc (r.tbl + 16 * b) 16 (setBits x 79 72 (r.layer + 1))) r.blocks) = .ok ((), ids, t) →
    annealGo (stepMade t) { r with layer := r.layer + 1, ids := ids } = .ok u → exec (.layerJoinComplete n) s = .next u) ∧
  ∀ (f : FmtE) (s t s' : State) (os : List Opnd),
    let va := (pair (src t os 0 1 0) (src t os 0 0 0)).toNat
    let hit := s'.en.repairs.filter fun r => r.vf = t.g.who.vf ∧ r.seqAt = va ∧ r.abort = false ∧ r.stage ≠ .gone
    let entries := fun (r : Repair) => r.blocks.map fun b => r.tbl + 16 * b
    let last := fun (r : Repair) => if r.join = 0 then none else some (⟨r.acc, r.cluster, r.prio, r.join, true, 0xA3, []⟩ : Join)
    t = closed s (codes f.d 1) → s.g.mode ≠ .usr → Clear s f.nas ⟨noAp s ++ kBad f.a 2, codes f.a 2, codes f.d 1⟩ →
    takeAll [(1, f.a, 2)] t = .ok (os, s') → bit (vfReg t t.g.who.vf 0x050).toNat 63 = true →
    Claims.Uniform (.grepwmAbort f) f.nas f.d f.la s t
      (hit.foldl (fun e r =>
        if layerDone e r then
          doChore (setRepair (dropFrames e r) r.num none) (.abandon r.acc (entries r) (some (r.layer + 1)) (layerIds e r) (last r))
        else
          let join : Chore := .join ⟨r.acc, r.cluster, r.prio, r.join, false, 0, r.ids⟩
          let kept := if r.stage = .ending then e.en.chores.filter (· ≠ join) else e.en.chores
          let still : State := { e with en := { e.en with chores := kept } }
          let gone := doChore (setRepair (dropFrames still r) r.num (if r.stage = .layers then some { r with stage := .gone } else none))
            (.abandon r.acc (entries r) none r.ids (last r))
          if r.stage = .measure then setRepair gone r.num (some { r with abort := true, join := 0, blocks := [] }) else gone) s')
      [BitVec.ofNat 32 hit.length]

/-! ## Synchronisation -/

/-- From an effect `e` of a wait that ends, the context's instruction completes and the issue goes back to the one that had it. -/
def Claims.Resumed (i : Instr) (nas : Nas) (writes : List Nat) (s e : State) : Prop :=
  ∀ u, applyNas (selectorMask e) e nas = .ok u → exec i s = .next
    ((bring { finished u writes with onAp := s.onAp } s.g.who.vf s.g.who.ident).getD { finished u writes with onAp := s.onAp })

/-- `t` is `s` with the slot of a context that waits brought to issue, its windows that must close before a form with this `io` closed,
and what it waits for. -/
def Claims.Waiting (s t : State) (vf ident : Nat) (other : Bool) (w : Wait) (nas : Nas) (io : Io) : Prop :=
  ∃ b u, bring s vf ident = some b ∧ u = { b with onAp := false, g := { b.g with iss := other } } ∧
    (curSlot u.g).valid = true ∧ (curSlot u.g).wait = w ∧ t = closed u io.writes ∧ Clear u nas { io with bad := [] }

/-- The windows of a group once a form with these result registers has issued. -/
def Claims.opened (t : State) (wins : List Window) (la : BitVec 4) (regs keys : List Nat) : List Window :=
  if regs = [] then wins else wins ++ [Claims.window t t la regs keys]

/-- A queue operation passes its checks (R57, R60, R64, R77, R293, R294): the address `addr` names a well-formed queue that has lost no
permit and a producer that it has, `mem` the place of data in the vault, who blocks may, no older access of the lanes completes with 0x30
(R151), no access to the queue's bytes is on its way, mixed sizes are not checked, and the slot size is what the group read when it began to wait, if it does. -/
def Claims.QueueOk (t : State) (f : FmtE) (push try_ : Bool) (addr mem : Nat) : Prop :=
  let q := qHead t t.g.who.loc.die (addr / 8 * 8)
  sizeChanged t (vaultKey t.g.who.loc.die (addr / 8 * 8)) q.size t.g.iss = false ∧
    qDataBad f q = false ∧ scopeRefused t (f.c &&& 7).toNat = false ∧ addr < 2 ^ 29 ∧
    (f.c.getLsbD 4 = true → mem % 8 = 0 ∧ mem < 2 ^ 29) ∧ bits addr 5 3 = 0 ∧ (push = false → addr % 8 = 0) ∧ q.bad t = false ∧
    (push = true → bits q.w 24 16 ≤ q.ns + 1 ∧ addr % 8 ≤ bits q.w 12 10 ∧ Claims.Released t) ∧
    lostPermit t (vaultKey t.g.who.loc.die (addr / 8 * 8)) false = false ∧ (∀ w ∈ winsOf t, w.gone &&& active t = 0) ∧
    Claims.Arrived t ((List.range (64 + (q.ns + 64) / 64 * 64 + q.size * 256)).map fun i =>
      vaultKey t.g.who.loc.die (addr / 8 * 8 + i)) ∧ (vfReg t t.g.who.vf 0x030).getLsbD 1 = false ∧
    (try_ = false → t.g.who.recClass = false ∧ t.g.who.origin ≠ .record ∧ t.g.who.origin ≠ .graph)

/-- The keys and new bytes of a value of n bytes in the vault of a die. -/
def Claims.put (die a n x : Nat) : List (Nat × Byte) := ((List.range n).map fun i => vaultKey die (a + i)).zip (bytesOfNat n x)

/-- A queue operation whose turn it is takes its step (R57, R58), and `fin` follows from its effect: a push takes one from its
producer's allowance, fills the slot at TAIL and its tag, and moves TAIL and OCC; a pop takes the slot at HEAD, gives the tag's
producer its allowance back, and moves HEAD and OCC. A try form also writes m7. -/
def Claims.queueActs (f : FmtE) (push try_ : Bool) (t s' : State) (os : List Opnd) (fin : State → Prop) : Prop :=
  let addr := (src t os 1 0 0).toNat
  let mem := (src t os 0 0 0).toNat
  let die := t.g.who.loc.die
  let q := qHead t die (addr / 8 * 8)
  let inMem := f.c.getLsbD 4
  let n := q.size / 4
  let slot := if push then q.slotAt q.tail else q.slotAt q.head
  let data := if push then
      (if inMem then natOfBytes ((List.range q.size).map fun i =>
          plainByte (uniteActive s') (uniteActive s').g.ord (active t) (agentOf t.g) 0 (vaultKey die (mem + i)))
        else natOfBytes ((List.range n).flatMap fun i => bytesOfNat 4 (src t os 0 i 0).toNat))
    else vaultNat t die slot q.size
  let tag := vaultNat t die (q.tagAt q.head) 1 % 8
  let ws := if push then
      Claims.put die (q.allowAt (addr % 8)) 2 (vaultNat t die (q.allowAt (addr % 8)) 2 - 1) ++ Claims.put die slot q.size data ++
        Claims.put die (q.tagAt q.tail) 1 (addr % 8) ++
        Claims.put die (q.at_ + 4) 4 (q.head + 256 * ((q.tail + 1) % (q.ns + 1)) + 65536 * (q.occ + 1))
    else Claims.put die (q.allowAt tag) 2 ((vaultNat t die (q.allowAt tag) 2 + 1) % 65536) ++
      Claims.put die (q.at_ + 4) 4 ((q.head + 1) % (q.ns + 1) + 256 * q.tail + 65536 * (q.occ - 1)) ++
      if inMem then Claims.put die mem q.size data else []
  let toRegs := push = false ∧ inMem = false
  let regs := (if toRegs then codes f.d n else []) ++ if try_ then [71] else []
  let keys := (if toRegs then destKeys t f.d n else []) ++ [mKey 7]
  ∃ (e : State) (r1 r2 : Store Word), (if toRegs then UniformWritten s'.g s'.g.regs r1 f.d n (fun i => (Claims.words n data).getD i 0)
      else r1 = s'.g.regs) ∧
    (if try_ then MaskWritten r1 r2 7 0xFFFFFFFF else r2 = r1) ∧
    (∀ key, homeByte e key = Claims.writeAll (homeByte s') ws key) ∧
    (∃ wins, e = { s' with
      ms := { e.ms with log := s'.ms.log, tlb := s'.ms.tlb, dirty := s'.ms.dirty, turn := s'.ms.turn }, fresh := e.fresh
      wk := { s'.wk with
        audits := e.wk.audits, marked := e.wk.marked
        waiters := s'.wk.waiters.filter fun x => ¬(x.vf = t.g.who.vf ∧ x.ident = t.g.who.ident ∧ x.other = t.g.iss) }
      g := { s'.g with regs := r2, ord := e.g.ord, wins := wins } } ∧
      let landed := s'.g.wins.map (Claims.land (active t))
      (regs = [] → wins = landed) ∧ (regs ≠ [] → ∃ old,
        wins = landed ++ [⟨f.la.toNat + 1, curPc t, regs, old, 0, 0, [], t.g.iss, active t, e.fresh⟩] ∧
        ∀ k ∈ old, k.1 ∈ keys ∧ k.2 = storeGet 0 t.g.regs k.1)) ∧ fin e

/-- QueueForms (R56 to R60, R64, R293, R294): the four queue forms where they may act, where a try form finds the queue full or
empty, clears m7 and does nothing else, and where the others join the waiters; a waiter whose operation no longer blocks, and before which
none of its kind waits, takes its step. Rests on the model's choices of notes/assumptions 29. -/
def Obligations.QueueForms : Prop :=
  (∀ p ∈ [((Instr.gqpush : FmtE → Instr), true, false), (.gqpop, false, false), (.gqtryPush, true, true), (.gqtryPop, false, true)],
    ∀ (f : FmtE) (s t s' : State) (os : List Opnd),
      let addr := (src t os 1 0 0).toNat
      let die := t.g.who.loc.die
      let q := qHead t die (addr / 8 * 8)
      let key := vaultKey die (addr / 8 * 8)
      let stuck := qBlocked t q p.2.1 (addr % 8) || qBehind t key p.2.1 t.g.iss
      let io := queueIo ⟨p.2.1, p.2.2⟩ f s
      t = closed s io.writes → Clear s f.nas io →
      takeAll [(0, f.d, if p.2.1 || f.c.getLsbD 4 then qRegs f q else 0), (1, f.a, 1)] t = .ok (os, s') →
      qAddr ⟨p.2.1, p.2.2⟩ f t = .ok addr →
      Claims.QueueOk t f p.2.1 p.2.2 addr (src t os 0 0 0).toNat →
      (stuck = false → Claims.queueActs f p.2.1 p.2.2 t s' os (Claims.Ends (p.1 f) f.nas io.writes s)) ∧
      (stuck = true → p.2.2 = true → qWaits t key t.g.iss = false →
        ∃ regs, MaskWritten t.g.regs regs 7 0 ∧ Claims.Ends (p.1 f) f.nas io.writes s
          { t with g := { t.g with regs := regs, wins := t.g.wins ++ [Claims.window t t f.la [71] [mKey 7]] } }) ∧
      (stuck = true → p.2.2 = false → exec (p.1 f) s =
        .next (setWait (joinWaiters t ⟨key, t.g.who.vf, t.g.who.ident, t.g.iss, p.2.1, addr % 8, q.size⟩) (.queue p.2.1 f)))) ∧
  ∀ (vf ident : Nat) (other push : Bool) (f : FmtE) (s t s' b : State) (os : List Opnd),
    let addr := (src t os 1 0 0).toNat
    let q := qHead t t.g.who.loc.die (addr / 8 * 8)
    let io := queueIo ⟨push, false⟩ f { b with onAp := false, g := { b.g with iss := other } }
    bring s vf ident = some b → Claims.Waiting s t vf ident other (.queue push f) f.nas io →
    takeAll [(0, f.d, if push || f.c.getLsbD 4 then qRegs f q else 0), (1, f.a, 1)] t = .ok (os, s') →
    qAddr ⟨push, false⟩ f t = .ok addr →
    Claims.QueueOk t f push false addr (src t os 0 0 0).toNat → qBlocked t q push (addr % 8) = false →
    qBehind t (vaultKey t.g.who.loc.die (addr / 8 * 8)) push other = false →
    Claims.queueActs f push false t s' os (Claims.Resumed (.queueWaiterServed vf ident other) f.nas io.writes s)

/-- A team barrier word as R61 lays it out: N, LEFT and PHASE. -/
def Claims.barrierWord (n left phase : Nat) : Nat := n + 32 * left + 1024 * phase

/-- TeamBarriers (R61, R62, R295): an arrival at a well-formed word subtracts one from LEFT; the last one sets LEFT to N, flips
PHASE, and completes at once; the others wait for the phase to flip, and then acquire and complete; one that was stopped in its wait does not
arrive again: its PIDX, 1 or 2, says which phase it waits in. Rests on the model's choices
of notes/assumptions 29. -/
def Obligations.TeamBarriers : Prop :=
  (∀ (f : FmtE) (s t s' : State) (os : List Opnd) (n left phase : Nat),
    let a := (src t os 0 0 0).toNat
    let die := t.g.who.loc.die
    let w := Claims.barrierWord n left phase
    t = closed s [] → Clear s f.nas ⟨coreOnly s ++ kBad f.a 1, codes f.a 1, []⟩ → takeAll [(1, f.a, 1)] t = .ok (os, s') →
    a % 4 = 0 → a < 2 ^ 29 → t.g.pidx = 0 → vaultNat t die a 4 = w → 1 ≤ left → left ≤ n → n ≤ 16 → phase < 2 →
    lostPermit t (vaultKey die a) true = false → t.g.who.recClass = false → t.g.who.origin ≠ .record → t.g.who.origin ≠ .graph →
    Claims.Released t → (vfReg t t.g.who.vf 0x030).getLsbD 1 = false →
    ∃ e : State, (∀ key, homeByte e key = Claims.writeAll (homeByte s') (Claims.put die a 4
        (if left = 1 then Claims.barrierWord n n (1 - phase) else Claims.barrierWord n (left - 1) phase)) key) ∧
      e = { s' with
        ms := { e.ms with log := s'.ms.log, tlb := s'.ms.tlb, dirty := s'.ms.dirty, turn := s'.ms.turn }, fresh := e.fresh
        wk := { s'.wk with audits := e.wk.audits, marked := e.wk.marked }
        g := { s'.g with ord := e.g.ord, wins := s'.g.wins.map (Claims.land (active t)) } } ∧
      (left = 1 → Claims.Ends (.gbar f) f.nas [] s e) ∧
      (1 < left → exec (.gbar f) s = .next (setWait e (.barrier f (vaultKey die a) (phase == 1))))) ∧
  (∀ (f : FmtE) (s t s' : State) (os : List Opnd) (w : Nat),
    let a := (src t os 0 0 0).toNat
    let key := vaultKey t.g.who.loc.die a
    let phase := t.g.pidx == 2
    let e : State := { s' with g := { s'.g with pidx := 0 } }
    t = closed s [] → Clear s f.nas ⟨coreOnly s ++ kBad f.a 1, codes f.a 1, []⟩ → takeAll [(1, f.a, 1)] t = .ok (os, s') →
    a % 4 = 0 → a < 2 ^ 29 → t.g.pidx = 1 ∨ t.g.pidx = 2 → vaultNat t t.g.who.loc.die a 4 = w → barWordBad w = false →
    lostPermit t key true = false → t.g.who.recClass = false → t.g.who.origin ≠ .record → t.g.who.origin ≠ .graph →
    (vfReg t t.g.who.vf 0x030).getLsbD 1 = false →
    ((vaultNat e t.g.who.loc.die a 4).testBit 10 ≠ phase → Claims.Ends (.gbar f) f.nas [] s { e with g := { e.g with
      ord := learn s'.g.ord (acquired (relsAt e (active t) key) 1 (agentOf t.g)) (active t) } }) ∧
    ((vaultNat e t.g.who.loc.die a 4).testBit 10 = phase → exec (.gbar f) s = .next (setWait e (.barrier f key phase)))) ∧
  (∀ (vf ident key : Nat) (other phase : Bool) (f : FmtE) (s t : State),
    Claims.Waiting s t vf ident other (.barrier f key phase) f.nas ⟨[], [], []⟩ →
    (stepNat t ((List.range 4).map (key + ·))).testBit 10 ≠ phase →
    Claims.Resumed (.barrierWaitEnd vf ident other) f.nas [] s { t with g := { t.g with
      pidx := 0, ord := learn t.g.ord (acquired (relsAt t (active t) key) 1 (agentOf t.g)) (active t) } })

/-- What a byte barrier becomes when enough has arrived while it is armed (R85). -/
def Claims.flip (b : ByteBar) : ByteBar :=
  if b.armed = true ∧ b.expect ≤ b.arrived then
    ⟨b.expect, 0, false, !b.phase, b.ovf || decide (b.arrived ≠ b.expect), b.rest, b.arrived - b.expect⟩ else b

/-- FLAGS.BBOV is set for a group, also while it is saved (R85). -/
def Claims.overshoot (s : State) (uid : Nat) : State :=
  let mark := fun (c : Ctx) => if c.live ∧ c.who.uid = uid then { c with flags := c.flags ||| 32 } else c
  { s with
    g := mark s.g, others := s.others.map mark
    en := { s.en with saved := s.en.saved.map fun x => if x.who.uid = uid then { x with late := x.late ||| 32 } else x } }

/-- The address that an object form names, from its operands. -/
def Claims.objectAt (t : State) (os : List Opnd) (f : FmtE) : Nat :=
  if f.c.getLsbD 0 then (src t os 1 0 0).toNat else (pair (src t os 1 1 0) (src t os 1 0 0)).toNat

/-- The RMW of n bytes of an object form. -/
def Claims.objectOp (f : FmtE) (n : Nat) : MemOp := ⟨f.c.getLsbD 0, n, .rmw, true, some (f.c.toNat / 4)⟩

/-- The keys of the object. -/
def Claims.objectKeys (t : State) (os : List Opnd) (f : FmtE) (n : Nat) : List Nat :=
  keysOf (spotsOf t t.g.who.loc.die (Claims.objectOp f n) (pagesOf t (accOf t.g) (Claims.objectOp f n) [⟨0, Claims.objectAt t os f⟩])
    ⟨0, Claims.objectAt t os f⟩)

/-- An object form of R296 or R302 reaches its object of n bytes: `wd` is the width of its d operand. -/
def Claims.Reaches (f : FmtE) (n wd : Nat) (writes : List Nat) (s t s' : State) (os : List Opnd) : Prop :=
  t = closed s writes ∧ Clear s f.nas ⟨noAp s ++ objBad s f ++ kBad f.d wd, codes f.d wd ++ codes f.a (objWidth f), writes⟩ ∧
    takeAll [(0, f.d, wd), (1, f.a, objWidth f)] t = .ok (os, s') ∧
    Claims.Passes t (Claims.objectOp f n) [⟨0, Claims.objectAt t os f⟩]

/-- What observing the flip of a phase with this PHASE bit brings (R85), of the flips from number `since` on: the writes and releases that the
first such phase counted. -/
def Claims.gain (t : State) (b : BarRec) (phase : Bool) (scope since : Nat) : List Nat :=
  match (b.flips.drop since).find? fun x => x.1 == phase with
  | some x => x.2.1 ++ acquired x.2.2 scope (agentOf t.g)
  | none => []

/-- Memory as an object form finds it, its pages marked: every byte but the marks is as it was. -/
def Claims.marked (t s' : State) (os : List Opnd) (f : FmtE) (n : Nat) (m : Nat → Byte) : Prop :=
  ∀ key, Claims.Unmarked s' (pagesOf t (accOf t.g) (Claims.objectOp f n) [⟨0, Claims.objectAt t os f⟩]) key → m key = homeByte s' key

/-- ByteBarriers (R84, R85, R296): gbarm arms a barrier with what it expects and gives the phase; gbadd adds to ARRIVED, which
saturates; either flips it when enough has arrived, and an excess sets FLAGS.BBOV of the group that armed it; gbwait completes
with 0 once the phase differs from its operand, and acquires what the phase counted. Rests on the model's choices of
notes/assumptions 29, 45, 78. -/
def Obligations.ByteBarriers : Prop :=
  (∀ (f : FmtE) (s t s' : State) (os : List Opnd),
    let keys := Claims.objectKeys t os f 32
    let b := byteBar t keys
    Claims.Reaches f 32 1 (codes f.d 1) s t s' os → byteBarBad t keys = false → b.armed = false →
    ∃ (e : State) (m : Nat → Byte) (regs : Store Word), Claims.marked t s' os f 32 m ∧
      (∀ key, homeByte e key = Claims.writeAll m ((keys.take 16).zip
        (bytesOfNat 16 (Claims.flip { b with expect := (src t os 0 0 0).toNat, armed := true }).toNat)) key) ∧
      UniformWritten s'.g s'.g.regs regs f.d 1 (fun _ => if b.phase then 1 else 0) ∧
      Claims.Accessed { s' with wk := { s'.wk with bars := e.wk.bars } } e { s'.g with
        regs := regs, ord := e.g.ord
        wins := s'.g.wins.map (Claims.land (active t)) ++ [Claims.window t e f.la (codes f.d 1) (destKeys t f.d 1)] } ∧
      ((src t os 0 0 0).toNat ≤ b.arrived ∨ (barRec e (keys.headD 0)).armer = some t.g.who.uid) ∧
      Claims.Ends (.gbarm f) f.nas (codes f.d 1) s
        (if (src t os 0 0 0).toNat < b.arrived then Claims.overshoot e t.g.who.uid else e)) ∧
  (∀ (f : FmtE) (s t s' : State) (os : List Opnd),
    let keys := Claims.objectKeys t os f 32
    let b := byteBar t keys
    let c : ByteBar := { b with arrived := min (b.arrived + (src t os 0 0 0).toNat) 0xFFFFFFFF }
    Claims.Reaches f 32 1 [] s t s' os → Claims.Released t → Claims.Arrived t keys →
    (∀ key ∈ keys, Claims.Unmarked t (pagesOf t (accOf t.g) (Claims.objectOp f 32) [⟨0, Claims.objectAt t os f⟩]) key) →
    ∃ (e0 e : State) (m : Nat → Byte), Claims.marked t s' os f 32 m ∧
      (∀ key, homeByte e0 key = Claims.writeAll m ((keys.take 16).zip (bytesOfNat 16 (Claims.flip c).toNat)) key) ∧
      Claims.Accessed { s' with wk := { s'.wk with bars := e0.wk.bars } } e0 { s'.g with
        ord := e0.g.ord, wins := s'.g.wins.map (Claims.land (active t)) } ∧
      (e = match (barRec t (keys.headD 0)).armer with
        | some uid => if c.armed = true ∧ c.expect < c.arrived then Claims.overshoot e0 uid else e0
        | none => e0) ∧ Claims.Ends (.gbadd f) f.nas [] s e) ∧
  (∀ (f : FmtE) (s t s' : State) (os : List Opnd),
    let keys := Claims.objectKeys t os f 32
    let w := if f.c.getLsbD 1 then 2 else 1
    let b := barRec t (keys.headD 0)
    t = closed s (codes f.d 1) →
    Clear s f.nas ⟨noAp s ++ objBad s f ++ kBad f.d w, codes f.d w ++ codes f.a (objWidth f), codes f.d 1⟩ →
    takeAll [(0, f.d, w), (1, f.a, objWidth f)] t = .ok (os, s') → Claims.Passes t (Claims.objectOp f 32) [⟨0, Claims.objectAt t os f⟩] →
    faultedCmd t (some (keys.headD 0)) = none →
    ((byteBar t keys).phase ≠ (src t os 0 0 0).getLsbD 0 →
      ∃ (e : State) (regs : Store Word), Claims.marked t s' os f 32 (homeByte e) ∧ UniformWritten s'.g s'.g.regs regs f.d 1 (fun _ => 0) ∧
        Claims.Accessed s' e { s'.g with
          regs := regs
          ord := learn s'.g.ord (Claims.gain t b ((src t os 0 0 0).getLsbD 0) (f.c.toNat / 4) (b.flips.length - 1)) (active t)
          wins := s'.g.wins ++ [Claims.window t e f.la (codes f.d 1) (destKeys t f.d 1)] } ∧
        Claims.Ends (.gbwait f) f.nas (codes f.d 1) s e) ∧
    ((byteBar t keys).phase = (src t os 0 0 0).getLsbD 0 → exec (.gbwait f) s = .next (setWait t
      (.flip f (if f.c.getLsbD 1 then some (t.acnt.toNat + (src t os 0 1 0).toNat) else none) b.flips.length)))) ∧
  ∀ (vf ident since : Nat) (other : Bool) (x : Option Nat) (f : FmtE) (s t s' : State) (os : List Opnd),
    let keys := Claims.objectKeys t os f 32
    let b := barRec t (keys.headD 0)
    Claims.Waiting s t vf ident other (.flip f x since) f.nas (waitIo f) →
    takeAll [(0, f.d, if f.c.getLsbD 1 then 2 else 1), (1, f.a, objWidth f)] t = .ok (os, s') →
    Claims.Passes t (Claims.objectOp f 32) [⟨0, Claims.objectAt t os f⟩] → faultedCmd t (some (keys.headD 0)) = none →
    (byteBar t keys).phase ≠ (src t os 0 0 0).getLsbD 0 →
    ∃ (e : State) (regs : Store Word), Claims.marked t s' os f 32 (homeByte e) ∧ UniformWritten s'.g s'.g.regs regs f.d 1 (fun _ => 0) ∧
      Claims.Accessed s' e { s'.g with
        regs := regs, ord := learn s'.g.ord (Claims.gain t b ((src t os 0 0 0).getLsbD 0) (f.c.toNat / 4) since) (active t)
        wins := s'.g.wins ++ [Claims.window t e f.la (codes f.d 1) (destKeys t f.d 1)] } ∧
      Claims.Resumed (.byteBarrierWaitEnd vf ident other) f.nas (codes f.d 1) s e

/-- EventWords (R302): gevpost sets bits of an event word; gewait takes the bits of its mask that are set, clears them and gives
them, at once or when one is set; a timed wait ends at its limit with 0, a timed gbwait with 1 (R86). Rests on the model's
choices of notes/assumptions 29. -/
def Obligations.EventWords : Prop :=
  let taken (f : FmtE) (t s' : State) (os : List Opnd) (fin : State → Prop) : Prop :=
    let keys := Claims.objectKeys t os f 4
    let old := BitVec.ofNat 32 (metNat t keys)
    let hit := old &&& src t os 0 0 0
    ∃ (e : State) (m : Nat → Byte) (regs : Store Word), Claims.marked t s' os f 4 m ∧
      (∀ key, homeByte e key = Claims.writeAll m (keys.zip (bytesOfNat 4 (old &&& ~~~hit).toNat)) key) ∧
      UniformWritten s'.g s'.g.regs regs f.d 1 (fun _ => hit) ∧
      Claims.Accessed s' e { s'.g with
        regs := regs, ord := e.g.ord
        wins := s'.g.wins.map (Claims.land (active t)) ++ [Claims.window t e f.la (codes f.d 1) (destKeys t f.d 1)] } ∧ fin e
  (∀ (f : FmtE) (s t s' : State) (os : List Opnd), Claims.Reaches f 4 1 [] s t s' os → Claims.Released t →
    ∃ (e : State) (m : Nat → Byte), Claims.marked t s' os f 4 m ∧
      (∀ key, homeByte e key = Claims.writeAll m ((Claims.objectKeys t os f 4).zip
        (bytesOfNat 4 (BitVec.ofNat 32 (metNat t (Claims.objectKeys t os f 4)) ||| src t os 0 0 0).toNat)) key) ∧
      Claims.Accessed s' e { s'.g with ord := e.g.ord, wins := s'.g.wins.map (Claims.land (active t)) } ∧
      Claims.Ends (.gevpost f) f.nas [] s e) ∧
  (∀ (f : FmtE) (s t s' : State) (os : List Opnd),
    let w := if f.c.getLsbD 1 then 2 else 1
    t = closed s (codes f.d 1) →
    Clear s f.nas ⟨noAp s ++ objBad s f ++ kBad f.d w, codes f.d w ++ codes f.a (objWidth f), codes f.d 1⟩ →
    takeAll [(0, f.d, w), (1, f.a, objWidth f)] t = .ok (os, s') → Claims.Passes t (Claims.objectOp f 4) [⟨0, Claims.objectAt t os f⟩] →
    (BitVec.ofNat 32 (metNat t (Claims.objectKeys t os f 4)) &&& src t os 0 0 0 ≠ 0 →
      taken f t s' os (Claims.Ends (.gewait f) f.nas (codes f.d 1) s)) ∧
    (BitVec.ofNat 32 (metNat t (Claims.objectKeys t os f 4)) &&& src t os 0 0 0 = 0 → exec (.gewait f) s = .next (setWait t
      (.event f (if f.c.getLsbD 1 then some (t.acnt.toNat + (src t os 0 1 0).toNat) else none))))) ∧
  (∀ (vf ident : Nat) (other : Bool) (x : Option Nat) (f : FmtE) (s t s' : State) (os : List Opnd),
    Claims.Waiting s t vf ident other (.event f x) f.nas (waitIo f) →
    takeAll [(0, f.d, if f.c.getLsbD 1 then 2 else 1), (1, f.a, objWidth f)] t = .ok (os, s') →
    Claims.Passes t (Claims.objectOp f 4) [⟨0, Claims.objectAt t os f⟩] →
    BitVec.ofNat 32 (metNat t (Claims.objectKeys t os f 4)) &&& src t os 0 0 0 ≠ 0 →
    taken f t s' os (Claims.Resumed (.eventWaitEnd vf ident other) f.nas (codes f.d 1) s)) ∧
  ∀ (vf ident since : Nat) (other : Bool) (x : Nat) (f : FmtE) (s t s' : State) (os : List Opnd), f.c.getLsbD 1 = true →
    takeAll [(0, f.d, 2), (1, f.a, objWidth f)] t = .ok (os, s') → x ≤ t.acnt.toNat →
    let e := fun regs => ({ s' with g := { s'.g with
      regs := regs, wins := s'.g.wins ++ [Claims.window t s' f.la (codes f.d 1) (destKeys t f.d 1)] } } : State)
    (Claims.Waiting s t vf ident other (.flip f (some x) since) f.nas (waitIo f) →
      Claims.Passes t (Claims.objectOp f 32) [⟨0, Claims.objectAt t os f⟩] →
      faultedCmd t (some ((Claims.objectKeys t os f 32).headD 0)) = none →
      (byteBar t (Claims.objectKeys t os f 32)).phase = (src t os 0 0 0).getLsbD 0 →
      ∃ regs, UniformWritten s'.g s'.g.regs regs f.d 1 (fun _ => 1) ∧
        Claims.Resumed (.timedWaitExpiry vf ident other) f.nas (codes f.d 1) s (e regs)) ∧
    (Claims.Waiting s t vf ident other (.event f (some x)) f.nas (waitIo f) →
      Claims.Passes t (Claims.objectOp f 4) [⟨0, Claims.objectAt t os f⟩] →
      BitVec.ofNat 32 (metNat t (Claims.objectKeys t os f 4)) &&& src t os 0 0 0 = 0 →
      ∃ regs, UniformWritten s'.g s'.g.regs regs f.d 1 (fun _ => 0) ∧
        Claims.Resumed (.timedWaitExpiry vf ident other) f.nas (codes f.d 1) s (e regs))

/-! ## Engines -/

/-- A command form: what it starts, its chunks as a count from the descriptor, whether the descriptor is refused, where its
barrier and data are, the block it pins, and whether it is long. -/
structure Claims.CmdRow where
  form : FmtE → Instr
  kind : CmdKind
  chunks : State → Nat → Nat → Nat
  refused : State → Nat → Nat → Bool
  bv : Nat → Bool := fun _ => false
  vault : Nat → Bool := fun _ => false
  pin : Nat → Option Nat := fun _ => none
  long : Bool := true

/-- A copy or fill (R297): chunks of 64 x 2^CS bytes. -/
def Claims.copyRow (mk : FmtE → Instr) (kind : CmdKind) : Claims.CmdRow :=
  { form := mk, kind := kind, chunks := fun _ _ x => (dLen x + 64 * 2 ^ bits x 227 224 - 1) / (64 * 2 ^ bits x 227 224)
    refused := fun _ _ x => copyBad x, bv := fun x => bit x 232, vault := fun x => bit x 233 || (kind == .copy && bit x 234)
    pin := fun x => if bits x 287 256 = 0xFFFFFFFF then none else some (bits x 287 256) }

/-- A gather or scatter (R298): chunks of as many elements as fit 64 x 2^CS bytes, at least one. -/
def Claims.gatherRow (mk : FmtE → Instr) (kind : CmdKind) : Claims.CmdRow :=
  { form := mk, kind := kind
    chunks := fun _ _ x => let per := max 1 (64 * 2 ^ bits x 299 296 / (4 * 2 ^ bits x 290 288)); (bits x 287 256 + per - 1) / per
    refused := fun _ _ x => gatBad x (kind == .scatterAddF || kind == .scatterAddN), bv := fun x => bit x 304
    vault := fun x => bit x 305 }

/-- A collective (R299): chunks of 4 KiB of what it writes at each member. -/
def Claims.collRow (mk : FmtE → Instr) (kind : CmdKind) (total : Nat → Nat → Nat) : Claims.CmdRow :=
  { form := mk, kind := kind, chunks := fun s vf x => (total (cgrpCount s vf x) (bits x 223 192) + 4095) / 4096
    refused := fun s vf x => collBad s vf kind x, long := false }

/-- The command forms of R297 to R299. -/
def Claims.commands : List Claims.CmdRow :=
  [Claims.copyRow .gcopy .copy, Claims.copyRow .gcopyFill .fill, Claims.gatherRow .ggather .gather,
   Claims.gatherRow .gscatter .scatter, Claims.gatherRow .gscatterAddf .scatterAddF, Claims.gatherRow .gscatterAddn .scatterAddN,
   Claims.collRow .gcollAllreduce .allReduce fun _ len => len, Claims.collRow .gcollAllgather .allGather fun n len => n * len,
   Claims.collRow .gcollReducescatter .reduceScatter fun n len => len / n, Claims.collRow .gcollBroadcast .broadcast fun _ len => len]

/-- EngineStarts (R83, R153, R297 to R300): a start reads its descriptor and hands the engines chunks, with what the
group has before them: a copy, fill, gather or scatter the one at PIDX, the first making a command and pinning its block, the others
joining it, and the issue leaves PIDX at the next chunk; with the last the form completes and clears PIDX. A collective hands over all. Rests on the model's choices of notes/assumptions 41, 45. -/
def Obligations.EngineStarts : Prop :=
  ∀ r ∈ Claims.commands, ∀ (f : FmtE) (s t s' e0 : State) (os : List Opnd) (x : Nat) (keys : List Nat),
    let v := uniteActive s'
    let a := accOf t.g
    let n := r.chunks v a.vf x
    let from_ := if r.long then t.g.pidx.toNat else 0
    let more := (upto n).filter fun j => r.long = false ∨ j = from_
    let old := if r.long then t.en.cmds.find? fun c =>
      c.uid = t.g.who.uid ∧ c.kind = r.kind ∧ c.desc = x ∧ c.accepted = from_ ∧ from_ < c.chunks else none
    let pin := if more = [] ∨ old ≠ none then none else r.pin x
    t = closed s [] → Clear s f.nas ⟨noAp s ++ kBad f.a 2, codes f.a 2, []⟩ → takeAll [(1, f.a, 2)] t = .ok (os, s') →
    scopeRefused t (f.c.toNat / 4) = false → Claims.Reads v a (pair (src t os 0 1 0) (src t os 0 0 0)).toNat 64 x →
    r.refused v a.vf x = false → (t.g.who.loc.die = 2 → r.bv x = false ∧ r.vault x = false) → from_ ≤ n →
    Claims.Released t → barKeys v a t.g.who.loc.die (bits x 191 128) (r.bv x) = .ok (keys, v) →
    (from_ < n → ∀ c va, pinFor a (r.pin x) v ≠ .error (.cause c va)) →
    pinFor a pin v = .ok ((), e0) → e0.g.pend = t.g.pend → (∀ c ∈ e0.en.cmds, c.num ≠ e0.fresh + 1) →
    let c : Cmd := old.getD ⟨e0.fresh + 1, a.vf, a.ident, t.g.who.uid, a.mode, t.g.who.loc.die, r.kind, x, keys.head?, r.bv x, n, from_,
      [], pin, none, false, []⟩
    ∃ (e : State) (ids : List Nat),
      let c' : Cmd := { c with accepted := c.accepted + more.length, todo := c.todo ++ more, ids := ids }
      e = { e0 with
        ms := { e0.ms with hist := e.ms.hist }, fresh := e0.fresh + 1
        en := { e0.en with cmds := if old ≠ none then e0.en.cmds.map fun y => if y.num = c.num then c' else y
          else if more = [] then e0.en.cmds else e0.en.cmds ++ [c'] }
        g := { e0.g with wins := e0.g.wins.map (Claims.land (active t)) } } ∧
      (∀ ev, ev ∈ ids ↔ ev ∈ c.ids ∨ ev ∈ knownIds e0.g.ord (active t)) ∧
      (∀ w ∈ e.ms.hist, knows e0.g.ord (active t) w.ev = true → w.arrived ≠ none ∨ unreadable e w = true ∨ early e w = true) ∧
      (r.long = true → from_ + 1 < n → exec (r.form f) s = .next { e with g := { e.g with
        pidx := BitVec.ofNat 32 (from_ + 1), waitCnt := 0, stamp := some t.acnt.toNat, ap := t.g.ap } }) ∧
      (r.long = false ∨ n ≤ from_ + 1 → Claims.Ends (r.form f) f.nas [] s { e with g := { e.g with
        pidx := if r.long then 0 else e.g.pidx } })

/-- EngineChunks (R85, R153, R297 to R299): a chunk that runs makes its writes, none before another, and counts their bytes in the
command's barrier, and the last one of those accepted to the end ends the command; a fill repeats the eight bytes of its pattern; a mismatch of a collective stops it with 0x6C.
Rests on the model's choices of notes/assumptions 39, 45. -/
def Obligations.EngineChunks : Prop :=
  (∀ (s u : State) (num j : Nat) (c : Cmd) (peers : List (List Byte)) (key : Option Nat) (ids : List Nat),
    s.en.cmds.find? (fun x => x.num = num) = some c → c.halted = false → c.fault = none → j ∈ c.todo →
    runAs s c.acc c.ids (chunkBody c j peers) = .ok (key, ids, u) →
    let c' : Cmd := { c with todo := c.todo.filter (· ≠ j), bar := key }
    (c'.todo ≠ [] ∨ c.accepted < c.chunks → exec (.engineChunkComplete num j peers) s = .next
      { u with en := { u.en with cmds := u.en.cmds.map fun x => if x.num = c.num then c' else x } }) ∧
    (c'.todo = [] → c.chunks ≤ c.accepted → c.pin = none → exec (.engineChunkComplete num j peers) s = .next
      { u with en := { u.en with cmds := u.en.cmds.filter fun x => x.num ≠ c.num } })) ∧
  (∀ (s s1 s2 s3 : State) (c : Cmd) (j : Nat) (peers : List (List Byte)) (ws : List EngWrite) (keys : List Nat) (evs : List (List Nat)),
    chunkWrites c j peers s = .ok (ws, s1) → barKeys s1 c.acc c.die (bits c.desc 191 128) c.barVault = .ok (keys, s2) →
    kvMap (engWrite c) ws s2 = .ok (evs, s3) →
    let s4 := learnFor s3 evs.flatten (active s3)
    chunkBody c j peers s = .ok (keys.head?, if keys = [] then s4 else
      barArrival (if c.barVault then s4 else countVa s4 c.acc .store true (bits c.desc 191 128) 32) 3 false keys (ws.map (·.size)).sum
        ((knownIds s4.g.ord 0xFFFFFFFF).filter fun i => i ∉ c.ids) [])) ∧
  (∀ (s : State) (c : Cmd) (j : Nat), c.kind = .fill →
    let cs := 64 * 2 ^ bits c.desc 227 224
    let n := min (cs * (j + 1)) (bits c.desc 223 192) - cs * j
    chunkWrites c j [] s = .ok ([⟨bit c.desc 233, bits c.desc 127 64 + cs * j, n,
      natOfBytes ((List.range n).map fun i => BitVec.ofNat 8 (bits c.desc 63 0 / 2 ^ (8 * ((cs * j + i) % 8)))), none⟩], s)) ∧
  ∀ (s : State) (num : Nat) (c : Cmd), s.en.cmds.find? (fun x => x.num = num ∧ isColl x = true ∧ x.fault = none ∧ x.halted = false) = some c →
    c.todo ≠ [] → exec (.collectiveMismatch num) s = .next { s with en := { s.en with cmds := s.en.cmds.map fun x =>
      if x.num = c.num then { c with fault := some (0x6C, 0), todo := c.todo.headD 0 :: c.todo.filter (· ≠ c.todo.headD 0) } else x } }

/-! ## Work -/

/-- From the effect `e` the instruction writes one word to a uniform destination, and completes. -/
def Claims.Writes (i : Instr) (nas : Nas) (d : RegCode) (s e : State) (x : Word) : Prop :=
  ∃ regs, UniformWritten e.g e.g.regs regs d 1 (fun _ => x) ∧
    Claims.Ends i nas (codes d 1) s { e with g := { e.g with regs := regs } }

/-- GroupSpawn (R41, R52, R304): gspawn creates a group of origin SPAWN in the partition with the most free contexts, with the
parent's class, mode, k registers and eight v registers, and gives 0; without a free context, an identifier or a place in its
team it gives 1 and does nothing else. Rests on the model's choices of notes/assumptions 2, 3, 35. -/
def Obligations.GroupSpawn : Prop :=
  ∀ (f : FmtR) (s t s' : State) (os : List Opnd),
    let core := coreNum t.g.who.loc
    let mates := (allCtx t).filter fun c => c.who.vf = t.g.who.vf ∧ c.who.teamId = t.g.who.teamId
    let full := t.g.who.team ≠ none ∧ 16 ≤ mates.length
    t = closed s (codes f.d 1) →
    Clear s f.nas ⟨coreOnly s ++ kBad f.d 1 ++ (if f.a.toNat ≤ 40 then [] else [0x03]) ++ kBad f.b 2, codes f.a 8 ++ codes f.b 2, codes f.d 1⟩ →
    takeAll [(1, f.a, 8), (2, f.b, 2)] t = .ok (os, s') →
    (bestPart t core = none ∨ freeIdent t t.g.who.vf = none ∨ full → Claims.Writes (.gspawn f) f.nas f.d s s' 1) ∧
    ∀ part ident, bestPart t core = some part → freeIdent t t.g.who.vf = some ident → ¬full →
      ∃ (e : State) (c : Ctx), Claims.Writes (.gspawn f) f.nas f.d s e 0 ∧
        e = { s' with
          ms := { s'.ms with
            mem := e.ms.mem, hist := e.ms.hist, undef := e.ms.undef
            tlb := s'.ms.tlb.map fun x => if x.vf = t.g.who.vf ∧ x.ident = some ident then { x with ident := none } else x }
          fresh := e.fresh, others := s'.others ++ [c]
          g := { s'.g with ord := unite s'.g.ord (active t) } } ∧
        (∀ key, homeByte e key = Claims.writeAll (homeByte s') ((physKeys s' (ctxEntryAt s' t.g.who.vf ident) 16).zip
          (bytesOfNat 16 (physNat s' (ctxEntryAt s' t.g.who.vf t.g.who.ident) 16))) key) ∧
        c.live = true ∧ c.who.vf = t.g.who.vf ∧ c.who.ident = ident ∧ c.who.origin = .spawn ∧ c.who.recClass = t.g.who.recClass ∧
        c.who.loc = locOf core part (freeNum t core part) ∧ c.who.gang = t.g.who.gang ∧ c.who.team = t.g.who.team ∧
        c.prio = t.g.prio ∧ c.mode = t.g.mode ∧
        c.s0 = ⟨true, (pair (src t os 1 1 0) (src t os 1 0 0)).setWidth 57, active t, .none⟩ ∧ c.s1.valid = false ∧
        c.flags = 0 ∧ c.pidx = 0 ∧ c.mx.held = 0 ∧ c.ap = none ∧ (∀ i < 16, kAt c i = kAt t.g i) ∧
        (∀ i < 8, ∀ l < 32, vAt c i l = src t os 0 i l) ∧ (∀ i < 48, 8 ≤ i → ∀ l < 32, vAt c i l = 0) ∧ (∀ i, 1 ≤ i → i < 8 → mAt c i = 0)

/-- The value of a gid selector in lane l (R308). -/
def Claims.gid (t : State) (sel l : Nat) : Word :=
  let w := t.g.who
  let team := w.team ≠ none
  if sel = 0 then
    (if w.loc.die = 2 then BitVec.ofNat 32 (2 ^ 14 + w.loc.num)
      else BitVec.ofNat 32 (w.loc.num + 2 ^ 4 * w.loc.part + 2 ^ 6 * w.loc.core + 2 ^ 9 * w.loc.cluster + 2 ^ 14 * w.loc.die))
  else if sel = 1 then (if team then BitVec.ofNat 32 (w.team.getD 0) else 0xFFFFFFFF)
  else if sel = 2 then (if team then BitVec.ofNat 32 w.gidx else 0xFFFFFFFF)
  else if sel = 4 then BitVec.ofNat 32 (w.vf + 2 ^ 16 * w.ident)
  else if sel = 5 then BitVec.ofNat 32 ((devReg t 0x180).toNat % 2 ^ 16)
  else if sel = 6 then BitVec.ofNat 32 (t.g.prio +
    4 * (if w.origin = .record then 0 else if w.origin = .gang then 1 else if w.origin = .spawn then 2 else 3))
  else if sel = 7 then active t
  else if w.loc.die = 2 then 0 else BitVec.ofNat 32 l

/-- GroupServices (R26, R30, R34, R35, R87, R301, R307 to R309): what gid gives a group or a slice for each selector, to a k
register or to every lane of a v register, and that a slice's waits for room in an access queue; gyield does nothing but issue; gapon attaches a free access processor of the
partition with an empty state at the pc of its operand and gives 0, gives 2 if the group has one, 1 if none is free; gapoff
detaches it with its queues; gmfence closes the open batch and gives its number modulo 16, as long as the batch sixteen before
has nothing left; gmwait completes once no work is left in its batch and the earlier ones, and does not issue before. Rests on
the model's choices of notes/assumptions 20, 32. -/
def Obligations.GroupServices : Prop :=
  let gives (f : FmtI) (s t : State) (x : Nat → Word) : Prop :=
    (isV f.d = true → ∃ regs, LaneWritten t.g.regs regs f.d.toNat 1 (allLanes t.g) (fun _ l => x l) ∧
      Claims.Ends (.gid f) f.nas (codes f.d 1) s { t with g := { t.g with regs := regs } }) ∧
    (isV f.d = false → ∃ e, Claims.Delivered t e f.d [x 0] ∧ Claims.Ends (.gid f) f.nas (codes f.d 1) s e)
  (∀ (f : FmtI) (s t : State), t = closed s (codes f.d 1) → Claims.Room t f.d 1 → (Instr.gid f).wellFormed = true → f.imm ≠ 3 →
    Clear s f.nas ⟨if f.imm.toNat = 8 && !isV f.d then [0x03] else [], [], codes f.d 1⟩ → gives f s t (Claims.gid t f.imm.toNat)) ∧
  (∀ (f : FmtI) (s t : State) (g : Gang) (i : Nat) (e : Team), t = closed s (codes f.d 1) → Claims.Room t f.d 1 → f.imm = 3 →
    Clear s f.nas ⟨if f.imm.toNat = 8 && !isV f.d then [0x03] else [], [], codes f.d 1⟩ →
    t.wk.gangs.find? (fun x => some x.num = t.g.who.gang) = some g → t.g.who.team = some i → g.teams[i]? = some e →
    gives f s t fun _ => BitVec.ofNat 32 e.entry.groups) ∧
  (∀ (f : FmtI) (s t : State) (a : Ap), t = closed s (codes f.d 1) → s.onAp = true → t.g.ap = some a → isK f.d = true →
    60 ≤ f.d.toNat → 16 ≤ (a.aq.getD (f.d.toNat - 60) []).length → Clear s f.nas ⟨if f.imm.toNat = 8 then [0x03] else [], [], codes f.d 1⟩ →
    exec (.gid f) s = .next t) ∧
  (∀ (f : FmtR) (s : State), Clear s f.nas ⟨noAp s, [], []⟩ → Claims.Ends (.gyield f) f.nas [] s (closed s [])) ∧
  (∀ (f : FmtR) (s t s' : State) (os : List Opnd),
    let used := ((usedCtx t (coreNum t.g.who.loc) t.g.who.loc.part).filterMap (·.ap)).map (·.num)
    t = closed s (codes f.d 1) → Clear s f.nas ⟨coreOnly s ++ kBad f.d 1 ++ kBad f.a 2, codes f.a 2, codes f.d 1⟩ →
    takeAll [(1, f.a, 2)] t = .ok (os, s') →
    (t.g.ap ≠ none → Claims.Writes (.gapon f) f.nas f.d s s' 2) ∧
    (t.g.ap = none → 0 ∈ used → 1 ∈ used → Claims.Writes (.gapon f) f.nas f.d s s' 1) ∧
    (t.g.ap = none → ¬(0 ∈ used ∧ 1 ∈ used) → ∃ ids, (∀ ev, ev ∈ ids ↔ ev ∈ knownIds (unite s'.g.ord (active t)) (active t)) ∧
      Claims.Writes (.gapon f) f.nas f.d s { s' with g := { s'.g with
        ord := unite s'.g.ord (active t)
        ap := some ⟨if 0 ∈ used then 1 else 0, (pair (src t os 0 1 0) (src t os 0 0 0)).setWidth 57, [], emptySeq, .running,
          [[], [], [], []], ids, [],
          (s'.g.ord.seen.filter fun x => (x.lanes &&& active t) != 0).map fun x => { x with lanes := 0xFFFFFFFF }⟩ } } 0)) ∧
  (∀ (f : FmtR) (s t : State), t = closed s [] → Clear s f.nas ⟨coreOnly s, [], []⟩ →
    Claims.Ends (.gapoff f) f.nas [] s { t with g := { t.g with ap := none } }) ∧
  (∀ (f : FmtR) (s t : State), t = closed s (codes f.d 1) → Clear s f.nas ⟨coreOnly s ++ kBad f.d 1, [], codes f.d 1⟩ →
    (16 ≤ t.g.mx.batch → matrixBusy t t.g (some (t.g.mx.batch - 16)) = false) →
    ∃ regs, UniformWritten t.g t.g.regs regs f.d 1 (fun _ => BitVec.ofNat 32 (t.g.mx.batch % 16)) ∧
      Claims.Ends (.gmfence f) f.nas (codes f.d 1) s
        { t with g := { t.g with regs := regs, mx := { t.g.mx with batch := t.g.mx.batch + 1 } } }) ∧
  ∀ (f : FmtI) (s t s' : State) (os : List Opnd) (b : Nat), t = closed s [] →
    Clear s f.nas ⟨coreOnly s ++ kBad f.a 1, codes f.a 1, []⟩ → takeAll [(1, f.a, 1)] t = .ok (os, s') →
    b % 16 = ((src t os 0 0 0).toNat + f.imm.toNat) % 16 → b < t.g.mx.batch → t.g.mx.batch ≤ b + 16 →
    (matrixBusy t t.g (some b) = false → Claims.Ends (.gmwait f) f.nas [] s s') ∧
    (matrixBusy t t.g (some b) = true → exec (.gmwait f) s = .next (setWait t .held))

/-- RecordPushes (R39 to R43, R49, R64, R305): gcpush pushes the record in k[a]..k[a+7], glaunch one of KIND 2 with its FRAME and
JOIN; one that passes its checks is written at TAIL of its queue and gives 0, or gives 1 if the queue is full; a graph record whose
node does not exist is dropped, with a failing join. Rests on the model's choices of notes/assumptions 34. -/
def Obligations.RecordPushes : Prop :=
  let pushed (i : Instr) (nas : Nas) (d : RegCode) (s t s' : State) (cluster data : Nat) : Prop :=
    ∀ u, pushCheck s' cluster data = .ok (none, u) → u.g.pend = t.g.pend →
      (queueOf t t.g.who.vf cluster data = none → Claims.Writes i nas d s (joinFor (qCount u (headerAt t t.g.who.vf cluster (recPrio data)) 20)
        (accOf t.g) cluster (recPrio data) (recJoin data) true 0x69 (knownIds t.g.ord (active t))) 0) ∧
      ∀ h, queueOf t t.g.who.vf cluster data = some h → qReserved t h = false → Claims.Released t →
        (qFull t h = true → Claims.Writes i nas d s u 1) ∧
        (qFull t h = false → ∃ (e e0 : State) (ids : List Nat),
          e0 = { u with
            ms := { u.ms with hist := e0.ms.hist }
            g := { u.g with ord := unite u.g.ord (active t), wins := u.g.wins.map (Claims.land (active t)) } } ∧
          (∀ w ∈ e0.ms.hist, knows e0.g.ord (active t) w.ev = true → w.arrived ≠ none ∨ unreadable e0 w = true ∨ early e0 w = true) ∧
          (∀ ev, ev ∈ ids ↔ ev ∈ knownIds e0.g.ord (active t)) ∧
          e = qWrite e0 h data t.g.who.ident (issuingCluster t.g.who.loc) ids ∧ Claims.Writes i nas d s e 0)
  (∀ (f : FmtR) (s t s' : State) (os : List Opnd),
    let named := f.x.getLsbD 0
    let data := ((List.range 8).map fun i => (src t os 0 i 0).toNat * 2 ^ (32 * i)).sum
    let cluster := if named then (src t os 1 0 0).toNat else issuingCluster t.g.who.loc
    t = closed s (codes f.d 1) → s.onAp = false →
    Clear s f.nas ⟨noAp s ++ kBad f.d 1 ++ kBad f.a 8 ++ (if named then kBad f.b 1 else if f.b = 0 then [] else [0x02]),
      codes f.a 8 ++ (if named then codes f.b 1 else []), codes f.d 1⟩ →
    takeAll ((1, f.a, 8) :: if named then [(2, f.b, 1)] else []) t = .ok (os, s') → (named = true → cluster < 64) →
    pushed (.gcpush f) f.nas f.d s t s' cluster data) ∧
  ∀ (f : FmtR) (s t s' : State) (os : List Opnd),
    let frame := (pair (src t os 0 1 0) (src t os 0 0 0)).toNat
    let join := (pair (src t os 1 1 0) (src t os 1 0 0)).toNat
    t = closed s (codes f.d 1) →
    Clear s f.nas ⟨noAp s ++ kBad f.d 1 ++ kBad f.a 2 ++ kBad f.b 2, codes f.a 2 ++ codes f.b 2, codes f.d 1⟩ →
    takeAll [(1, f.a, 2), (2, f.b, 2)] t = .ok (os, s') →
    pushed (.glaunch f) f.nas f.d s t s' (issuingCluster t.g.who.loc)
      (2 ^ 64 * frame + 2 ^ 128 * join + 2 ^ 192 * (f.x.toNat % 4 + 8))

/-- The writes of a join on a block of eight bytes at `keys` whose COUNT and the word after it are given (R53, R54). -/
def Claims.joinWrites (keys : List Nat) (count word : Nat) (fail : Bool) (cause : Nat) : List (Nat × Byte) :=
  (if fail then (keys.drop 4).zip (bytesOfNat 4 (word / 2 ^ 16 * 2 ^ 16 + 256 * (cause % 256) + bits word 7 1 * 2 + 1)) else []) ++
    (keys.take 4).zip (bytesOfNat 4 (count - 1))

/-- Joins (R53 to R55, R306): gcjoin on an aligned block with COUNT above 0, and a join by the device, subtract one from COUNT, set FAIL
and CAUSE if they fail, and pass on what is before them; at 0 the continuation that the block holds is enqueued, unless the block
is a repair's layer; the device counts a join of a misaligned or spent block in JERR. Rests on the model's choices of notes/assumptions
34, 68. -/
def Obligations.Joins : Prop :=
  (∀ (f : FmtR) (s t s' : State) (os : List Opnd) (keys : List Nat),
    let addr := (pair (src t os 0 1 0) (src t os 0 0 0)).toNat
    let w := (src t os 1 0 0).toNat
    let count := metNat s' (keys.take 4)
    t = closed s [] → Clear s f.nas ⟨noAp s ++ kBad f.a 2 ++ kBad f.b 1, codes f.a 2 ++ codes f.b 1, []⟩ →
    takeAll [(1, f.a, 2), (2, f.b, 1)] t = .ok (os, s') → bits w 7 1 = 0 → w < 65536 → addr % 64 = 0 →
    Claims.At s' (accOf t.g) .store addr 8 keys → Claims.Released t → count ≠ 0 → (vfReg t t.g.who.vf 0x030).getLsbD 1 = false →
    migMode s' t.g.who.vf ≠ 2 →
    ∃ (e : State) (ids : List Nat), e = { s' with
        ms := { e.ms with log := s'.ms.log }, fresh := e.fresh
        g := { s'.g with ord := e.g.ord, wins := s'.g.wins.map (Claims.land (active t)) }
        ld := { s'.ld with hot := e.ld.hot, proposals := e.ld.proposals } } ∧
      (∀ key, homeByte e key =
        Claims.writeAll (homeByte s') (Claims.joinWrites keys count (metNat s' (keys.drop 4)) (w % 2 == 1) (bits w 15 8)) key) ∧
      (∀ ev ∈ knownIds s'.g.ord (active t), ev ∈ ids) ∧
      let after := afterJoin e ⟨accOf t.g, issuingCluster t.g.who.loc, t.g.prio, addr, w % 2 == 1, bits w 15 8, ids⟩ (keys.headD 0) (count - 1) ids
      let u := runChores choreFuel after.2 after.1
      u.g.pend = t.g.pend → Claims.Ends (.gcjoin f) f.nas [] s u) ∧
  (∀ (s : State) (j : Join) (keys : List Nat), j.addr % 64 = 0 → Claims.At s j.acc .store j.addr 8 keys →
    let u := enter s j.acc j.ids
    let count := metNat u (keys.take 4)
    (count = 0 → joinStep s j = .ok ([], qCount s (headerAt s j.acc.vf j.cluster j.prio) 24)) ∧
    (count ≠ 0 → ∃ (e : State) (ids : List Nat),
      e = { s with ms := { s.ms with mem := e.ms.mem, hist := e.ms.hist, undef := e.ms.undef, strongs := e.ms.strongs }, fresh := e.fresh } ∧
      (∀ key, homeByte e key = Claims.writeAll (homeByte s) (Claims.joinWrites keys count (metNat u (keys.drop 4)) j.fail j.cause) key) ∧
      (∀ ev ∈ j.ids, ev ∈ ids) ∧ joinStep s j = .ok (afterJoin e j (keys.headD 0) (count - 1) ids))) ∧
  (∀ (s : State) (j : Join), j.addr % 64 ≠ 0 → joinStep s j = .ok ([], qCount s (headerAt s j.acc.vf j.cluster j.prio) 24)) ∧
  ∀ (s z : State) (j : Join) (key left cont : Nat) (ids : List Nat), vaHome s j.acc .load (j.addr + 32) 32 = .ok (cont, z) →
    layerJoin s key = none →
    (left ≠ 0 → afterJoin s j key left ids = ([], s)) ∧
    (∀ e, enqueueAs s j.acc j.cluster cont j.cluster ids = ([], e) → afterJoin s j key 0 ids = ([], e))

/-! ## The machine -/

/-- ResetState (R19, R114, R172, R317, R351, R357, R369, R389, R400): no group is live, and the registers whose reset value the
spec states hold it; the invariant of StepKeepsMemory holds. Rests on the model's choices of notes/assumptions 5. -/
def Obligations.ResetState : Prop :=
  let s := State.reset
  StateInv s ∧ allCtx s = [] ∧ s.acnt = 0 ∧ s.tnow = 0 ∧
  (∀ vf < 16, vfReg s vf 0x003 = 0x3210 ∧ vfReg s vf 0x104 = 1 ∧ vfReg s vf 0x105 = 0xFFFF ∧
    ∀ n ∈ [0x030, 0x04C, 0x050, 0x100, 0x103, 0x106, 0x107, 0x108, 0x109, 0x10A, 0x10B, 0x10C], vfReg s vf n = 0) ∧
  (∀ i < 16, devReg s (0x140 + 4 * i) = 0 ∧ devReg s (0x141 + 4 * i) = 0 ∧ devReg s (0x142 + 4 * i) = 0xFE000000 ∧
    devReg s (0x143 + 4 * i) = 0) ∧
  (∀ n ∈ [0x062, 0x101, 0x102, 0x110, 0x111, 0x112, 0x1C0, 0x1C2, 0x1C3, 0x1C6, 0x1C8, 0x1CF], devReg s n = 0) ∧
  devReg s 0x180 = 0xFFFF ∧ devReg s 0x1C4 = 10 ∧ devReg s 0x1C5 = 24 ∧
  (∀ d < 2, fleetReg s (cfgAt d) = 0xA0000 ∧ fleetReg s (stAt d) = 0 ∧ fleetReg s (atAt d) = 0) ∧
  (List.range 8).map (fun i => devReg s (0x0F0 + i)) =
    [0xB9712E5C, 0x6FE34D0A, 0x074FD182, 0x589E3AB6, 0xA0D2741C, 0x8EF5396B, 0xABC4170E, 0x607F923D]

/-- StepKeepsMemory: memory in its canonical form stays in it, whatever a step does. -/
def Obligations.StepKeepsMemory : Prop := ∀ s t : State, StateInv s → step s = .next t → StateInv t

/-- StepRunsDecoded (R11, R160, R188): a step that issues fetches the four bytes at the translated pc, lowest first, and does
what exec does with the instruction that they decode to; then time passes, unless others issue in the same aclk. A word that is no
instruction and a failed fetch are the steps of their own names, and so are a due trap and what the agenda asks of the device. Rests on
the model's choices of notes/assumptions 4, 10, 15, 66. -/
def Obligations.StepRunsDecoded : Prop :=
  (∀ (s t : State) (i : Instr), plan s = .issue t → fetchCause t = none → decode (fetchWord t).1 = .ok i →
    step s = after tick (exec i (fetchWord t).2)) ∧
  (∀ (s t : State) (e : Reject), plan s = .issue t → fetchCause t = none → decode (fetchWord t).1 = .error e →
    step s = after tick (exec (.wordNotInstruction (fetchWord t).1) (fetchWord t).2)) ∧
  (∀ (s t : State), plan s = .issue t → fetchCause t ≠ none → step s = after tick (exec .fetchTranslationFault t)) ∧
  (∀ (s t : State) (m : Mode) (i : Instr), plan s = .slice t m → fetchCause t = none → decode (fetchWord t).1 = .ok i →
    step s = after (fun v => lull (sliceDone v m)) (exec i (fetchWord t).2)) ∧
  (∀ (s t : State) (pc : Addr) (m : Mask) (i : Instr), plan s = .redo t pc m → fetchCause (redoStart t pc m) = none →
    decode (fetchWord (redoStart t pc m)).1 = .ok i →
    step s = after (fun v => tick (redoFinish t v pc m)) (exec i (fetchWord (redoStart t pc m)).2)) ∧
  (∀ (s t : State) (i : Instr), plan s = .entry i t → step s = after tick (exec i t)) ∧
  (∀ (t : State) (p : Page), translate t (accOf t.g) .fetch (curPc t).toNat = .ok p → (curPc t).toNat % 256 ≤ 252 →
    p.pa % 4096 = 0 → (fetchWord t).1 = (let b := fun i => homeByte t (physKey t (p.pa + (curPc t).toNat % 4096) + i)
      b 3 ++ b 2 ++ b 1 ++ b 0)) ∧
  (∀ (s : State) (i : Instr) (l : List Act), s.agenda = .event i :: l → encode i = none → fetchEvent i = false →
    step s = after lull (exec i { s with agenda := l, onAp := false })) ∧
  (∀ (s : State) (i : Instr) (l : List Act), s.agenda = .event i :: l → encode i ≠ none ∨ fetchEvent i = true →
    step s = .next (lull { s with agenda := l })) ∧
  (∀ (s : State) (vf ident : Nat) (l : List Act) (x : Bool), s.agenda = .issue vf ident false :: l → s.round = [] → s.others = [] →
    isCtx vf ident s.g = true → mayAct s s.g = true → s.g.ap = none → dueTrap s.g = none → s.g.redo = none →
    slotFor s.g false = some x → plan s = .issue { s with agenda := l, onAp := false, g := { s.g with iss := x } }) ∧
  (∀ (s : State) (vf ident : Nat) (x : Bool) (l : List (Nat × Nat × Bool)), s.agenda = [] → s.round = (vf, ident, x) :: l →
    isCtx vf ident s.g = true → stillActs s (vf, ident, x) = true → s.g.ap = none → dueTrap s.g = none → s.g.redo = none →
    plan s = .issue { s with round := l, onAp := false, g := { s.g with iss := x } }) ∧
  (∀ (s : State) (vf ident : Nat) (x : Bool) (l : List (Nat × Nat × Bool)) (r : Pend × Ctx), s.agenda = [] →
    s.round = (vf, ident, x) :: l → isCtx vf ident s.g = true → stillActs s (vf, ident, x) = true → s.g.ap = none →
    dueTrap s.g = some r → plan s = .entry (.trapEntry vf ident) { s with round := l, onAp := false }) ∧
  ∀ s : State, s.agenda = [] → s.round = [] → (∀ c ∈ allCtx s, mayAct s c = false) → plan s = .idle { s with round := [] }

/-- DecodeWords (R162, R182, R185): words written out from the encoding tables. -/
def Obligations.DecodeWords : Prop :=
  decode 0x004491C0 = .ok (.vmul ⟨.seq, 9, 8, 56, 0⟩) ∧
  decode 0x04449040 = .ok (.vfmul ⟨.seq, 9, 8, 8, 0⟩) ∧
  decode 0x0365120D = .ok (.vshri ⟨.seq, 10, 9, 13⟩) ∧
  decode 0x08846000 = .ok (.vldGlN32 ⟨.seq, 8, 48, 0, 0⟩) ∧
  decode 0x855FFFFD = .ok (.gtgt ⟨.seq, -3⟩) ∧
  decode 0x8DE00042 = .ok (.gtrap ⟨.seq, 0, 0, 0x42⟩) ∧
  decode 0x8FE00000 = .ok (.ghalt ⟨.seq, 0, 0, 0, 0⟩) ∧
  decode 0x09E00000 = .error .unassigned ∧ decode 0x80D86393 = .error .reserved

/-- EncodeDecode (R161, R162, R182, R185): decoding the word of a well-formed instruction gives it back with every operand. -/
def Obligations.EncodeDecode : Prop :=
  ∀ (i : Instr) (w : Word), i.wellFormed = true → encode i = some w → decode w = .ok i

/-- The state after the current path has moved. -/
def Claims.moved (s : State) (pc : Addr) : State :=
  { s with g := setCur s.g { curSlot s.g with pc := pc, wait := .none } }

/-- The path in slot 0 or in slot 1. -/
def Claims.slot (c : Ctx) (b : Bool) : Slot := if b then c.s1 else c.s0

/-- The state with another path in slot 0 or in slot 1. -/
def Claims.withSlot (s : State) (b : Bool) (x : Slot) : State :=
  { s with g := if b then { s.g with s1 := x } else { s.g with s0 := x } }

/-- A slot holds a path at a pc. -/
def Claims.stands (c : Ctx) (b : Bool) (pc : Addr) : Prop := (Claims.slot c b).valid = true ∧ (Claims.slot c b).pc = pc

/-- The two slots hold paths at one pc. -/
def Claims.meet (c : Ctx) : Prop := c.s0.valid = true ∧ Claims.stands c true c.s0.pc

/-- Where a stored path at `pc` goes: to slot 0 or else slot 1 if a path at its pc stands there, else to slot 0 or else slot 1 if that
is empty (R13, R15). -/
def Claims.goesTo (c : Ctx) (pc : Addr) (b : Bool) : Prop :=
  (Claims.stands c b pc ∧ (b = true → ¬Claims.stands c false pc)) ∨
    ((∀ x, ¬Claims.stands c x pc) ∧ (Claims.slot c b).valid = false ∧ (b = true → c.s0.valid = true))

/-- A stored path has gone to slot 0 or 1, and is no longer stored. -/
def Claims.popped (s : State) (b : Bool) (pc : Addr) (m : Mask) : State :=
  let x := Claims.slot s.g b
  let u := Claims.withSlot s b (if x.valid then { x with mask := x.mask ||| m } else ⟨true, pc, m, .none⟩)
  { u with g := { setActiveDs u.g (withDepth (activeDs s.g) (depthOf (activeDs s.g) - 1)) with top := none } }

/-- What comes of a state in which a selector has acted (R13, R15, R18, R19): two paths at one pc merge in slot 0; the top of the
divergence stack, read from memory if it is not held, merges with a path at its pc or goes to an empty slot, and the next one is the
top; where it does neither, or the stack is empty, it is done. A scalar context has one path (R27). -/
inductive Claims.Settles : State → Except Halt State → Prop
  | scalar (s : State) : s.g.who.loc.die = 2 → Claims.Settles s (.ok s)
  | merge (s : State) (r : Except Halt State) : s.g.who.loc.die ≠ 2 → Claims.meet s.g →
      Claims.Settles { s with g := { s.g with s0 := { s.g.s0 with mask := s.g.s0.mask ||| s.g.s1.mask }, s1 := ⟨false, 0, 0, .none⟩ } } r →
      Claims.Settles s r
  | empty (s : State) : s.g.who.loc.die ≠ 2 → ¬Claims.meet s.g → depthOf (activeDs s.g) = 0 →
      Claims.Settles s (.ok { s with g := { s.g with top := none } })
  | lost (s : State) (e : Halt) : s.g.who.loc.die ≠ 2 → ¬Claims.meet s.g → depthOf (activeDs s.g) ≠ 0 → s.g.top = none →
      groupLoad s 0x09 (entryAt (activeDs s.g) (depthOf (activeDs s.g) - 1)) 16 = .error e → Claims.Settles s (.error e)
  | read (s u : State) (x : Nat) (r : Except Halt State) : s.g.who.loc.die ≠ 2 → ¬Claims.meet s.g → depthOf (activeDs s.g) ≠ 0 →
      s.g.top = none → groupLoad s 0x09 (entryAt (activeDs s.g) (depthOf (activeDs s.g) - 1)) 16 = .ok (x, u) →
      Claims.Settles { u with g := { u.g with top := some (BitVec.ofNat 57 (x % 2 ^ 57 / 4 * 4), BitVec.ofNat 32 (x / 2 ^ 64)) } } r →
      Claims.Settles s r
  | pop (s : State) (pc : Addr) (m : Mask) (b : Bool) (r : Except Halt State) : s.g.who.loc.die ≠ 2 → ¬Claims.meet s.g →
      depthOf (activeDs s.g) ≠ 0 → s.g.top = some (pc, m) → Claims.goesTo s.g pc b →
      Claims.Settles (Claims.popped s b pc m) r →
      Claims.Settles s r
  | full (s : State) (pc : Addr) (m : Mask) : s.g.who.loc.die ≠ 2 → ¬Claims.meet s.g → depthOf (activeDs s.g) ≠ 0 →
      s.g.top = some (pc, m) → (∀ b, ¬Claims.goesTo s.g pc b) → Claims.Settles s (.ok s)

/-- A selector brings a group to `u`, and from there to what merges and pops make of it. -/
def Claims.Comes (s : State) (m7 : Mask) (nas : Nas) (u : State) : Prop := ∀ r, Claims.Settles u r → applyNas m7 s nas = r

/-- A path is pushed (R18 to R20): its pc and mask are stored at the top of the divergence stack, which holds at most 255. -/
def Claims.pushed (s : State) (pc : Addr) (m : Mask) : Except Halt State :=
  let d := activeDs s.g
  if depthOf d = 255 then .error (.cause 0x08 0)
  else match groupStore s (active s) 0x09 (entryAt d (depthOf d)) 16 (pc.toNat + m.toNat * 2 ^ 64) with
    | .error e => .error e
    | .ok u => .ok { u with g := { setActiveDs u.g (withDepth d (depthOf d + 1)) with top := some (pc, m) } }

/-- The newest return address is popped (R169): from the hardware stack, which the newest spilled one refills when it is then
empty. -/
def Claims.Popped (s : State) (a : Addr) (e : State) : Prop :=
  let q := seqOf s
  q.calls[q.csn - 1]? = some a ∧ if q.csn = 1 ∧ q.css ≠ 0 then
    ∃ x v, groupLoad s 0x09 (callAreaAt s.g (q.css - 1)) 8 = .ok (x, v) ∧
      e = setSeq v { q with calls := setAt q.calls 0 (BitVec.ofNat 57 (x / 4 * 4)), css := q.css - 1 }
  else e = setSeq s { q with calls := setAt q.calls (q.csn - 1) 0, csn := q.csn - 1 }

/-- What a split comes to, before merges and pops (R12 to R14): the path that issues goes on at `next` with the lanes `fall`, and at
`target` with the lanes `go`. Of three paths at three pcs the one with the highest is pushed. Rests on the model's choice of
notes/assumptions/89 where a path of the split meets the other slot's. -/
def Claims.splits (s j : State) (m7 : Mask) (nas : Nas) (target next : Addr) (go : Mask) : Prop :=
  let fall := (curSlot s.g).mask &&& ~~~go
  let o := otherSlot s.g
  let both := fun (u : State) (x y : Slot) => { u with g := setOther (setCur u.g x) y }
  let push := fun (pc : Addr) (m : Mask) (x y : Slot) => match Claims.pushed j pc m with
    | .error e => applyNas m7 s nas = .error e
    | .ok u => Claims.Comes s m7 nas (both u x y)
  (target = next → Claims.Comes s m7 nas (if o.valid then { j with g := setCur j.g ⟨true, next, fall ||| go, .none⟩ }
    else { j with g := { j.g with s0 := ⟨true, next, fall ||| go, .none⟩, s1 := ⟨false, 0, 0, .none⟩ } })) ∧
  (target ≠ next → o.valid = false → Claims.Comes s m7 nas (both j ⟨true, next, fall, .none⟩ ⟨true, target, go, .none⟩)) ∧
  (target ≠ next → o.valid = true → o.pc = target →
    Claims.Comes s m7 nas (both j ⟨true, next, fall, .none⟩ { o with mask := o.mask ||| go })) ∧
  (target ≠ next → o.valid = true → o.pc = next → Claims.Comes s m7 nas
    { j with g := { j.g with s0 := ⟨true, next, fall ||| o.mask, .none⟩, s1 := ⟨true, target, go, .none⟩ } }) ∧
  (o.valid = true → next.toNat < target.toNat → o.pc.toNat < target.toNat → o.pc ≠ next → push target go ⟨true, next, fall, .none⟩ o) ∧
  (o.valid = true → next.toNat < o.pc.toNat → target.toNat < o.pc.toNat → target ≠ next →
    push o.pc o.mask ⟨true, next, fall, .none⟩ ⟨true, target, go, .none⟩) ∧
  (o.valid = true → target.toNat < next.toNat → o.pc.toNat < next.toNat → o.pc ≠ target → push next fall ⟨true, target, go, .none⟩ o)

/-- SelectorsSequence (R12 to R15, R18 to R20, R35, R168, R169): a selector changes slots, sequencing, divergence and what they hold
in memory, and nothing else. seq goes on; loop goes back while the count lasts and else pops it; jmp, and bt or bf for all lanes, go to
the oldest target; a split goes both ways and pushes the highest of three paths; call and ret push and pop, with spills beyond eight
entries; stop ends the path; without a target the cause is 0x06. Paths at one pc then merge, and the stack refills an empty slot. A
slice has one path. Rests on the model's choices of notes/assumptions 9, 72, 88, 89, 90. -/
def Obligations.SelectorsSequence : Prop :=
  (∀ (m7 : Mask) (s u : State) (nas : Nas), applyNas m7 s nas = .ok u → Sequenced s u) ∧
  (∀ s : State, ∃ r, Claims.Settles s r) ∧
  (∀ (m7 : Mask) (s : State), s.onAp = false → (curSlot s.g).valid = true →
    let q := seqOf s
    let next := curPc s + 4
    let jumped := setSeq s { q with tq := q.tq.drop 1 ++ [0], tqn := q.tqn - 1 }
    let target := q.tq.headD 0
    let comes := Claims.Comes s m7
    comes .seq (Claims.moved s next) ∧
    (∀ start count, 0 < q.lsn → q.loops[q.lsn - 1]? = some (start, count) → count ≠ 0 →
      comes .loop (Claims.moved (setSeq s { q with loops := setAt q.loops (q.lsn - 1) (start, count - 1) }) start)) ∧
    (∀ start, 0 < q.lsn → q.loops[q.lsn - 1]? = some (start, 0) →
      comes .loop (Claims.moved (setSeq s { q with loops := setAt q.loops (q.lsn - 1) (0, 0), lsn := q.lsn - 1 }) next)) ∧
    (q.lsn = 0 → comes .loop (Claims.moved s next)) ∧
    (0 < q.tqn → comes .jmp (Claims.moved jumped target)) ∧
    (q.tqn = 0 → ∀ nas ∈ [Nas.bt, .bf, .jmp, .call], applyNas m7 s nas = .error (.cause 0x06 0)) ∧
    (∀ (nas : Nas) (c : Mask), 0 < q.tqn → (nas = .bt ∧ c = m7) ∨ (nas = .bf ∧ c = ~~~m7) →
      let go : Mask := c &&& active s
      (go = active s → comes nas (Claims.moved jumped target)) ∧
      (go = 0 → active s ≠ 0 → comes nas (Claims.moved jumped next)) ∧
      (go ≠ active s → go ≠ 0 → Claims.splits s jumped m7 nas target next go)) ∧
    (0 < q.tqn → q.css = 512 → applyNas m7 s .call = .error (.cause 0x08 0)) ∧
    (0 < q.tqn → q.csn < 8 → q.css ≠ 512 → comes .call (Claims.moved (setSeq jumped { seqOf jumped with
      calls := setAt q.calls q.csn next, csn := q.csn + 1 }) target)) ∧
    (0 < q.tqn → 8 ≤ q.csn → q.css ≠ 512 →
      match groupStore jumped (active s) 0x09 (callAreaAt s.g q.css) 8 (q.calls.headD 0).toNat with
      | .error e => applyNas m7 s .call = .error e
      | .ok e => comes .call (Claims.moved (setSeq e { seqOf jumped with calls := q.calls.drop 1 ++ [next], css := q.css + 1 }) target)) ∧
    (∀ a e, 0 < q.csn → Claims.Popped s a e → comes .ret (Claims.moved e a)) ∧
    (∀ x v a e, q.csn = 0 → q.css ≠ 0 → groupLoad s 0x09 (callAreaAt s.g (q.css - 1)) 8 = .ok (x, v) →
      Claims.Popped (setSeq v { q with calls := setAt q.calls 0 (BitVec.ofNat 57 (x / 4 * 4)), csn := 1, css := q.css - 1 }) a e →
      comes .ret (Claims.moved e a)) ∧
    (∀ nas, nas = .stop ∨ (nas = .ret ∧ q.csn = 0 ∧ q.css = 0) →
      comes nas { s with g := setCur s.g { curSlot s.g with valid := false, wait := .none } })) ∧
  ∀ (m7 : Mask) (s : State) (a : Ap), s.onAp = true → s.g.ap = some a →
    let q := a.seq
    let goes := fun (pc : Addr) (q : Seq) => { s with g := { s.g with ap := some { a with pc := pc, seq := q } } }
    let jumped := { q with tq := q.tq.drop 1 ++ [0], tqn := q.tqn - 1 }
    let target := q.tq.headD 0
    applyNas m7 s .seq = .ok (goes (a.pc + 4) q) ∧
    (0 < q.tqn → applyNas m7 s .jmp = .ok (goes target jumped)) ∧
    (0 < q.tqn → applyNas m7 s .bt = .ok (goes (if m7.getLsbD 0 then target else a.pc + 4) jumped)) ∧
    (0 < q.tqn → applyNas m7 s .bf = .ok (goes (if m7.getLsbD 0 then a.pc + 4 else target) jumped)) ∧
    (0 < q.tqn → q.css ≠ 512 → applyNas m7 s .call = if q.csn < 8 then
      .ok (goes target { jumped with calls := setAt q.calls q.csn (a.pc + 4), csn := q.csn + 1 }) else .error (.cause 0x08 0)) ∧
    applyNas m7 s .stop = .ok { s with g := { s.g with ap := some { a with run := .ended } } }

/-- CompletionCounts (R24, R25, R33, R115, R170, R250): a form of a group that completes counts in every window, clears the wait
counter, stamps its aclk, and takes the validity of latched weights whose registers it writes; one of an access processor counts in
the windows of its slice and does nothing else of it. Operands without ports are always there and take nothing; a port gives its oldest entry, whose writes the group then
knows, and an empty one nothing. Rests on the model's choices of notes/assumptions 20, 31, 67. -/
def Obligations.CompletionCounts : Prop :=
  (∀ (u : State) (writes : List Nat), u.onAp = false → finished u writes = { u with
    g := { u.g with
      wins := u.g.wins.map fun w => { w with left := w.left - 1 }
      waitCnt := 0, stamp := some u.acnt.toNat }
    arrays := u.arrays.map fun a => { a with
      queue := a.queue.map fun e =>
        if e.vf = u.g.who.vf ∧ e.ident = u.g.who.ident ∧ ∃ w ∈ writes, e.base ≤ w ∧ w < e.base + 16 then { e with clean := false } else e
      latch := a.latch.map fun l =>
        if l.vf = u.g.who.vf ∧ l.ident = u.g.who.ident ∧ ∃ w ∈ writes, l.base ≤ w ∧ w < l.base + 16 then { l with valid := false }
        else l } }) ∧
  (∀ (u : State) (writes : List Nat) (a : Ap), u.onAp = true → u.g.ap = some a → finished u writes = { u with
    g := { u.g with ap := some { a with wins := a.wins.map fun w => { w with left := w.left - 1 } } } }) ∧
  (∀ (srcs : List (Nat × RegCode × Nat)) (s : State), portsOn s = false →
    ∃ os, takeAll srcs s = .ok (os, s) ∧ os.length = srcs.length ∧
      ∀ (n pos w : Nat) (c : RegCode), srcs[n]? = some (pos, c, w) → s.g.wins = [] → s.onAp = false → ∀ i < w, ∀ l,
        src s os n i l = if isV c then vAt s.g (c.toNat + i) l else kAt s.g (c.toNat - 48 + i)) ∧
  ∀ (s : State) (a : Ap) (pos q : Nat) (c : RegCode), portsOn s = true → s.g.ap = some a → c.toNat = 60 + q →
    (∀ e l, a.aq.getD q [] = e :: l → takeAll [(pos, c, 1)] s = .ok ([.k [e.val]], { s with g := { s.g with
      ap := some { a with aq := setAt a.aq q l }
      ord := { learn s.g.ord e.ids (curSlot s.g).mask with
        seen := s.g.ord.seen ++ e.seen.map fun x => { x with lanes := (curSlot s.g).mask } } } })) ∧
    (a.aq.getD q [] = [] → ∃ e, takeAll [(pos, c, 1)] s = .error e)

/-! ## Traps and system instructions -/

/-- The pc at which the handlers of a mode begin: TVEC, HTVEC or MTVEC (R147). -/
def Claims.vectorOf (s : State) (m : Mode) : Addr :=
  let x := if m = .hyp then devReg s 0x101 else if m = .mch then devReg s 0x1CF else vfReg s s.g.who.vf 0x04C
  BitVec.ofNat 57 (x.toNat % 2 ^ 57 / 4 * 4)

/-- What TEPC0 or TEPC1 saves of a slot: its pc and whether it is live (R147). -/
def Claims.saved (x : Slot) : DWord := if x.valid then BitVec.ofNat 64 (2 ^ 63 + x.pc.toNat) else 0

/-- A trap taken some time after the instruction that raised it was issued, by a path in slot `was` with the lanes `own`: the slot that
now holds some of them is the raising one, with its mask; where none does, the path keeps its slot's number and the mask `path` that it
had (R147, R148, R152). -/
def Claims.raised (u : State) (r : Raise) (was : Bool) (own path : Mask) : State :=
  let slot := fun b : Bool => if b then u.g.s1 else u.g.s0
  let holds := fun b : Bool => (slot b).valid && (slot b).mask &&& own != 0
  let b := if holds was then was else if holds (!was) then !was else was
  takeTrap { u with g := { u.g with iss := b } } r (if holds b then (slot b).mask else path)

/-- The issue goes back to the context that had it in `s`. -/
def Claims.back (s u : State) : State :=
  (bring { u with onAp := s.onAp } s.g.who.vf s.g.who.ident).getD { u with onAp := s.onAp }

/-- The phase that a slot which waits in a gbar after its arrival leaves in PIDX when its group is stopped (R295). -/
def Claims.phaseOf (x : Slot) : Option Word :=
  match x.wait with
  | .barrier _ _ phase => some (if phase then 2 else 1)
  | _ => none

/-- TrapEntry (R35, R147, R148, R152, R153, R156, R295, R399): a cause saves both slots, its code, fate, origin, slot, mode, lanes and
address, goes to the handler's mode with HMODE set, and starts slot 0 at that mode's vector with the mask of the raising path and empty
sequencing; waits are withdrawn, a gbar's phase kept in PIDX, windows closed, and their lanes that complete with 0x30 become pending
replays; delivery clears the mark of an unresolvable entry, BBOV, and the fault of an access processor; all else stands. In handler mode
it ends the context with 0xE2. Rests on the model's choices of notes/assumptions 18, 53. -/
def Obligations.TrapEntry : Prop :=
  (∀ (s : State) (r : Raise) (m : Mask), hmode s.g = false → r.orig < 4 → r.cause < 256 →
    let mode : Mode := if s.g.mode = .mch then .mch else if s.g.mode = .hyp ∨ (0xC0 ≤ r.cause ∧ r.cause ≤ 0xDF) then .hyp else .sup
    let phase := (Claims.phaseOf s.g.s0).or (Claims.phaseOf s.g.s1)
    takeTrap s r m = { s with
      wk := { s.wk with waiters := s.wk.waiters.filter fun w => ¬(w.vf = s.g.who.vf ∧ w.ident = s.g.who.ident) }
      g := { s.g with
        wins := []
        replays := s.g.replays ++ (s.g.wins.filter (·.gone ≠ 0)).map fun w => ⟨0x30, 1, w.pc, w.gone, w.goneAddr⟩
        unres := if r.cause = 0x26 ∧ r.orig = 3 then false else s.g.unres
        flags := if r.cause = 0x62 ∧ r.fate = .f then s.g.flags &&& ~~~(0x20 : Word) else s.g.flags
        ap := if r.orig = 1 then s.g.ap.map fun a => { a with run := match a.run with
            | .faulted c addr _ => .faulted c addr true
            | x => x }
          else s.g.ap
        pidx := if s.g.cmdFault = none then phase.getD s.g.pidx else s.g.pidx
        cmdFault := s.g.cmdFault.map fun x => (phase.getD x.1, x.2)
        trap := { s.g.trap with
          tcause := BitVec.ofNat 32 (r.cause + 2 ^ 8 * r.orig + (if r.fate = .a then 2 ^ 10 else 0) + (if s.g.iss then 2 ^ 11 else 0) +
            2 ^ 12 * (if s.g.mode = .usr then 0 else if s.g.mode = .sup then 1 else if s.g.mode = .hyp then 2 else 3) + 2 ^ 14 +
            (if r.fate = .c then 2 ^ 15 else 0) + 2 ^ 16 * (lanesOf r.lanes).headD 0)
          tepc0 := Claims.saved s.g.s0
          tepc1 := Claims.saved s.g.s1
          tmsk0 := if s.g.s0.valid then s.g.s0.mask else if s.g.s1.valid then 0 else m
          tmsk1 := if s.g.s1.valid then s.g.s1.mask else 0
          taddr := r.addr
          tlanes := r.lanes
          trpc := if r.fate = .c then r.pc.setWidth 64 else 0 }
        mode := mode, s0 := ⟨true, Claims.vectorOf s mode, m, .none⟩, s1 := ⟨false, 0, 0, .none⟩, iss := false
        hseq := ⟨List.replicate 4 0, 0, List.replicate 4 (0, 0), 0, List.replicate 8 0, 0, 0⟩, top := none } }) ∧
  ∀ (s : State) (r : Raise) (m : Mask), hmode s.g = true →
    (takeTrap s r m).g.endCause = some 0xE2 ∧ (takeTrap s r m).g.s0.valid = false ∧ (takeTrap s r m).g.s1.valid = false ∧
      depthOf (takeTrap s r m).g.dsp = 0 ∧ depthOf (takeTrap s r m).g.dsh = 0 ∧ (takeTrap s r m).others = s.others

/-- TrapForms (R151, R155, R159, R188, R312, R313, R399): gtrap, gecall and ghcall complete and are delivered with fate A and
their immediate in TADDR; a word that is no instruction raises 0x01 or 0x02, and a failed fetch its cause; a form in too low a
mode raises 0x0C; a trap decided before takes place when the context acts next; a result that returns closes its window, and
lanes without a result raise 0x30 with fate C. Rests on the model's choices of notes/assumptions 17, 18, 63, 66. -/
def Obligations.TrapForms : Prop :=
  (∀ (f : FmtI) (s t u : State), t = closed s [] → Clear s f.nas ⟨noAp s ++ if f.imm.toNat < 256 then [] else [0x02], [], []⟩ →
    applyNas (selectorMask t) t f.nas = .ok u → exec (.gtrap f) s = .next (Claims.raised (finished u [])
      ⟨if deliverable f.imm.toNat then f.imm.toNat else 0x0F, .a, 0, active t, f.imm.setWidth 64, 0⟩ t.g.iss (active t) (active t))) ∧
  (∀ (f : FmtI) (s t u : State), t = closed s [] → Clear s f.nas ⟨noAp s, [], []⟩ → applyNas (selectorMask t) t f.nas = .ok u →
    exec (.gecall f) s = .next (Claims.raised (finished u []) ⟨0x10, .a, 0, active t, f.imm.setWidth 64, 0⟩ t.g.iss (active t) (active t)) ∧
    (s.g.mode ≠ .usr →
      exec (.ghcall f) s = .next (Claims.raised (finished u []) ⟨0xC0, .a, 0, active t, f.imm.setWidth 64, 0⟩ t.g.iss (active t) (active t)))) ∧
  (∀ (s : State) (i : Instr), s.g.live = true → s.onAp = false →
    (∃ f, i = .ghcall f ∧ s.g.mode = .usr) ∨ (∃ f, i = .ghalt f ∧ s.g.mode ≠ .mch) ∨ (∃ f, i = .gtret f ∧ hmode s.g = false) ∨
      (∃ f, i = .gtinv f ∧ s.g.mode = .usr ∧ kBad f.a 2 ++ kBad f.b 1 = []) ∨
      (∃ f, i = .gtsync f ∧ s.g.mode = .usr ∧ kBad f.d 1 = []) ∨
      (∃ f, i = .gctxsv f ∧ s.g.mode = .usr ∧ kBad f.d 1 ++ kBad f.a 2 = []) ∨
      (∃ f, i = .gctxsvTarget f ∧ s.g.mode = .usr ∧ kBad f.d 1 ++ kBad f.a 2 = []) ∨
      (∃ f, i = .gctxld f ∧ s.g.mode = .usr ∧ f.c = 0 ∧ kBad f.d 1 ++ kBad f.a 2 = []) →
    exec i s = .next (takeTrap s ⟨0x0C, .p, 0, active s, 0, 0⟩ (active s))) ∧
  (∀ (s : State) (w : Word), s.g.live = true → s.onAp = false → exec (.wordNotInstruction w) s = .next (takeTrap s
    ⟨if (w.getLsbD 31 = true ∧ w.extractLsb' 21 7 = 0x2F) ∨ (w.getLsbD 31 = false ∧ (w.extractLsb' 21 7 = 0x4F ∨ w.extractLsb' 21 7 = 0x7F))
      then 0x01 else 0x02, .p, 0, active s, 0, 0⟩ (active s))) ∧
  (∀ (s : State) (c : Nat) (addr : DWord), s.g.live = true → s.onAp = false → fetchCause s = some (c, addr) →
    exec .fetchTranslationFault s = .next (takeTrap s ⟨c, .p, 0, active s, addr, 0⟩ (active s))) ∧
  (∀ (s b : State) (vf ident : Nat) (p : Pend) (d : Ctx), bring s vf ident = some b → dueTrap b.g = some (p, d) →
    let e : State := { b with onAp := false, g := d }
    exec (.trapEntry vf ident) s = .next (Claims.back s (Claims.raised e (pendRaise e p) false p.lanes p.lanes))) ∧
  (∀ (s b : State) (vf ident win : Nat) (a : Ap), bring s vf ident = some b → b.g.ap = some a → b.g.wins.length ≤ win →
    let i := win - b.g.wins.length
    i < a.wins.length → exec (.resultReturn vf ident win) s = .next (Claims.back s { b with onAp := false, g := { b.g with
      ap := some { a with wins := a.wins.take i ++ a.wins.drop (i + 1) } } })) ∧
  ∀ (s b : State) (vf ident win : Nat) (w : Window), bring s vf ident = some b → b.g.wins[win]? = some w →
    let e : State := { b with onAp := false, g := { b.g with wins := b.g.wins.take win ++ b.g.wins.drop (win + 1) } }
    (w.gone = 0 → exec (.resultReturn vf ident win) s = .next (Claims.back s e)) ∧
    (w.gone ≠ 0 → exec (.resultReturn vf ident win) s = .next (Claims.back s
      (Claims.raised e ⟨0x30, .c, 0, w.gone, w.goneAddr, w.pc⟩ w.slot w.gone w.path)))

/-- TrapReturns (R35, R150, R152, R153, R314): gtret of a handler's last path lets go on what its cause had stopped, restores
both slots (of a scalar context slot 0) and the mode, clears HMODE, and with REPLAY set leaves one access to issue again; of another path it
ends that path.
gtfence waits for the matrix engine, the side log and the engines, then delivers the first of the causes that are held back, or
completes with every window closed. Rests on the model's choices of notes/assumptions 30, 64. -/
def Obligations.TrapReturns : Prop :=
  (∀ (f : FmtR) (s t u : State), t = closed s [] → hmode s.g = true → Clear s f.nas ⟨noAp s, [], []⟩ →
    ((otherSlot t.g).valid = true ∨ depthOf t.g.dsh ≠ 0) → settled (endPath t) = .ok u →
    exec (.gtret f) s = .next (issued u)) ∧
  (∀ (f : FmtR) (s t u : State), t = closed s [] → hmode s.g = true → Clear s f.nas ⟨noAp s, [], []⟩ →
    (otherSlot t.g).valid = false → depthOf t.g.dsh = 0 → (∀ w ∈ t.g.wins, w.gone = 0) →
    let x := t.g.trap
    let orig := x.tcause.toNat / 2 ^ 8 % 4
    let slot (pc : DWord) (m : Mask) : Slot := if pc.getLsbD 63 then ⟨true, pc.setWidth 57, m, .none⟩ else ⟨false, 0, 0, .none⟩
    let pm := x.tcause.toNat / 2 ^ 12 % 4
    settled { t with
      g := { t.g with
        wins := [], s0 := slot x.tepc0 x.tmsk0, s1 := if t.g.who.loc.die = 2 then ⟨false, 0, 0, .none⟩ else slot x.tepc1 x.tmsk1
        mode := if pm = 0 then .usr else if pm = 1 then .sup else if pm = 2 then .hyp else .mch
        trap := { x with tcause := x.tcause &&& ~~~(0x4000 : Word) }
        iss := !x.tepc0.getLsbD 63 && decide (t.g.who.loc.die ≠ 2), hseq := emptySeq, top := none
        redo := if x.tcause.getLsbD 15 then some (x.trpc.setWidth 57, x.tlanes) else none
        pidx := match t.g.cmdFault with | some (p, _) => p | none => t.g.pidx
        cmdFault := none
        ap := if orig = 1 then t.g.ap.map fun a => { a with run := match a.run with | .faulted _ _ true => .running | r => r }
          else t.g.ap }
      en := if orig = 2 then match t.g.cmdFault with
          | some (_, n) => { t.en with cmds := t.en.cmds.map fun c => if c.num = n then { c with halted := false } else c }
          | none => t.en
        else t.en } = .ok u →
    exec (.gtret f) s = .next (issued u)) ∧
  ∀ (f : FmtR) (s t u : State), t = closed s [] → Clear s f.nas ⟨noAp s, [], []⟩ → (∀ w ∈ t.g.wins, w.gone = 0) →
    let busy := matrixBusy t t.g none = true ∨ ownLog t ≠ [] ∨
      ∃ c ∈ t.en.cmds, c.uid = t.g.who.uid ∧ c.fault = none ∧ c.halted = false ∧ c.todo ≠ []
    let held := apFault t.g ≠ none ∨ ∃ c ∈ t.en.cmds, c.uid = t.g.who.uid ∧ c.fault ≠ none
    let trapped (cause orig : Nat) : Prop :=
      exec (.gtfence f) s = .next (takeTrap t ⟨cause, .f, orig, active t, 0, 0⟩ (active t))
    (busy → exec (.gtfence f) s = .next (setWait t .held)) ∧
    (¬busy → applyNas (selectorMask t) t f.nas = .ok u → (t.g.unres = true → trapped 0x26 3) ∧
      (∀ c addr, t.g.unres = false → apFault t.g = some (c, addr) →
        exec (.gtfence f) s = .next (takeTrap t ⟨c, .f, 1, active t, addr, 0⟩ (active t))) ∧
      (∀ c cause addr, t.g.unres = false → apFault t.g = none → faultedCmd t none = some c → c.fault = some (cause, addr) →
        exec (.gtfence f) s = .next (takeTrap { t with
          g := { t.g with cmdFault := some (t.g.pidx, c.num), pidx := BitVec.ofNat 32 (c.todo.headD c.accepted) }
          en := { t.en with cmds := t.en.cmds.map fun x => if x.num = c.num then { x with halted := true, fault := none } else x } }
          ⟨cause, .f, 2, active t, BitVec.ofNat 64 addr, 0⟩ (active t))) ∧
      (t.g.unres = false → ¬held → t.g.flags.getLsbD 5 = true → trapped 0x62 0) ∧
      (t.g.unres = false → ¬held → t.g.flags.getLsbD 5 = false → ∀ i < 5, (t.g.flags &&& t.g.flmask).getLsbD i = true →
        (∀ j < i, (t.g.flags &&& t.g.flmask).getLsbD j = false) → trapped (0x80 + i) 0)) ∧
    (¬busy → t.g.unres = false → ¬held → t.g.flags.getLsbD 5 = false → (∀ i < 5, (t.g.flags &&& t.g.flmask).getLsbD i = false) →
      let u : State := { t with g := { t.g with wins := [] } }
      ∃ e : State, e = { u with ms := { u.ms with hist := e.ms.hist } } ∧ Claims.Ends (.gtfence f) f.nas [] s e ∧
        ∀ w ∈ e.ms.hist, w.strong ≠ none → knows u.g.ord 0xFFFFFFFF w.ev = true →
          w.arrived ≠ none ∨ unreadable u w = true ∨ early u w = true)

/-- The aclk of a die since its reset, as its ACNT counts them: on the scalar die the hub's own (R317). -/
def Claims.clock (s : State) (die : Nat) : DWord := if die = 2 then s.acnt else s.acnt - BitVec.ofNat 64 (storeGet 0 s.mg.clocks die)

/-- SystemRegisters (R173, R315, R348): a read gives what the register holds, by its width; a write changes its writable bits
after the selector has acted; gsrx gives the old value and sets or clears bits; an access that the mode may not make raises its
cause; a write that no instruction makes is that of the device. Rests on the model's choices of notes/assumptions 19, 38, 47. -/
def Obligations.SystemRegisters : Prop :=
  let words (n : Nat) (x : DWord) (i : Nat) : Word := if i = 0 then x.setWidth 32 else if regWide n then x.extractLsb' 32 32 else 0
  let operand (n : Nat) (t : State) (os : List Opnd) : DWord :=
    if regWide n then pair (src t os 0 1 0) (src t os 0 0 0) else (src t os 0 0 0).setWidth 64
  (∀ (f : FmtI) (s t : State), let n := f.imm.toNat; let w := if regWide n then 2 else 1
    t = closed s (codes f.d w) → Clear s f.nas ⟨noAp s ++ alignBad f.d w, [], codes f.d w⟩ → regCause s.g.mode n false = none →
    ∃ regs, UniformWritten t.g t.g.regs regs f.d w (words n (readSys t n)) ∧
      Claims.Ends (.gsrr f) f.nas (codes f.d w) s { t with g := { t.g with regs := regs } }) ∧
  (∀ (f : FmtI) (s t s' u : State) (os : List Opnd), let n := f.imm.toNat; let w := if regWide n then 2 else 1
    t = closed s [] → Clear s f.nas ⟨noAp s ++ kBad f.a w, codes f.a w, []⟩ → regCause s.g.mode n true = none →
    takeAll [(1, f.a, w)] t = .ok (os, s') → applyNas (selectorMask t) s' f.nas = .ok u →
    exec (.gsrw f) s = .next (issued (writeSys u n (operand n t os)))) ∧
  (∀ p ∈ [((Instr.gsrxSet : FmtI → Instr), fun old x : DWord => old ||| x), (.gsrxClr, fun old x => old &&& ~~~x)],
    ∀ (f : FmtI) (s t s' u : State) (os : List Opnd), let n := f.imm.toNat; let w := if regWide n then 2 else 1
    t = closed s (codes f.d w) → Clear s f.nas ⟨noAp s ++ kBad f.d w ++ kBad f.a w, codes f.a w, codes f.d w⟩ →
    regCause s.g.mode n true = none → regCause s.g.mode n false = none →
    takeAll [(1, f.a, w)] t = .ok (os, s') → applyNas (selectorMask t) s' f.nas = .ok u →
    let v := writeSys u n (p.2 (readSys t n) (operand n t os))
    v.onAp = false → ∃ regs, UniformWritten v.g v.g.regs regs f.d w (words n (readSys t n)) ∧
      exec (p.1 f) s = .next (issued { v with g := { v.g with regs := regs } })) ∧
  (∀ (f : FmtI) (s : State) (c : Nat), s.g.live = true → s.onAp = false → c ≠ 0xC2 →
    (regCause s.g.mode f.imm.toNat false = some c → alignBad f.d (if regWide f.imm.toNat then 2 else 1) = [] →
      exec (.gsrr f) s = .next (takeTrap s ⟨c, .p, 0, active s, 0, 0⟩ (active s))) ∧
    (regCause s.g.mode f.imm.toNat true = some c → kBad f.a (if regWide f.imm.toNat then 2 else 1) = [] →
      exec (.gsrw f) s = .next (takeTrap s ⟨c, .p, 0, active s, 0, 0⟩ (active s)))) ∧
  (∀ s : State, readSys s 0x000 = s.g.flags.setWidth 64 ∧ readSys s 0x002 = s.g.pidx.setWidth 64 ∧ readSys s 0x008 = s.g.dsp ∧
    readSys s 0x040 = s.g.trap.tcause.setWidth 64 ∧ readSys s 0x041 = s.g.trap.tepc0 ∧ readSys s 0x045 = s.g.trap.taddr ∧
    readSys s 0x060 = s.tnow ∧ readSys s 0x061 = Claims.clock s s.g.who.loc.die ∧
    (s.g.mode = .usr ∨ s.g.mode = .sup → readSys s 0x003 = vfReg s s.g.who.vf 0x003 ∧ readSys s 0x04C = vfReg s s.g.who.vf 0x04C) ∧
    readSys s 0x101 = devReg s 0x101 ∧ readSys s 0x0F0 = devReg s 0x0F0) ∧
  (∀ (s : State) (x : DWord),
    writeSys s 0x000 x = { s with g := { s.g with flags := x.setWidth 32 &&& 0x7F } } ∧
    writeSys s 0x001 x = { s with g := { s.g with flmask := x.setWidth 32 &&& 0x1F } } ∧
    writeSys s 0x002 x = { s with g := { s.g with pidx := x.setWidth 32 } } ∧
    writeSys s 0x008 x = { s with g := { s.g with dsp := x &&& 0x1FFFFFFFFFFFFF0, top := none } } ∧
    writeSys s 0x040 x = { s with g := { s.g with trap := { s.g.trap with
      tcause := (x.setWidth 32 &&& 0x1FBFFF) ||| (s.g.trap.tcause &&& 0x4000) } } } ∧
    writeSys s 0x043 x = { s with g := { s.g with trap := { s.g.trap with tmsk0 := x.setWidth 32 } } } ∧
    (s.g.mode = .usr ∨ s.g.mode = .sup → writeSys s 0x003 x = setVfReg s s.g.who.vf 0x003 (x &&& 0xFFFF) ∧
      writeSys s 0x04C x = setVfReg s s.g.who.vf 0x04C (x &&& 0x1FFFFFFFFFFFFFC)) ∧
    writeSys s 0x101 x = setDevReg s 0x101 (x &&& 0x1FFFFFFFFFFFFFC)) ∧
  (∀ (s : State) (n : Nat) (x : DWord), n < 0x100 → isVfReg n = false → exec (.registerWrite n x) s = .next s) ∧
  ∀ (s : State) (x : DWord), let vf := (devReg s 0x102).toNat % 16
    exec (.registerWrite 0x04C x) s = .next (setVfReg s vf 0x04C (x &&& 0x1FFFFFFFFFFFFFC)) ∧
    exec (.registerWrite 0x1CF x) s = .next (setDevReg s 0x1CF (x &&& 0x1FFFFFFFFFFFFFC))

/-- TimeForms (R109, R317 to R320): gtime gives TNOW or its die's ACNT; gsleep and gwaitt hold the group until their time, gwaitt giving 1
at once if it has passed; gtinv takes an invalidation on after a release at domain scope; gtsync waits until the group's own are
done and tells whether an agent was unreachable; an invalidation that ends drops the translations that it covers. Rests on the
model's choices of notes/assumptions 14, 62, 73. -/
def Obligations.TimeForms : Prop :=
  (∀ (f : FmtI) (s t : State), t = closed s (codes f.d 2) → f.imm.toNat ≤ 1 → Clear s f.nas ⟨alignBad f.d 2, [], codes f.d 2⟩ →
    Claims.Room t f.d 2 → ∃ e, Claims.Delivered t e f.d ((List.range 2).map fun i =>
        (if f.imm = 0 then t.tnow else Claims.clock t t.g.who.loc.die).extractLsb' (32 * i) 32) ∧
      Claims.Ends (.gtime f) f.nas (codes f.d 2) s e) ∧
  (∀ (f : FmtI) (s t s' : State) (os : List Opnd), t = closed s [] → Clear s f.nas ⟨noAp s ++ kBad f.a 1, codes f.a 1, []⟩ →
    takeAll [(1, f.a, 1)] t = .ok (os, s') →
    exec (.gsleep f) s = .next (setWait t (.sleep f (t.acnt.toNat + (src t os 0 0 0).toNat + f.imm.toNat)))) ∧
  (∀ (vf ident until_ : Nat) (other : Bool) (f : FmtI) (s t s' : State) (os : List Opnd),
    Claims.Waiting s t vf ident other (.sleep f until_) f.nas ⟨[], codes f.a 1, []⟩ → until_ ≤ t.acnt.toNat →
    takeAll [(1, f.a, 1)] t = .ok (os, s') → Claims.Resumed (.sleepEnd vf ident other) f.nas [] s s') ∧
  (∀ (f : FmtR) (s t s' : State) (os : List Opnd), let d := (pair (src t os 0 1 0) (src t os 0 0 0)).toNat
    t = closed s (codes f.d 1) → Clear s f.nas ⟨noAp s ++ kBad f.d 1 ++ kBad f.a 2, codes f.a 2, codes f.d 1⟩ →
    takeAll [(1, f.a, 2)] t = .ok (os, s') → d % 2 ^ 30 ≤ 999999999 →
    (d ≤ t.tnow.toNat → Claims.Writes (.gwaitt f) f.nas f.d s s' 1) ∧
    (t.tnow.toNat < d → exec (.gwaitt f) s = .next (setWait t (.deadline f d)))) ∧
  (∀ (vf ident d : Nat) (other : Bool) (f : FmtR) (s t s' : State) (os : List Opnd),
    Claims.Waiting s t vf ident other (.deadline f d) f.nas ⟨[], codes f.a 2, codes f.d 1⟩ → d ≤ t.tnow.toNat →
    takeAll [(1, f.a, 2)] t = .ok (os, s') →
    ∃ regs, UniformWritten s'.g s'.g.regs regs f.d 1 (fun _ => 0) ∧
      Claims.Resumed (.deadlineReached vf ident other) f.nas (codes f.d 1) s { s' with g := { s'.g with regs := regs } }) ∧
  (∀ (f : FmtR) (s t s' : State) (os : List Opnd), let va := (pair (src t os 0 1 0) (src t os 0 0 0)).toNat
    let x := (src t os 1 0 0).toNat
    let sz := x / 4 % 4
    let i : Inval := ⟨s'.fresh + 1, t.g.who.uid, x % 4, x / 2 ^ 4 % 2 ^ 12, va,
      if sz = 0 then 12 else if sz = 1 then 16 else if sz = 2 then 21 else 30, if t.g.mode = .sup then t.g.who.vf else x / 2 ^ 16⟩
    t = closed s [] → s.g.mode ≠ .usr → Clear s f.nas ⟨noAp s ++ kBad f.a 2 ++ kBad f.b 1, codes f.a 2 ++ codes f.b 1, []⟩ →
    takeAll [(1, f.a, 2), (2, f.b, 1)] t = .ok (os, s') → x < 2 ^ 20 → (x % 4 = 0 → va < 2 ^ 57) →
    (∀ w ∈ winsOf t, w.gone &&& active t = 0) → t.g.unres = false → headAwaits t i = true ∨ ownLog t = [] →
    ∃ e : State, e = { s' with
        ms := { s'.ms with hist := e.ms.hist }, fresh := s'.fresh + 1
        g := { s'.g with ord := e.g.ord, wins := s'.g.wins.map (Claims.land (allLanes s'.g)) }
        en := { s'.en with invals := s'.en.invals ++ [i] } } ∧
      (∀ w ∈ e.ms.hist, knows e.g.ord (allLanes s'.g) w.ev = true → w.arrived ≠ none ∨ unreadable e w = true ∨ early e w = true) ∧
      (∃ r ∈ e.g.ord.relFences, r.scope = 6 ∧ r.lanes = active t ∧ ∀ ev, ev ∈ r.ids ↔ ev ∈ knownIds e.g.ord (active t)) ∧
      Claims.Ends (.gtinv f) f.nas [] s e) ∧
  (∀ (f : FmtR) (s t : State), let me := t.g.who.uid
    t = closed s (codes f.d 1) → s.g.mode ≠ .usr → Clear s f.nas ⟨noAp s ++ kBad f.d 1, [], codes f.d 1⟩ →
    ((∀ i ∈ t.en.invals, i.uid ≠ me) → Claims.Writes (.gtsync f) f.nas f.d s
      { t with en := { t.en with cut := t.en.cut.filter (· ≠ me) } } (if me ∈ t.en.cut then 1 else 0)) ∧
    ((∃ i ∈ t.en.invals, i.uid = me) → exec (.gtsync f) s = .next (setWait t .held))) ∧
  (∀ (i : Inval) (s : State) (vf : Nat) (ident : Option Nat) (root va : Nat) (shared : Bool),
    let made := root = rootOf s ⟨i.tvf, i.ctx, .usr, 0⟩ ∨ ident = some i.ctx
    i.covers s vf ident root va shared = true ↔ vf = i.tvf ∧ ((i.kind = 0 ∧ made ∧ va / 2 ^ i.size = i.va / 2 ^ i.size) ∨
      (i.kind = 1 ∧ made) ∨ (i.kind = 2 ∧ shared = false) ∨ 3 ≤ i.kind)) ∧
  ∀ (s : State) (n : Nat) (cut : Bool) (i : Inval), s.en.invals.find? (fun x => x.num = n) = some i →
    let hit (e : TlbEntry) : Prop := i.covers s e.vf e.ident e.root (e.vpn * 4096) (e.pte.getLsbD 4) = true
    let pieces (e : TlbEntry) := framePieces s (leafPa s (e.vpn * 4096) e.level e.pte.toNat / 4096) 1
    ∃ u : State, exec (.invalidationComplete n cut) s = .next u ∧
      (s.ms.dirty = [] → u = { s with
        ms := { s.ms with tlb := u.ms.tlb, hist := u.ms.hist, log := u.ms.log }
        en := { s.en with saved := u.en.saved, invals := u.en.invals, cut := u.en.cut } } ∧
        ∀ e ∈ s.ms.tlb, hit e → ∀ w ∈ u.ms.hist, (∃ p ∈ pieces e, p ≤ w.key ∧ w.key < p + 256) →
          w.arrived ≠ none ∨ unreadable s w = true ∨ early s w = true) ∧
      (∀ e ∈ u.ms.log, e.waits = true → i.covers s e.vf (some e.ident) (rootOf s e.acc) e.va false = false) ∧
      u.ms.log.map (fun e => { e with waits := false }) = s.ms.log.map (fun e => { e with waits := false }) ∧
      (∀ e, e ∈ u.ms.tlb ↔ e ∈ s.ms.tlb ∧ ¬hit e) ∧ u.en.invals = s.en.invals.filter (fun x => x.num ≠ n) ∧
      u.en.cut = if cut = true ∧ i.uid ∉ s.en.cut then s.en.cut ++ [i.uid] else s.en.cut

/-- A save has come to a progress point (R153, R321): the saving group goes on from there at its next issue, with the saved one at rest. -/
def Claims.atPoint (u : State) (p target : Nat) : State :=
  { u with
    g := { u.g with pidx := BitVec.ofNat 32 p, waitCnt := 0, stamp := some u.acnt.toNat }
    en := { u.en with resting := u.en.resting.filter (· ≠ (target, u.g.who.uid)) ++ [(target, u.g.who.uid)] } }

/-- ContextForms (R16, R88, R153, R157, R158, R321 to R324): gctxsv saves its own group, from one progress point to the next at each issue,
as of its next instruction, and frees the context; gctxsv.target so saves another of the VF, which stays at rest meanwhile, or gives 1 if
there is none; a piece of a save writes the bytes of the area between its points and no others, and the end remembers what the area does
not hold. gctxld restores an area into a free context of the core and gives its identifier, or gives 1; ghalt stops the core, with memory
as it was. Rests on the model's choices of notes/assumptions 36, 53, 65, 96. -/
def Obligations.ContextForms : Prop :=
  (∀ (f : FmtE) (s t s' v : State) (os : List Opnd) (keys : List Nat), let va := (pair (src t os 0 1 0) (src t os 0 0 0)).toNat
    t = closed s [] → s.g.mode ≠ .usr → Clear s f.nas ⟨noAp s ++ kBad f.d 1 ++ kBad f.a 2, codes f.a 2, []⟩ →
    takeAll [(1, f.a, 2)] t = .ok (os, s') → hmode t.g = false → t.g.iss = false → t.g.s1.valid = false →
    depthOf t.g.dsp = 0 → f.nas = .seq → t.g.pidx.toNat ≤ 44 → va % 64 = 0 →
    vaKeys s' (accOf s'.g) .store va (0x3000 + 4096 * t.g.mx.held) = .ok (keys, v) →
    let p := t.g.pidx.toNat
    let rest := fun x => bringToRest (uniteActive x) false t.g.who.vf t.g.who.ident
    let c := { (issued (setPc (rest v) (curPc t + 4))).g with pidx := 0 }
    let last := 0x3000 + 4096 * c.mx.held ≤ 1024 * (p + 1)
    let part := fun u => putArea u c (fun i => keys.getD i 0) (1024 * p) (1024 * (p + 1))
    (last → exec (.gctxsv f) s = .next (issued (leaveSaved (noteSaved (part (rest v)) c (keys.headD 0)) c))) ∧
    (¬last → exec (.gctxsv f) s = .next (Claims.atPoint (part (rest { v with g := t.g })) (p + 1) t.g.who.uid))) ∧
  (∀ (f : FmtE) (s t s' : State) (os : List Opnd), let va := (pair (src t os 1 1 0) (src t os 1 0 0)).toNat
    let ident := (src t os 0 0 0).toNat % 2 ^ 12
    t = closed s (codes f.d 1) → s.g.mode ≠ .usr →
    Clear s f.nas ⟨noAp s ++ kBad f.d 1 ++ kBad f.a 2, codes f.d 1 ++ codes f.a 2, codes f.d 1⟩ →
    takeAll [(0, f.d, 1), (1, f.a, 2)] t = .ok (os, s') → t.g.pidx.toNat ≤ 44 → va % 64 = 0 →
    (ctxOf t t.g.who.vf ident = none →
      Claims.Uniform (.gctxsvTarget f) f.nas f.d f.la s t { s' with g := { s'.g with pidx := 0 } } [1]) ∧
    ∀ c v keys, ctxOf t t.g.who.vf ident = some c → ident ≠ t.g.who.ident → c.who.origin ≠ .gang →
      vaKeys s' (accOf s'.g) .store va (0x3000 + 4096 * c.mx.held) = .ok (keys, v) →
      let saving := ∃ x ∈ t.en.resting, x.1 = c.who.uid ∧ x.2 ≠ t.g.who.uid
      (saving → exec (.gctxsvTarget f) s = .next (setWait t .held)) ∧
      (¬saving → let r := bringToRest (uniteActive v) false t.g.who.vf ident
        let p := t.g.pidx.toNat
        ∀ d, ctxOf r t.g.who.vf ident = some d →
          let e := putArea r d (fun i => keys.getD i 0) (1024 * p) (1024 * (p + 1))
          (0x3000 + 4096 * d.mx.held ≤ 1024 * (p + 1) → let u := leaveSaved (noteSaved e d (keys.headD 0)) d
            Claims.Uniform (.gctxsvTarget f) f.nas f.d f.la s t { u with g := { u.g with pidx := 0 } } [0]) ∧
          (1024 * (p + 1) < 0x3000 + 4096 * d.mx.held →
            exec (.gctxsvTarget f) s = .next (Claims.atPoint { e with g := t.g } (p + 1) d.who.uid)))) ∧
  (∀ (t : State) (c : Ctx) (vf ident lo hi : Nat) (keys : List Nat), ctxOf t vf ident = some c →
    c.who.vf = vf → c.who.ident = ident → c.who.gang = none → lo % 64 = 0 → hi % 64 = 0 →
    let n := 0x3000 + 4096 * c.mx.held
    (∀ i < n, keys.getD i 0 = keys.getD (i / 64 * 64) 0 + i % 64) → (∀ i < n, ∀ j < n, keys.getD i 0 = keys.getD j 0 → i = j) →
    let u := putArea t c (fun i => keys.getD i 0) lo hi
    let e := leaveSaved (noteSaved u c (keys.headD 0)) c
    (∀ i < n, lo ≤ i → i < hi → homeByte u (keys.getD i 0) = storeGet 0 (areaImage t c) i) ∧
    (∀ key, (∀ i < n, lo ≤ i → i < hi → key ≠ keys.getD i 0) → homeByte u key = homeByte t key) ∧
    (∀ key, homeByte e key = homeByte u key) ∧ ctxOf e vf ident = none ∧
    e.en.saved = t.en.saved.filter (fun y => y.by_ ≠ 0 ∨ y.area ≠ keys.headD 0) ++ [savedOf t c (keys.headD 0) 0 0] ∧
    (∀ x ∈ e.ms.log, x ∈ t.ms.log ∧ ¬(x.vf = vf ∧ x.ident = ident))) ∧
  (∀ (f : FmtE) (s t s' v : State) (os : List Opnd) (head keys : List Nat), let va := (pair (src t os 0 1 0) (src t os 0 0 0)).toNat
    let h := homeNat s' (head.take 4)
    let held := min (h / 2 ^ 10 % 2 ^ 4) 8
    t = closed s (codes f.d 1) → s.g.mode ≠ .usr → f.c = 0 →
    Clear s f.nas ⟨noAp s ++ kBad f.d 1 ++ kBad f.a 2, codes f.a 2, codes f.d 1⟩ →
    takeAll [(1, f.a, 2)] t = .ok (os, s') → t.g.pidx = 0 → va % 64 = 0 →
    (∃ w, vaKeys s' (accOf s'.g) .load va 64 = .ok (head, w)) → h % 256 = 1 → h / 2 ^ 21 % 4 ≠ 1 →
    (t.g.who.loc.die = 2 → h.testBit 9 = false ∧ held = 0) →
    vaKeys s' (accOf s'.g) .load va (0x3000 + 4096 * held) = .ok (keys, v) →
    (loadAt (uniteActive v) keys held = none → Claims.Uniform (.gctxld f) f.nas f.d f.la s t (uniteActive v) [1]) ∧
    ∀ ident u, loadAt (uniteActive v) keys held = some (ident, u) →
      Claims.Uniform (.gctxld f) f.nas f.d f.la s t u [BitVec.ofNat 32 (2 ^ 16 * ident)]) ∧
  (∀ (s u : State) (keys : List Nat) (held ident : Nat), loadAt s keys held = some (ident, u) → s.g.live = true →
    (∀ d ∈ s.others, isCtx s.g.who.vf s.g.who.ident d = false) → s.ms.dirty = [] → migMode s s.g.who.vf ≠ 2 →
    freeIdent s s.g.who.vf = some ident ∧ u.g = s.g ∧ ∃ c part, u.others = s.others ++ [c] ∧ c.live = true ∧ c.who.vf = s.g.who.vf ∧
      c.who.ident = ident ∧ loadPart s (coreNum s.g.who.loc) held = some part ∧ c.who.loc = locOf (coreNum s.g.who.loc) part (freeNum s (coreNum s.g.who.loc) part) ∧
      ∀ i < 16, kAt c i = BitVec.ofNat 32 (homeNat s ((List.range 4).map fun j => keys.getD (0x200 + 4 * i + j) 0))) ∧
  ∀ (f : FmtR) (s t u : State), t = closed s [] → s.g.mode = .mch → Clear s f.nas ⟨noAp s, [], []⟩ → applyNas (selectorMask t) t f.nas = .ok u →
    ∃ e, exec (.ghalt f) s = .next e ∧ (u.ms.dirty = [] → (∀ c ∈ allCtx u, ∀ x ∈ [c.s0, c.s1], ∀ f d, x.wait ≠ .deadline f d) →
        e.ms.mem = u.ms.mem) ∧ e.mg.halted = u.mg.halted ∧
      (∀ c ∈ allCtx e, coreNum c.who.loc = coreNum s.g.who.loc → mayAct e c = false) ∧
      e.mg.cores = u.mg.cores.filter (· ≠ coreNum s.g.who.loc) ++ [coreNum s.g.who.loc]

/-! ## Work that the device makes -/

/-- No saved work of the VF waits (R356), and the issue order of a dispatcher's requests has this record first. -/
def Claims.HeadIs (s : State) (vf cluster h count data : Nat) (rest : List Request) : Prop :=
  served s vf = true ∧ s.wk.gangs.any (waitingGang s vf) = false ∧ waitingAny s vf = false ∧
    dispatchOrder s vf cluster = .record h count data :: rest

/-- A command to which its group has still to hand chunks over (R300). -/
abbrev Claims.handsOver (c : Ctx) (x : Cmd) : Prop := x.uid = c.who.uid ∧ x.accepted < x.chunks

/-- WorkEvents (R16, R40, R41, R44 to R51, R54, R55, R64, R65, R81, R103, R300, R356): a group that has ended leaves its context and what it had
in the arrays and repairs, and hands over no more chunks; one with an unresolvable side-log entry traps first, and one of a gang leaves its end to that; the
dispatcher places the record at its head on a core as a new group, or discards it; a gang is admitted when every team has its place,
and else waits or is discarded; the wait of a gang reaches HOLD and chooses cores; an overflowed record is queued when there is room;
a graph node launches one group for its records; the loss of the die link relaunches what may be restarted. Rests on the model's
choices of notes/assumptions 3, 30, 31, 34, 35, 80, 81, 82, 83. -/
def Obligations.WorkEvents : Prop :=
  (∀ (s : State) (vf ident : Nat) (c : Ctx), ctxOf s vf ident = some c → c.s0.valid = false → c.s1.valid = false →
    depthOf c.dsp = 0 → c.pend = none → c.redo = none → c.replays = [] → (∀ w ∈ c.wins, w.gone = 0) → c.endCause = none →
    c.who.vf = vf → c.who.ident = ident →
    (c.unres = false → (∀ e ∈ s.ms.log, ¬(e.vf = vf ∧ e.ident = ident)) → c.who.gang = none →
      ∃ u : State, exec (.groupEnd vf ident) s = .next u ∧ u = { s with
          arrays := u.arrays
          wk := { s.wk with waiters := s.wk.waiters.filter fun w => ¬(w.vf = vf ∧ w.ident = ident) }
          en := { s.en with
            repairs := s.en.repairs.filter fun r => ¬(r.vf = vf ∧ r.ident = ident ∧ r.stage = .measure)
            splices := s.en.splices.filter fun x => x.uid ≠ c.who.uid
            resting := s.en.resting.filter fun x => x.1 ≠ c.who.uid ∧ x.2 ≠ c.who.uid
            cmds := (s.en.cmds.filter fun x => ¬(Claims.handsOver c x ∧ x.todo = [])).map fun x =>
              if Claims.handsOver c x then { x with chunks := x.accepted } else x
            chores := s.en.chores ++ (s.en.cmds.filter fun x => Claims.handsOver c x ∧ x.todo = []).filterMap fun x =>
              x.pin.map fun b => .unpin ⟨x.vf, x.ident, x.mode, x.die⟩ b x.ids none }
          g := u.g
          others := s.others.filter fun d => !isCtx vf ident d } ∧
        (isCtx vf ident s.g = false → u.g = s.g) ∧ ctxOf u vf ident = none ∧
        ∀ a ∈ u.arrays, ∀ e ∈ a.queue, ¬(e.vf = vf ∧ e.ident = ident)) ∧
    (∀ n, c.unres = false → (∀ e ∈ s.ms.log, ¬(e.vf = vf ∧ e.ident = ident)) → c.who.gang = some n →
      (∃ d ∈ s.others, isCtx vf ident d = false ∧ d.who.gang = some n) →
      ∃ u : State, exec (.groupEnd vf ident) s = .next u ∧ ctxOf u vf ident = none ∧ u.ms = s.ms ∧
        u.wk.gangs.length = s.wk.gangs.length ∧ ∀ (i : Nat) (g : Gang), s.wk.gangs[i]? = some g → ∃ g' : Gang, u.wk.gangs[i]? = some g' ∧
          (g.num ≠ n → g' = g) ∧ (g.num = n → g' = { g with ended := g'.ended, fail := g'.fail } ∧
            (∀ ev, ev ∈ g'.ended ↔ ev ∈ g.ended ∨ ev ∈ knownIds c.ord 0xFFFFFFFF) ∧
            g'.fail = if hmode c then some (c.trap.tcause.toNat % 256) else g.fail)) ∧
    (∀ b, c.unres = true → bring s vf ident = some b → exec (.groupEnd vf ident) s = .next (Claims.back s
      (takeTrap { b with onAp := false } ⟨0x26, .a, 3, (curSlot c).mask, 0, 0⟩ (curSlot c).mask)))) ∧
  (∀ (s : State) (vf cluster h count data : Nat) (rest : List Request), Claims.HeadIs s vf cluster h count data rest →
    passTaken s vf cluster = none →
    (recBad cluster data = true →
      exec (.recordDispatch vf cluster) s = .next (discardRecord s vf cluster h count data 0x02)) ∧
    (recBad cluster data = false → recClass data = 15 → nodeCount s ≤ recFrame data →
      exec (.recordDispatch vf cluster) s = .next (discardRecord s vf cluster h count data 0x69)) ∧
    ∀ core ident part, recBad cluster data = false → recClass data ≠ 15 → recKind data ≠ 2 → recordCore s vf cluster = some core →
      freeIdent s vf = some ident → bestPart s core = some part →
      ∃ (u : State) (c : Ctx), exec (.recordDispatch vf cluster) s = .next u ∧ u.others = s.others ++ [c] ∧ u.g = s.g ∧
        c.live = true ∧ c.who.vf = vf ∧ c.who.ident = ident ∧ c.who.origin = .record ∧ c.who.join = recJoin data ∧
        c.who.loc = locOf core part (freeNum s core part) ∧ c.prio = recPrio data ∧ c.rth = 0 ∧
        c.s0 = ⟨true, BitVec.ofNat 57 (recCode data), if cluster = 64 then 1 else 0xFFFFFFFF, .none⟩ ∧ c.s1.valid = false ∧
        kAt c 0 = BitVec.ofNat 32 (recFrame data) ∧ kAt c 1 = BitVec.ofNat 32 (recFrame data / 2 ^ 32) ∧
        kAt c 2 = BitVec.ofNat 32 (recJoin data) ∧ kAt c 3 = BitVec.ofNat 32 (recJoin data / 2 ^ 32) ∧
        kAt c 4 = BitVec.ofNat 32 (recCtl data) ∧ (∀ i, 5 ≤ i → i < 16 → kAt c i = 0) ∧
        ∀ ev, ev ∈ knownIds c.ord 0xFFFFFFFF ↔ ev ∈ (noteOf s vf cluster h count).ids) ∧
  (∀ (s : State) (vf cluster h count data : Nat) (rest : List Request), Claims.HeadIs s vf cluster h count data rest →
    recKind data = 2 → recBad cluster data = false → recClass data ≠ 15 →
    let note := noteOf s vf cluster h count
    let a := note.acc vf cluster
    let drop (t : State) (c : Nat) := dropHead (discardRecord t vf cluster h count data c) vf cluster (recPrio data) count
    let look := runAs s a note.ids fun t => readGang t a (recFrame data)
    (∀ c x, look = .error (.cause c x) → exec (.gangAdmission vf cluster) s = .next (drop s c)) ∧
    (∀ ids v, look = .ok (none, ids, v) → exec (.gangAdmission vf cluster) s = .next (drop v 0x69)) ∧
    ∀ d ids v, look = .ok (some d, ids, v) →
      (inadmissible v vf cluster d.span d.teams = true → exec (.gangAdmission vf cluster) s = .next (drop v 0x6A)) ∧
      (inadmissible v vf cluster d.span d.teams = false →
        let w := dropHead v vf cluster (recPrio data) count
        let g : Gang := ⟨0, vf, cluster, recPrio data, recJoin data, d.span, d.restart, [], none, false, note.ident, note.issuer, note.ids, []⟩
        (∀ u, admitGang w g d.teams = some u → exec (.gangAdmission vf cluster) s = .next (takeRecord u h count)) ∧
        (placeTeams d.teams (((searchCores d.span cluster).filter (usableCore w vf)).map (openRoom w)) = none →
          exec (.gangAdmission vf cluster) s = .next s))) ∧
  (∀ (s u : State) (g : Gang) (entries : List TeamEntry), admitGang s g entries = some u →
    ∃ num teams, u.wk.gangs = s.wk.gangs ++ [{ g with num := num, teams := teams }] ∧ u.g = s.g ∧ teams.map (·.entry) = entries ∧
      (∀ t ∈ teams, t.core ∈ searchCores g.span g.cluster ∧ usableCore s g.vf t.core = true) ∧
      ∃ cs, u.others = s.others ++ cs ∧ cs.length = (entries.map (·.groups)).sum ∧ (cs.map (·.who.ident)).Nodup ∧
        ∀ c ∈ cs, c.live = true ∧ c.who.vf = g.vf ∧ c.who.origin = .gang ∧ c.who.gang = some num ∧ c.prio = g.prio ∧
          c.s0.valid = true ∧ c.s0.mask = 0xFFFFFFFF ∧ c.s1.valid = false ∧ c.who.ident ∉ usedIdents s g.vf) ∧
  (∀ (s : State) (vf cluster : Nat) (c : Request) (w : HeadWait) (d : GangDesc), headGang s vf cluster = some c →
    headWait s vf cluster c.key.1 c.key.2 = some w → w.held = false → 1200000 ≤ w.waited → askedTeams s vf cluster c = some d →
    let cores := holdCores s vf cluster d.span d.teams
    exec (.holdReached vf cluster) s = .next { s with wk := { s.wk with heads := s.wk.heads.map fun x =>
      if x = w then { w with held := true, cores := cores } else x } } ∧
    (cores.map (·.1)).Nodup ∧ cores.length ≤ d.teams.length ∧ ∀ x ∈ cores, usableCore s vf x.1 = true ∧ x.2 ∈ d.teams) ∧
  (∀ (s : State) (n : Nat) (o : Overflow) (h : Nat), s.wk.overflow[n]? = some o → o.cluster < 64 →
    queueOf s o.vf o.cluster o.data = some h → qReserved s h = false → qFull s h = false → recReserved o.data = false →
    recTaken o.data = false →
    let t : State := { s with wk := { s.wk with overflow := s.wk.overflow.take n ++ s.wk.overflow.drop (n + 1) } }
    exec (.overflowRetry n) s =
      .next (leave t (qWrite (enter t ⟨o.vf, o.ident, .usr, o.cluster / 32⟩ o.ids) h o.data o.ident o.issuer o.ids))) ∧
  (∀ (s : State) (vf node core ident part : Nat), let h := nodeQueue s node
    let recs := queued s h
    let n := (nodeN s node).1
    let cluster := headerCluster s vf h
    served s vf = true → node < nodeCount s → qReserved s h = false → nodeBad s node = false → 0 < n → n ≤ recs.length →
    (∀ x ∈ recs.take n, recBad cluster x.2 = false) → recordCore s vf cluster = some core → freeIdent s vf = some ident →
    bestPart s core = some part →
    ∃ (u : State) (c : Ctx), exec (.graphNodeLaunch vf node) s = .next u ∧ u.others = s.others ++ [c] ∧ u.g = s.g ∧ c.live = true ∧
      c.who.vf = vf ∧ c.who.ident = ident ∧ c.who.origin = .graph ∧ c.prio = (nodeN s node).2 ∧ c.mode = .mch ∧
      c.s0 = ⟨true, BitVec.ofNat 57 (physNat s (nodeAt s node) 8), BitVec.ofNat 32 (2 ^ n - 1), .none⟩ ∧
      kAt c 0 = BitVec.ofNat 32 (nodeAt s node) ∧ kAt c 2 = BitVec.ofNat 32 n ∧
      ∀ l < n, ∀ i < 8, vAt c i l = BitVec.ofNat 32 ((recs.getD l (0, 0)).2 / 2 ^ (32 * i))) ∧
  (∀ (s : State) (die : Nat), (∀ g ∈ s.wk.gangs, spansDies g = true → g.saved = true) →
    ∃ u : State, exec (.dieLinkLoss die) s = .next u ∧ u = { s with ld := { s.ld with moves := u.ld.moves } } ∧
      u.ld.moves.map (fun m => { m with abandoned := false }) = s.ld.moves.map fun m => { m with abandoned := false }) ∧
  ∀ (s : State) (die : Nat) (g : Gang), s.wk.gangs.filter (fun g => spansDies g && !g.saved) = [g] → g.restart = true →
    (∀ c ∈ s.others, c.live = true) →
    let cluster := 32 * (die % 2) + g.cluster % 32
    qReserved s (headerAt s g.vf cluster g.prio) = false →
    ∃ (u : State) (ended : List Nat), exec (.dieLinkLoss die) s = .next u ∧ u.wk.gangs = s.wk.gangs.filter (fun x => x.num ≠ g.num) ∧
      u.wk.requeue = s.wk.requeue ++ [⟨s.fresh + 1, g.vf, cluster, g.prio, g.join, true, false, unretired s g, g.pusher, g.issuer,
        g.ids, ended⟩] ∧
      (∀ ev ∈ g.ended, ev ∈ ended) ∧ u.ms = s.ms ∧ ∀ c ∈ allCtx u, c.who.gang ≠ some g.num

/-! ## Placement -/

/-- A placement form finds the page of its address (R303): its operands are there and the address and translation pass. -/
def Claims.PlacedPage (s t s' : State) (os : List Opnd) (f : FmtR) (bad writes : List Nat) (b : Bool) (p : PlaceLeaf) : Prop :=
  t = closed s writes ∧
    Clear s f.nas ⟨noAp s ++ bad ++ kBad f.a 2 ++ (if b then kBad f.b 1 else []), codes f.a 2 ++ (if b then codes f.b 1 else []), writes⟩ ∧
    takeAll ((1, f.a, 2) :: if b then [(2, f.b, 1)] else []) t = .ok (os, s') ∧
    checkedLeaf t (accOf t.g) (pair (src t os 0 1 0) (src t os 0 0 0)).toNat = .ok p

/-- Filing a proposal of this action and destination for the page of `va` leaves `e` (R97, R98): one more outstanding proposal in
autonomous mode, where the page is of 4 or 64 KiB, not pinned and has none; else nothing. -/
def Claims.Filed (s e : State) (a : Acc) (src va level pte act tier die : Nat) (asked : Bool) : Prop :=
  let n := (pageSize level pte).1
  let page := va / 2 ^ n * 2 ^ n
  let root := rootOf s a
  e = if level ≠ 3 ∧ level ≠ 4 then
      (if pte.testBit 11 = true ∨ (∃ q ∈ s.ld.proposals, q.vf = a.vf ∧ q.root = root ∧ q.va = page) ∨ migMode s a.vf ≠ 1 then s
        else { s with ld := { s.ld with
          proposals := s.ld.proposals ++ [⟨a.vf, root, page, pte.testBit 63, a.ident, src, act, tier, die, asked, false⟩] } })
    else s

/-- PlaceForms (R93, R95, R97, R98, R303): gpin pins a page within the quota of its VF and gives 0, or 1; gunpin unpins it;
ghint files a proposal for the tier and die that it names, and gdup one for a duplicate on the issuing die, giving 0, unless the
page is pinned or of strict affinity elsewhere; gwhere gives a group or a slice where the page is, and 0 for a page that is nowhere. The statement
covers the modes of proposals without the ring, of which the trap 0x41 is a part. Rests on the model's choices of
notes/assumptions 23. -/
def Obligations.PlaceForms : Prop :=
  (∀ (f : FmtR) (s t s' : State) (os : List Opnd) (p : PlaceLeaf),
    Claims.PlacedPage s t s' os f (kBad f.d 1) (codes f.d 1) false p →
    let q := (vfReg t t.g.who.vf 0x106).toNat
    let quota := q % 2 ^ 16
    let used := q / 2 ^ 16 % 2 ^ 16
    (p.pte.testBit 11 = true → Claims.Writes (.gpin f) f.nas f.d s s' 0) ∧
    (p.pte.testBit 11 = false → p.pte.testBit 12 = true → exec (.gpin f) s = .next (setWait t .held)) ∧
    (p.pte.testBit 11 = false → p.pte.testBit 12 = false → used < quota → Claims.Writes (.gpin f) f.nas f.d s
      (setVfReg (markEntries s' p.pteAt (leafPages p.level p.pte) fun x => setBits x 11 11 1) t.g.who.vf 0x106 (BitVec.ofNat 64 (quota + 2 ^ 16 * ((used + 1) % 2 ^ 16)))) 0) ∧
    (p.pte.testBit 11 = false → p.pte.testBit 12 = false → quota ≤ used → Claims.Writes (.gpin f) f.nas f.d s s' 1)) ∧
  (∀ (f : FmtR) (s t s' : State) (os : List Opnd) (p : PlaceLeaf), Claims.PlacedPage s t s' os f [] [] false p →
    let q := (vfReg t t.g.who.vf 0x106).toNat
    (p.pte.testBit 11 = false → Claims.Ends (.gunpin f) f.nas [] s s') ∧
    (p.pte.testBit 11 = true → Claims.Ends (.gunpin f) f.nas [] s (setVfReg (markEntries s' p.pteAt
      (leafPages p.level p.pte) fun x => setBits x 11 11 0) t.g.who.vf 0x106
      (BitVec.ofNat 64 (q % 2 ^ 16 + 2 ^ 16 * (q / 2 ^ 16 % 2 ^ 16 - 1)))))) ∧
  (∀ (f : FmtR) (s t s' : State) (os : List Opnd) (p : PlaceLeaf), Claims.PlacedPage s t s' os f [] [] true p →
    let va := (pair (src t os 0 1 0) (src t os 0 0 0)).toNat
    let x := (src t os 1 0 0).toNat
    let taf := p.pte / 2 ^ 8 % 4
    let strict := p.pte.testBit 10 = true ∧ taf ≠ 0 ∧ taf ≠ x % 4
    let act := if p.pte.testBit 1 = true ∧ (taf = 0 ∨ taf = x % 4) then 1 else 2
    x % 4 ≠ 0 → x < 8 → migMode s' t.g.who.vf ≠ 2 →
    (strict → Claims.Ends (.ghint f) f.nas [] s s') ∧
    (¬strict → ∃ e, Claims.Filed s' e (accOf t.g) t.g.who.loc.die va p.level p.pte act (x % 4) (x / 4) false ∧
      Claims.Ends (.ghint f) f.nas [] s e)) ∧
  (∀ (f : FmtR) (s t s' : State) (os : List Opnd) (p : PlaceLeaf),
    Claims.PlacedPage s t s' os f (kBad f.d 1) (codes f.d 1) false p →
    let va := (pair (src t os 0 1 0) (src t os 0 0 0)).toNat
    let n := (pageSize p.level p.pte).1
    let die := t.g.who.loc.die
    let tier := if die = 2 then 2 else 1
    let taf := p.pte / 2 ^ 8 % 4
    let barred := p.pte.testBit 11 = true ∨ (p.pte.testBit 10 = true ∧ taf ≠ 0 ∧ taf ≠ tier) ∨ p.level = 3 ∨ p.level = 4 ∨
      ∃ q ∈ t.ld.proposals, q.vf = t.g.who.vf ∧ q.root = rootOf t (accOf t.g) ∧ q.va = va / 2 ^ n * 2 ^ n
    migMode s' t.g.who.vf ≠ 2 →
    (barred → Claims.Writes (.gdup f) f.nas f.d s s' 1) ∧
    (¬barred → ∃ e, Claims.Filed s' e (accOf t.g) die va p.level p.pte 2 tier die true ∧
      Claims.Writes (.gdup f) f.nas f.d s e 0)) ∧
  (∀ (f : FmtR) (s t s' : State) (os : List Opnd), let va := (pair (src t os 0 1 0) (src t os 0 0 0)).toNat
    t = closed s (codes f.d 1) → Clear s f.nas ⟨kBad f.a 2, codes f.a 2, codes f.d 1⟩ → Claims.Room t f.d 1 →
    takeAll [(1, f.a, 2)] t = .ok (os, s') →
    ∃ e, Claims.Delivered s' e f.d [placeWord t va] ∧ Claims.Ends (.gwhere f) f.nas (codes f.d 1) s e) ∧
  ∀ (s : State) (va : Nat), (leafOfVa s (accOf s.g) va = none → placeWord s va = 0) ∧
    ∀ p q, leafOfVa s (accOf s.g) va = some p →
      placeOf s (p.pa / 2 ^ (pageSize p.level p.pte).1 * 2 ^ (pageSize p.level p.pte).1) = some q →
      let w := placeWord s va
      w.extractLsb' 0 2 = BitVec.ofNat 2 q.tier ∧ (w.getLsbD 2 = true ↔ q.tier = 1 ∧ q.die = 1) ∧
      w.extractLsb' 3 2 = BitVec.ofNat 2 (if q.tier = 1 then q.member else 0) ∧ w.getLsbD 6 = p.pte.testBit 11 ∧
      w.getLsbD 7 = p.pte.testBit 10 ∧ w.getLsbD 8 = p.pte.testBit 12 ∧ w.getLsbD 9 = p.pte.testBit 13 ∧
      w.getLsbD 10 = dupHere s (accOf s.g) p.pte ∧ (w.extractLsb' 16 16).toNat =
        min (storeGet 0 s.ld.hot (hotKey (rootOf s (accOf s.g)) s.g.who.vf s.g.who.loc.die va p.level p.pte)) 0xFFFF

/-- Memory as a walk for a store leaves it: every byte but those of the entries that it marks (R352). -/
def Claims.walked (s : State) (g : Page) (m : Nat → Byte) : Prop :=
  ∀ key, Claims.Unmarked s [(0, .ok g)] key → m key = homeByte s key

/-- A move of a page is the first of those at its address that meet a test. -/
def Claims.FirstMove (s : State) (vf va : Nat) (test : Move → Prop) (m : Move) : Prop :=
  ∃ before rest, s.ld.moves = before ++ m :: rest ∧ m.vf = vf ∧ m.va = va ∧ test m ∧ ∀ x ∈ before, ¬(x.vf = vf ∧ x.va = va ∧ test x)

/-- The duplicates of a page are the first of those at its address that meet a test. -/
def Claims.FirstDup (s : State) (vf va : Nat) (test : Dup → Prop) (d : Dup) : Prop :=
  ∃ before rest, s.ld.dups = before ++ d :: rest ∧ d.vf = vf ∧ d.va = va ∧ test d ∧ ∀ x ∈ before, ¬(x.vf = vf ∧ x.va = va ∧ test x)

/-- An entry of a side log is of a page under a root (R101, R102). -/
def Claims.pends (s : State) (vf root va pages : Nat) : Prop :=
  ∃ e ∈ s.ms.log, e.vf = vf ∧ rootOf s e.acc = root ∧ va ≤ e.va ∧ e.va < va + 4096 * pages

/-- The entries of a page under a move are as the Ladle last read them, but for A and D (R94). -/
def Claims.kept (s : State) (m : Move) : Prop :=
  ∀ i < m.pages, physNat s (m.pteAt + 8 * i) 8 ||| 96 = (if m.pages = 16 then setBits m.pte.toNat 19 16 i else m.pte.toNat) ||| 96

/-- PlaceEvents (R80, R94, R96, R98 to R105, R108, R109, R359, R360): the ends of epochs halve the hotness counts of a VF; a core's
oldest side-log entry is performed once its page is there and still, or becomes unresolvable; a proposal begins a move or a
duplicate, or is declined; a move sets MIG, has its page's translations dropped and its dirty sectors recalled, is copied, forwarded and
its entries rewritten, has the translations dropped once more and retires, and is abandoned where an entry changed; a collapse ends with
the translations of the page dropped; a lease that runs out changes nothing. Rests on the model's choices of notes/assumptions 21, 24,
84, 99. -/
def Obligations.PlaceEvents : Prop :=
  (∀ (s : State) (n : Nat), exec (.leaseRenewal n) s = .next s) ∧
  (∀ (s : State) (vf : Nat), let epoch := (vfReg s vf 0x105).toNat / 2 ^ 16 % 2 ^ 16
    vf < 16 → epoch ≠ 0 → storeGet 0 s.mg.last (100 + vf) + 120000 * epoch ≤ s.acnt.toNat → storeWf 0 s.ld.hot = true →
    ∃ u : State, exec (.epochEnd vf) s = .next u ∧ u = { s with
        mg := { s.mg with last := storeSet 0 s.mg.last (100 + vf) s.acnt.toNat }, ld := { s.ld with hot := u.ld.hot } } ∧
      ∀ key, storeGet 0 u.ld.hot key = if key / 2 ^ 58 / 16 % 16 = vf then storeGet 0 s.ld.hot key / 2 else storeGet 0 s.ld.hot key) ∧
  (∀ (s : State) (core vf : Nat) (x : DWord),
    let hit (e : LogEntry) : Prop := e.core = core ∧ e.vf = vf ∧ e.ident = x.toNat % 2 ^ 12 ∧ e.va / 4096 = x.toNat / 4096 % 2 ^ 45
    ((∀ e ∈ s.ms.log, ¬hit e) → exec (.sldiscWrite core vf x) s = .next s) ∧
    ((∃ e ∈ s.ms.log, hit e) → ∃ u, exec (.sldiscWrite core vf x) s = .next u ∧ (∀ e, e ∈ u.ms.log ↔ e ∈ s.ms.log ∧ ¬hit e) ∧
      u.ms.mem = s.ms.mem ∧ ∀ c, ctxOf s vf (x.toNat % 2 ^ 12) = some c → ctxOf u vf (x.toNat % 2 ^ 12) = some { c with unres := true })) ∧
  (∀ (s : State) (core : Nat) (e : LogEntry) (g : Page), headEntry s core = some e → migMode s e.vf ≠ 2 → e.waits = false →
    translate s e.acc .store e.va = .ok g → g.pte.testBit 12 = false → g.pte.testBit 13 = false → e.ev ≠ 0 →
    (∀ w ∈ s.ms.hist, w.ev ≠ e.ev ∧ e.ev ∉ w.preds) →
    (∀ i < 16, e.bmask.testBit i = true → ∀ j < 16, j ≠ i →
      physKey s (g.pa + (e.va + i) % 4096) ≠ physKey s (g.pa + (e.va + j) % 4096)) →
    e.kind = .plain ∨ e.kind = .strong → (vfReg s e.vf 0x030).getLsbD 1 = false →
    ∃ (u : State) (m : Nat → Byte), exec (.sideLogReplay core) s = .next u ∧ u.ms.log = s.ms.log.erase e ∧ Claims.walked s g m ∧
      (∀ i < 16, e.bmask.testBit i = true → homeByte u (physKey s (g.pa + (e.va + i) % 4096)) = e.data.getD i 0) ∧
      (∀ key, (∀ i < 16, e.bmask.testBit i = true → key ≠ physKey s (g.pa + (e.va + i) % 4096)) → homeByte u key = m key) ∧
      u.g = s.g ∧ u.others = s.others) ∧
  (∀ (s : State) (core : Nat) (e : LogEntry) (cs : List Nat) (c : Ctx), headEntry s core = some e →
    translate s e.acc .store e.va = .bad cs → 0x48 ∈ cs →
    ctxOf s e.vf e.ident = some c → ∃ u, exec (.sideLogReplay core) s = .next u ∧ u.ms.log = s.ms.log.erase e ∧
      u.ms.mem = s.ms.mem ∧ ctxOf u e.vf e.ident = some { c with unres := true }) ∧
  (∀ (s : State) (p : Proposal) (l : PlaceLeaf) (before rest : List Proposal), s.ld.proposals = before ++ p :: rest →
    (∀ q ∈ before, ¬(q.vf = p.vf ∧ q.va = p.va)) → migMode s p.vf = 1 → p.ring = false →
    (∀ m ∈ s.ld.moves, ¬(m.vf = p.vf ∧ m.va = p.va)) → leafOfVa s (ladleAcc p) p.va = some l →
    let taf := l.pte / 2 ^ 8 % 4
    let act := if p.asked = true then p.act else if l.pte.testBit 1 = true ∧ (taf = 0 ∨ taf = p.tier) then 1 else 2
    (act = 1 → exec (.ladleMoveBegin p.vf p.va) s = .next (beginAction s p)) ∧
    (act = 2 → exec (.duplicateCreate p.vf p.va) s = .next (beginAction s p))) ∧
  (∀ (s v : State) (p : Proposal) (l : PlaceLeaf) (pfn : Nat), leafOfVa s (ladleAcc p) p.va = some l →
    let pages := if p.large then 16 else 1
    let stack := stackAt s p.vf p.tier p.die p.large
    let first := if pages = 16 then l.pteAt / 128 * 128 else l.pteAt
    let frame := if pages = 16 then l.pte / 2 ^ 16 % 2 ^ 44 / 16 * 16 else l.pte / 2 ^ 16 % 2 ^ 44
    (l.pte.testBit 11 = true ∨ l.pte.testBit 12 = true ∨ strictForbids l.pte p.tier = true ∨ leafPages l.level l.pte ≠ pages →
      beginAction s p = dropProposal s p.vf p.root p.va) ∧
    (l.pte.testBit 11 = false → l.pte.testBit 12 = false → strictForbids l.pte p.tier = false → atHome s p l = false →
      leafPages l.level l.pte = pages → (∀ m ∈ s.ld.moves, ofEntries m.pteAt m.pages l.pteAt = false) → popFrame s stack = some (pfn, v) →
      (p.action l.pte = 1 → l.pte.testBit 13 = false → beginAction s p = { v with ld := { v.ld with moves := v.ld.moves ++
          [⟨p.vf, p.root, p.va, first, BitVec.ofNat 64 (physNat v first 8), frame, pfn, pages, stack, 0, 0, false⟩] } } ∧ v.ld = s.ld) ∧
      (p.action l.pte = 2 → l.pte.testBit 14 = false → p.tier ≠ 3 → (∀ d ∈ s.ld.dups, ofEntries d.pteAt d.pages l.pteAt = false) →
        (beginAction s p).ld.dups = s.ld.dups ++
          [⟨p.vf, p.root, p.va, first, frame, pages, [(if p.tier = 1 then p.die else 2, pfn)], false⟩] ∧
        ∀ q, q ∈ (beginAction s p).ld.proposals ↔ q ∈ s.ld.proposals ∧ ¬(q.vf = p.vf ∧ q.root = p.root ∧ q.va = p.va)))) ∧
  (∀ (s : State) (vf va : Nat) (m : Move), Claims.FirstMove s vf va (fun x => x.phase = 0) m →
    ((m.abandoned = true ∨ ¬Claims.kept s m) → ∃ u, exec (.ladleMoveBegin vf va) s = .next u ∧
      u.ld.moves = s.ld.moves.filter (fun x => x ≠ m) ∧ u.ld.forwards = s.ld.forwards) ∧
    (m.abandoned = false → Claims.kept s m → let t := markEntries s m.pteAt m.pages (· ||| 2 ^ 12)
      exec (.ladleMoveBegin vf va) s = .next { t with fresh := t.fresh + 1, ld := { t.ld with moves := t.ld.moves.filter (fun x => x ≠ m) ++
        [{ m with pte := BitVec.ofNat 64 (physNat t m.pteAt 8), phase := 1, inv := t.fresh + 1 }] } })) ∧
  (∀ (s : State) (n : Nat) (cut : Bool) (m : Move), (∀ i ∈ s.en.invals, i.num ≠ n) → m ∈ s.ld.moves → m.inv = n → (m.phase = 1 ∨ m.phase = 3) →
    (∀ x ∈ s.ld.moves, x.inv = n → x = m) →
    ∃ u, exec (.invalidationComplete n cut) s = .next u ∧
      u.ld.moves = s.ld.moves.filter (fun x => x ≠ m) ++ [{ m with phase := m.phase + 1 }] ∧
      (∀ e, e ∈ u.ms.tlb ↔ e ∈ s.ms.tlb ∧ ¬(e.vf = m.vf ∧ m.va / 4096 ≤ e.vpn ∧ e.vpn < m.va / 4096 + m.pages)) ∧
      (m.phase = 1 → s.ms.dirty = [] → ∀ w ∈ u.ms.hist, (∃ p ∈ framePieces s m.oldPfn m.pages, p ≤ w.key ∧ w.key < p + 256) →
        w.arrived ≠ none ∨ unreadable s w = true ∨ early s w = true)) ∧
  (∀ (s : State) (vf va : Nat) (m : Move), Claims.FirstMove s vf va (fun x => x.phase = 2 ∨ (x.abandoned = true ∧ x.phase < 3)) m →
    ((m.abandoned = true ∨ ¬Claims.kept s m) → ∃ u, exec (.moveCopyComplete vf va) s = .next u ∧
      u.ld.moves = s.ld.moves.filter (fun x => x ≠ m) ∧ u.ld.forwards = s.ld.forwards) ∧
    (m.abandoned = false → Claims.kept s m →
      let v := moveFrames s m.oldPfn m.newPfn m.pages
      let w := updateKept { v with ld := { v.ld with
        forwards := v.ld.forwards ++ (List.range m.pages).map fun i => (m.oldPfn + i, m.newPfn + i) } } m
        fun i x => setBits (setBits x 12 12 0) 59 16 (m.newPfn + i)
      exec (.moveCopyComplete vf va) s = .next (ladleCount { w with fresh := w.fresh + 1, ld := { w.ld with
        moves := w.ld.moves.filter (fun x => x ≠ m) ++ [{ m with phase := 3, inv := w.fresh + 1 }] } } vf 192) ∧
      v.ld = s.ld ∧ w.ld.moves = s.ld.moves)) ∧
  (∀ (s : State) (vf va : Nat) (m : Move), Claims.FirstMove s vf va (fun x =>
      (x.phase = 4 ∧ ¬Claims.pends s vf x.root va x.pages) ∨ (x.abandoned = true ∧ 3 ≤ x.phase)) m →
    ∃ u, exec (.moveRetire vf va) s = .next u ∧ u.ld.moves = s.ld.moves.filter (fun x => x ≠ m) ∧
      (∀ x, x ∈ u.ld.forwards ↔ x ∈ s.ld.forwards ∧ ¬(m.oldPfn ≤ x.1 ∧ x.1 < m.oldPfn + m.pages)) ∧
      ∀ q ∈ u.ld.proposals, ¬(q.vf = vf ∧ q.root = m.root ∧ q.va = va)) ∧
  (∀ (s : State) (vf va : Nat) (d : Dup), Claims.FirstDup s vf va (fun x => x.collapsing = false ∧ Claims.pends s vf x.root va x.pages) d →
    exec (.dupCollapse vf va) s = .next { s with ld := { s.ld with dups := s.ld.dups.map fun x =>
      if x = d then { d with collapsing := true } else x } }) ∧
  (∀ (s : State) (vf va : Nat) (d : Dup), Claims.FirstDup s vf va (fun x => x.collapsing = true) d →
    ∃ u, exec (.collapseEnd vf va) s = .next u ∧ u.ld.dups = s.ld.dups.filter (fun x => x ≠ d) ∧
      ∀ e ∈ u.ms.tlb, ¬(e.vf = vf ∧ va / 4096 ≤ e.vpn ∧ e.vpn < va / 4096 + d.pages)) ∧
  ∀ (s : State) (vf : Nat), let b := ladleBlock s vf
    let lg := physNat s (b + 8) 4 % 16
    let n := storeGet 0 s.ld.ring vf
    let x := physNat s (physNat s b 8 + 32 * (n % 2 ^ lg)) 32
    let t : State := { s with ld := { s.ld with ring := storeSet 0 s.ld.ring vf ((n + 1) % 2 ^ 32) } }
    let va := x / 2 ^ 12 % 2 ^ 45 * 4096
    let root := rootOf s ⟨vf, x / 2 ^ 64 % 2 ^ 12, .mch, 2⟩
    let p (tier die : Nat) : Proposal :=
      ⟨vf, root, va, x.testBit 0, x / 2 ^ 64 % 2 ^ 12, x / 2 ^ 80 % 2 ^ 8, x / 2 ^ 88 % 2 ^ 8, tier, die, true, true⟩
    physNat s (b + 20) 4 ≠ n → 4 ≤ lg → lg ≤ 12 →
    (x / 2 ^ 104 % 2 ^ 8 ≠ 1 → x / 2 ^ 104 % 2 ^ 8 ≠ 2 →
      exec (.ladleRingAction vf) s = .next (dropProposal (ladleCount t vf 212) vf root va)) ∧
    (x / 2 ^ 104 % 2 ^ 8 = 1 → exec (.ladleRingAction vf) s = .next (beginAction t (p (x / 2 ^ 96 % 4) (x / 2 ^ 98 % 2)))) ∧
    (x / 2 ^ 104 % 2 ^ 8 = 2 → (∀ l, leafOfVa s (ladleAcc (p 0 0)) va = some l → strictForbids l.pte (x / 2 ^ 112 % 4) = false) →
      exec (.ladleRingAction vf) s = .next (beginAction t (p (x / 2 ^ 112 % 4) (x / 2 ^ 114 % 2))))

/-! ## Partitions -/

/-- An extent as DCXB, DCXL and DCXS name it, with another STATE, and all else as it is. -/
def Claims.ExtentIs (s e : State) (i st : Nat) : Prop :=
  e = { s with hub := { s.hub with extents := e.hub.extents } } ∧ extState e i = st ∧
    ∀ k j, j < 3 → extReg e k j = if k = i ∧ j = 2 then extReg s i 2 / 8 * 8 + st else extReg s k j

/-- PartitionEvents (R107, R108, R351, R354 to R357, R361 to R363): VFCTL enables a VF only where no enabled VF has an
identifier of its range; QCTL takes NROWS, GO and a request to load; a row of the table ends and the next is switched to; a table is taken or
refused; enabling a range decides ERR; the pool's commands clear, set and report an owned bit; extents go through their states,
and a forced withdrawal poisons one; a peer's link goes down with what was cached of it, and comes up with its identity. Rests
on the model's choices of notes/assumptions 49, 51, 52. -/
def Obligations.PartitionEvents : Prop :=
  (∀ (s : State) (vf : Nat) (x : DWord), vf < 16 → ∃ en, (en = true ↔ x.getLsbD 0 = true ∧ ((vfReg s vf 0x103).getLsbD 0 = true ∨
      ∀ w < 16, w ≠ vf → (vfReg s w 0x103).getLsbD 0 = true →
        ¬∃ n, (ctxRange s vf).1 ≤ n ∧ n < (ctxRange s vf).1 + (ctxRange s vf).2 ∧
          (ctxRange s w).1 ≤ n ∧ n < (ctxRange s w).1 + (ctxRange s w).2)) ∧
    exec (.vfctlWrite vf x) s = .next (setVfReg s vf 0x103 (BitVec.ofNat 64 ((if en then 1 else 0) +
      2 * (if x.toNat / 2 % 4 = 3 then (vfReg s vf 0x103).toNat / 2 % 4 else x.toNat / 2 % 4)))) ) ∧
  (∀ (s : State) (x : DWord), let q := (devReg s 0x111).toNat
    let t := setDevReg s 0x111 (BitVec.ofNat 64 (x.toNat % 32 +
      (if x.getLsbD 8 then 2 ^ 8 else 0) + (if q.testBit 9 ∨ x.getLsbD 9 then 2 ^ 9 else 0) + (if q.testBit 10 then 2 ^ 10 else 0) +
      2 ^ 16 * (q / 2 ^ 16 % 32)))
    (x.getLsbD 8 = false ∨ q.testBit 8 = true → exec (.qctlLoad x) s = .next t) ∧
    (x.getLsbD 8 = true → q.testBit 8 = false → exec (.qctlLoad x) s =
      .next (restoreRow { t with qt := { t.qt with since := s.acnt.toNat } }))) ∧
  (∀ (s : State) (r : QRow), let row := if s.qt.rows.length ≤ curRow s + 1 then 0 else curRow s + 1
    qGo s = true → s.qt.rows[curRow s]? = some r → s.qt.since + 1200 * r.dur ≤ s.acnt.toNat →
    ¬(qLoad s = true ∧ s.qt.rows.length ≤ curRow s + 1) → exec .quantumRowBoundary s =
      .next (switchRows { s with qt := { s.qt with since := s.qt.since + 1200 * r.dur } } (some r) s.qt.rows[row]? row)) ∧
  (∀ s : State, let rows := (List.range ((devReg s 0x111).toNat % 32 + 1)).map (tableRow s)
    qLoad s = true → (qGo s = false ∨ s.qt.rows = [] ∨ (s.qt.rows.length ≤ curRow s + 1 ∧ rowEnd s ≤ s.acnt.toNat)) →
    (tableBad s rows = true → exec .quantumTableTake s =
      .next (setQctl s ((devReg s 0x111).toNat % 32) (qGo s) false true (curRow s))) ∧
    (tableBad s rows = false → exec .quantumTableTake s = .next (takeTable s rows))) ∧
  (∀ (s : State) (i : Nat) (x : DWord), i < 16 → ∃ u, exec (.addressRangeEnable i x) s = .next u ∧
    u = { s with dev := u.dev } ∧ devReg u (0x140 + 4 * i) = x &&& 0x80FFFFFFFFE00000 ∧
    (x.getLsbD 63 = true → (devReg u (0x142 + 4 * i)).getLsbD 24 =
      rangeMalformed ((devReg s (0x142 + 4 * i)).toNat) (devReg s (0x143 + 4 * i)).toNat) ∧
    (x.getLsbD 63 = false → devReg u (0x142 + 4 * i) = devReg s (0x142 + 4 * i)) ∧
    ∀ n, n ≠ 0x140 + 4 * i → n ≠ 0x142 + 4 * i → devReg u n = devReg s n) ∧
  (∀ (s : State) (w page : Nat), let st := devReg s 0x195
    w < 4 → st.getLsbD 0 = false →
    (windowPages s w ≤ page → ∀ i ∈ [Instr.poolRelease w page, .poolTake w page, .poolQuery w page],
      exec i s = .next (setPoolst s false true (st.getLsbD 2))) ∧
    (page < windowPages s w →
      exec (.poolQuery w page) s = .next (setPoolst s false false (ownedBit s w page)) ∧
      exec (.poolTake w page) s = .next (setPoolst (physPut s (ownedAt s w page) 1
        (physNat s (ownedAt s w page) 1 ||| 2 ^ (page % 8))) false false (st.getLsbD 2)) ∧
      ∃ u y, exec (.poolRelease w page) s = .next u ∧ u = { setPoolst (physPut s (ownedAt s w page) 1 y) true false (st.getLsbD 2) with
          mg := { s.mg with poolPage := some (w, page) } } ∧
        ∀ b < 8, y.testBit b = if b = page % 8 then false else (physNat s (ownedAt s w page) 1).testBit b)) ∧
  (∀ (s : State) (w page : Nat), s.mg.poolPage = some (w, page) → ∃ u, exec .poolReleaseDone s = .next u ∧
    u.mg.poolPage = none ∧ (devReg u 0x195).getLsbD 0 = false ∧ u.ms.mem = s.ms.mem) ∧
  (∀ (s : State) (i : Nat), i < 64 →
    (extState s i = 0 → ∃ e, Claims.ExtentIs s e i 1 ∧ exec (.extentActivate i) s = .next e) ∧
    (extState s i = 1 → ∃ e, Claims.ExtentIs s e i 2 ∧ exec (.extentOrderlyRelease i) s = .next e) ∧
    (extState s i = 3 → ∃ e, Claims.ExtentIs s e i 0 ∧ exec (.extentFree i) s = .next e) ∧
    (extState s i = 2 → ∃ u, exec (.extentReleaseAck i) s = .next u ∧ extState u i = 0 ∧
      (s.ms.dirty = [] → u.ms.mem = s.ms.mem)) ∧
    (∀ x ∈ [Instr.extentActivate i, .extentOrderlyRelease i, .extentFree i],
      extState s i ≠ (match x with | .extentActivate _ => 0 | .extentOrderlyRelease _ => 1 | _ => 3) → exec x s = .next s)) ∧
  (∀ (s : State) (i : Nat) (dropped : List Nat), i < 64 → extState s i = 1 ∨ extState s i = 2 →
    let gone := (distinct dropped).filter fun c => inPieces s (extPieces s i).1 (extPieces s i).2 (64 * c)
    ∃ u, exec (.forcedWithdrawal i dropped) s = .next u ∧ extState u i = 3 ∧
      bits (extReg u i 2) 63 32 = min (bits (extReg s i 2) 63 32 + gone.length) 0xFFFFFFFF ∧
      (s.ms.dirty = [] → ∀ key, key / 64 ∉ gone → homeByte u key = homeByte s key) ∧
      ∀ m ∈ u.ld.moves, (extPieces s i).1 ≤ 4096 * m.oldPfn → 4096 * m.oldPfn < (extPieces s i).1 + 256 * (extPieces s i).2 →
        m.abandoned = true) ∧
  (∀ (s : State) (q : Nat), q < 72 → ∃ u, exec (.peerDown q []) s = .next u ∧ (peerReg u q).testBit 48 = false ∧
    peerReg u q % 2 ^ 48 = peerReg s q % 2 ^ 48 ∧ (∀ p, p ≠ q → peerReg u p = peerReg s p) ∧
    (∀ e, e ∈ u.ms.tlb ↔ e ∈ s.ms.tlb ∧ tlbOfPeer s q e = false) ∧
    (s.ms.dirty = [] → (∀ w ∈ s.ms.hist, w.strong ≠ none → w.arrived ≠ none) → u.ms.mem = s.ms.mem) ∧
    ∀ i ∈ s.en.invals, i.uid ∈ u.en.cut) ∧
  ∀ (s : State) (q pkg inc : Nat), q < 72 → pkg < 2 ^ 16 → inc < 2 ^ 32 → ∃ u, exec (.peerUp q pkg inc) s = .next u ∧
    u = { s with hub := { s.hub with peers := u.hub.peers }, ms := { s.ms with tlb := u.ms.tlb } } ∧
    (∀ e, e ∈ u.ms.tlb ↔ e ∈ s.ms.tlb ∧ tlbOfPeer s q e = false) ∧ peerReg u q = pkg + 2 ^ 16 * inc + 2 ^ 48 ∧
    ∀ p, p ≠ q → peerReg u p = peerReg s p

/-! ## Health, starts and the fleet window -/

/-- The Fettler's pass over an array class (R373): the entry that is next, since when the pass runs, how many entries the class has, and
the aclk that a pass takes. -/
def Claims.pass (s : State) (cls : Nat) : Nat × Nat × Nat × Nat :=
  (storeGet 0 s.mg.scrub (2 * cls), storeGet 0 s.mg.scrub (2 * cls + 1), Config.arraySize cls + 1, (devReg s 0x1C5).toNat % 256 * 4320000000000)

/-- HealthEvents (R60, R323, R373 to R375, R377, R379 to R381): an audit takes every object operated on since the last and logs each link
loop whose sum differs; the Fettler reads the entries of a class in turn, evenly over its pass; an array error is counted by its class, drops
a clean copy, ends the context that owns the entry, zeroed, recalls the region of a rebuildable one, or halts the unit; a corrupt packet is
counted, and after three retries its request fails; a heartbeat that has not changed counts as missed, the second in a row halting the unit;
a resumed unit acts again, and what a discarded one had is over. Rests on the model's choices of notes/assumptions 48, 53, 54, 103. -/
def Obligations.HealthEvents : Prop :=
  (∀ (s : State) (links : List (Nat × Nat × Nat × Nat)), storeGet 0 s.mg.last 1 + (devReg s 0x1C4).toNat % 256 * 120000 ≤ s.acnt.toNat →
    let t := s.wk.audits.foldl auditOne { s with mg := { s.mg with last := storeSet 0 s.mg.last 1 s.acnt.toNat } }
    exec (.assayAudit links) s = .next ((links.filter fun l => l.2.1 + l.2.2.1 + l.2.2.2 ≠ Config.linkCredits l.1).foldl
      (fun t l => logError t 0xE4 1 0xFFFF l.1 0 1) { t with wk := { t.wk with audits := [] } })) ∧
  (∀ (s : State) (err : ArrayError) (e : ArrayEntryAt), let (at_, since, size, pass) := Claims.pass s (arrayClass e)
    (s.acnt.toNat < since + at_ * pass / size → exec (.scrubRead true err e) s = .next s) ∧
    (since + at_ * pass / size ≤ s.acnt.toNat → ∃ u : State, exec (.scrubRead true .none e) s = .next u ∧
      exec (.scrubRead true err e) s = exec (.scrubRead false err e) u ∧ u = { s with mg := { s.mg with scrub := u.mg.scrub } } ∧
      storeGet 0 u.mg.scrub (2 * arrayClass e) = (if size ≤ at_ + 1 then 0 else at_ + 1) ∧
      storeGet 0 u.mg.scrub (2 * arrayClass e + 1) = if size ≤ at_ + 1 then since + pass else since)) ∧
  (∀ (s : State) (e : ArrayEntryAt), let cls := arrayClass e
    exec (.scrubRead false .none e) s = .next s ∧
    ∃ u, exec (.scrubRead false .correctable e) s = .next u ∧ u.g = s.g ∧ u.others = s.others ∧
      storeGet 0 u.mg.counts cls = min (storeGet 0 s.mg.counts cls + 1) (2 ^ 64 - 1) ∧
      ∀ i < 19, fleetReg u (0x400 + 8 * i) = if (i = 0 ∧ cls ∈ [0, 1, 3, 6]) ∨ (i = 1 ∧ cls ∈ [4, 5, 8, 9]) then
          min (fleetReg s (0x400 + 8 * i) + 1) (2 ^ 64 - 1) else fleetReg s (0x400 + 8 * i)) ∧
  (∀ (s : State) (e : ArrayEntryAt), heldAt s e = .clean → ∃ u, exec (.scrubRead false .uncorrectable e) s = .next u ∧ u.g = s.g ∧
    u.others = s.others ∧ (∀ i < 19, fleetReg u (0x400 + 8 * i) = fleetReg s (0x400 + 8 * i)) ∧
    storeGet 0 u.mg.counts (arrayClass e) = min (storeGet 0 s.mg.counts (arrayClass e) + 1) (2 ^ 64 - 1) ∧
    u.ms.tlb = match e with | .translation n => s.ms.tlb.eraseIdx n | _ => s.ms.tlb) ∧
  (∀ (s : State) (e : ArrayEntryAt) (who : Option (Nat × Nat)), heldAt s e = .owned who → let z := zeroEntry s e
    let ends := who.bind fun w => onCtx z w.1 w.2 fun t => endContext t (if hmode t.g then 0xE2 else 0xE1)
    (∀ t, ends = some t → exec (.scrubRead false .uncorrectable e) s = .next (countFleet t 2 1)) ∧
    (ends = none → exec (.scrubRead false .uncorrectable e) s = .next z)) ∧
  (∀ (s : State) (a : Nat), exec (.scrubRead false .uncorrectable (.directory a)) s =
    .next (recallRegion (countFleet (countClass s 8 a) 3 1) (Config.covered a))) ∧
  (∀ (s : State) (unit a : Nat), ∃ u, exec (.scrubRead false .uncorrectable (.device unit a)) s = .next u ∧ unit ∈ u.mg.halted) ∧
  (∀ (s : State) (vf ident n level c k : Nat), let dirty (w : WriteRec) : Prop := w.arrived = none ∧ w.strong = none ∧ w.key / 64 = c
    heldAt s (.register vf ident) = .owned (some (vf, ident)) ∧ heldAt s (.tile vf ident) = .owned (some (vf, ident)) ∧
    heldAt s (.code n) = .clean ∧ heldAt s (.translation n) = .clean ∧ heldAt s (.copy n) = .clean ∧
    heldAt s (.logged n) = .owned (s.ms.log[n]?.map fun e => (e.vf, e.ident)) ∧
    ((∀ w ∈ s.ms.hist, ¬dirty w) → heldAt s (.line level c) = .clean) ∧
    ((∃ w ∈ s.ms.hist, dirty w) → ∃ who, heldAt s (.line level c) = .owned who) ∧
    (∀ w ∈ s.ms.hist, dirty w → homeByte (zeroEntry s (.line level c)) w.key = 0) ∧
    (zeroEntry s (.logged n)).ms.log = s.ms.log.eraseIdx n ∧
    ∀ key, homeByte (zeroEntry s (.vault k)) key = if key = k then 0 else homeByte s key) ∧
  (∀ (s : State) (port tries vf ident win : Nat) (lanes : Mask),
    let n := min tries 3
    let t := logError (countFleet s 4 n) 0 1 0xFFFF port 0 (min (fleetReg s 0x420 + n) (2 ^ 64 - 1))
    let v := countFleet t 5 1
    let hit : Nat → Nat → Bool := fun l _ => l == 32 || lanes.getLsbD l
    (tries ≤ 3 → exec (.linkPacketCorrupt port tries vf ident win lanes) s = .next t) ∧
    (∀ c w x, 3 < tries → ctxOf v vf ident = some c → c.wins[win]? = some w → cutWindow hit w = some x →
      exec (.linkPacketCorrupt port tries vf ident win lanes) s =
        .next (updCtx v vf ident fun c => withOld { c with wins := setAt c.wins win x.1 } x.2)) ∧
    (3 < tries → (∀ c w, ctxOf v vf ident = some c → c.wins[win]? = some w → cutWindow hit w = none) →
      exec (.linkPacketCorrupt port tries vf ident win lanes) s =
        .next { v with hub := { v.hub with lost := some ⟨vf, ident, lanes, v.free + 1⟩ } })) ∧
  (∀ s : State, let tick := nanos s.tnow / 1000000
    let entry (unit : Nat) := physNat s ((devReg s 0x1C2).toNat % 2 ^ 56 / 4096 * 4096 + 8 * unit) 8
    let missed (unit : Nat) : Prop := (entry unit).testBit 32 = true ∧ unit ∉ s.mg.halted ∧
      (∀ c ∈ s.mg.cores, coreOfUnit unit c = false) ∧ storeGet 0 s.mg.beats unit = entry unit % 2 ^ 32 + 1
    storeGet 0 s.mg.last 2 < tick → (∀ unit < 160, missed unit → storeGet 0 s.mg.misses unit = 0) →
    ∃ u, exec .heartbeatSample s = .next u ∧ u = { s with mg := { s.mg with last := u.mg.last, beats := u.mg.beats, misses := u.mg.misses } } ∧
      storeGet 0 u.mg.last 2 = tick ∧
      ∀ unit < 160, (missed unit → storeGet 0 u.mg.misses unit = 1) ∧ (¬missed unit → storeGet 0 u.mg.misses unit = 0)) ∧
  (∀ s : State, storeGet 0 s.mg.last 2 < nanos s.tnow / 1000000 → exec .heartbeatSample s = .next ((upto 160).foldl sampleBeat
    { s with mg := { s.mg with last := storeSet 0 s.mg.last 2 (nanos s.tnow / 1000000) } })) ∧
  (∀ (s : State) (unit : Nat), let x := physNat s ((devReg s 0x1C2).toNat % 2 ^ 56 / 4096 * 4096 + 8 * unit) 8
    x.testBit 32 = true → unit ∉ s.mg.halted → (∀ c ∈ s.mg.cores, coreOfUnit unit c = false) →
    storeGet 0 s.mg.beats unit = x % 2 ^ 32 + 1 → storeGet 0 s.mg.misses unit = 1 →
    unit ∈ (sampleBeat s unit).mg.halted ∧ ((sampleBeat s unit).mg.misses = storeSet 0 s.mg.misses unit 0)) ∧
  (∀ (s : State) (unit : Nat), (unit ∉ s.mg.halted → (∀ c ∈ s.mg.cores, coreOfUnit unit c = false) →
      exec (.mcmdResume unit) s = .next s) ∧
    ∃ u, exec (.mcmdResume unit) s = .next u ∧ unit ∉ u.mg.halted ∧ ∀ c ∈ u.mg.cores, coreOfUnit unit c = false) ∧
  ∀ (s : State) (unit : Nat), (unit ∉ s.mg.halted → exec (.mcmdDiscard unit) s = .next s) ∧
    (unit ∈ s.mg.halted → let t := { s with
        en := { s.en with saved := s.en.saved.filter fun x => ¬(x.by_ = 2 ∧ x.unit = unit) } }
      ((∀ x ∈ s.en.saved, ¬(x.by_ = 2 ∧ x.unit = unit)) → exec (.mcmdDiscard unit) s = .next t) ∧
      ∀ x, s.en.saved.filter (fun x => x.by_ = 2 ∧ x.unit = unit) = [x] → exec (.mcmdDiscard unit) s = .next (match x.who.gang with
        | some g => endGang (noteEnd (failGang t g 0xE3) g x.ids) g
        | none => joinFor t ⟨x.who.vf, x.who.ident, x.mode, x.who.loc.die⟩ (issuingCluster x.who.loc)
            (physNat t x.area 4 / 2 ^ 23 % 4) x.who.join true 0xE3 x.ids))

/-- MSTAT as a start shows it (R366): its kind, whether it has failed, the tiers kept so far, its step and the SVN of its image. -/
def Claims.mstat (b : Boot) (fail step : Nat) : DWord :=
  BitVec.ofNat 64 (b.kind + 4 * fail + (if b.keptL = true ∧ b.trained.testBit 0 = true then 8 else 0) +
    (if b.trained.testBit 1 = true then 16 * b.keptH else 0) + 4096 * step + 65536 * (b.svn % 65536))

/-- MEAS after bytes have been loaded (R370). -/
def Claims.extended (m : Nat) (x : List Byte) : Nat := Config.sm3 (bytesOfNat 32 m ++ bytesOfNat 32 (Config.sm3 x))

/-- MEAS holds a digest. -/
def Claims.measured (u : State) (m : Nat) : Prop := ∀ i < 8, devReg u (0x1D0 + i) = BitVec.ofNat 64 (m / 2 ^ (32 * i) % 2 ^ 32)

/-- MEAS as a digest. -/
def Claims.measure (s : State) : Nat := natOfBytes ((List.range 8).flatMap fun i => bytesOfNat 4 (devReg s (0x1D0 + i)).toNat)

/-- StartEvents (R366 to R368, R370 to R372, R383, R384): a start begins from reset with the measurement of its image, or stops at its first
steps; its units are powered and its tiers trained in order, PSTEP apart and each once the rails before are in regulation, and what is left zeroes what is not kept, brings the peers of the
saved topology back, leaves the self-test's results, extends MEAS by each image, raises PKGINC and sets MSTAT; a failed one stops at its step;
a report answers a request; a fuse command signed under a slot not revoked has its effect, another none; a checkpoint saves and copies and
sets DONE, but not after a trip; a restore refuses a manifest that is not complete or of another identity, and else brings back what agrees,
with the contexts that were saved. Rests on the model's choices of notes/assumptions 26, 27, 57, 58, 59, 104, 105. -/
def Obligations.StartEvents : Prop :=
  (∀ (s : State) (primary backup : List Byte) (images : List (List Byte)) (hw : Hardware) (keptL : Bool) (keptH : BitVec 8)
      (selftest : List Byte) (warm : Bool),
    let i : Instr := if warm then .warmStart primary backup images hw keptL keptH selftest
      else .coldStart primary backup images hw selftest
    let b : Boot := if warm then ⟨2, 0, hw, keptL, keptH.toNat, 0, images, [], selftest⟩
      else ⟨1, 0, hw, false, 0, 0, images, [], selftest⟩
    let broken := hw.broken
    let begun (u : State) (boot : Option Boot) : Prop := u = { State.reset with
        agenda := s.agenda, free := s.free, fresh := s.fresh, dev := u.dev
        ms := { State.reset.ms with mem := arrivedMem s }
        mg := { State.reset.mg with fuses := s.mg.fuses, ckSaved := s.mg.ckSaved, ckGangs := s.mg.ckGangs, boot := boot } } ∧
      devReg u 0x181 = devReg s 0x181 ∧
      ∀ n, n ≠ 0x181 → n ≠ 0x1C0 → ¬(0x1D0 ≤ n ∧ n < 0x1D8) → devReg u n = devReg State.reset n
    (warm = true → s.mg.tripped = true → exec i s = .next s) ∧
    ((warm = true → s.mg.tripped = false) →
      (∀ k ∈ [1, 2], broken = k → ∃ u, exec i s = .next u ∧ begun u none ∧ devReg u 0x1C0 = Claims.mstat b 1 k) ∧
      (broken ≠ 1 → broken ≠ 2 → [primary, backup].find? (imageOk s.mg.fuses) = none →
        ∃ u, exec i s = .next u ∧ begun u none ∧ devReg u 0x1C0 = Claims.mstat b 1 3) ∧
      ∀ x, broken ≠ 1 → broken ≠ 2 → [primary, backup].find? (imageOk s.mg.fuses) = some x →
        let b := { b with svn := imgField x 4 4, peers := s.hub.peers }
        ∃ u, exec i s = .next u ∧ begun u (if broken = 3 then none else some b) ∧ Claims.measured u (Claims.extended 0 (imgBytes x)) ∧
          devReg u 0x1C0 = Claims.mstat b (if broken = 3 then 1 else 0) 3)) ∧
  (∀ s : State, (∀ b, s.mg.boot = some b → s.acnt.toNat < storeGet 0 s.mg.last 8 + max 24000 (b.hw.rails.getD s.mg.powered 0)) →
    exec .unitPowerUp s = .next s) ∧
  (∀ (s : State) (b : Boot), s.mg.boot = some b → storeGet 0 s.mg.last 8 + max 24000 (b.hw.rails.getD s.mg.powered 0) ≤ s.acnt.toNat →
    let n := s.mg.powered + 1
    let t : State := { s with mg := { s.mg with last := storeSet 0 s.mg.last 8 s.acnt.toNat } }
    let shown (b : Boot) (fail step : Nat) := setDevReg t 0x1C0 (Claims.mstat b fail step)
    let trains (tier : Nat) : Prop := (tier = 0 ∧ n = 3 ∨ tier = 1 ∧ n = 12) ∧ b.trained.testBit tier = false
    (∀ tier, trains tier → let b' := { b with trained := b.trained + 2 ^ tier }
      exec .unitPowerUp s = .next { shown b' (if b.hw.broken = 4 + tier then 1 else 0) (4 + tier) with
        mg := { t.mg with boot := if b.hw.broken = 4 + tier then none else some b' } }) ∧
    (n = 14 → b.hw.broken = 6 → exec .unitPowerUp s = .next { shown b 1 6 with mg := { t.mg with boot := none } }) ∧
    ((∀ tier, ¬trains tier) → (n = 14 → b.hw.broken ≠ 6) → n ≤ 77 → exec .unitPowerUp s =
      .next { shown b 0 (if n ≤ 2 then 4 else if n ≤ 13 then 5 else 6) with mg := { t.mg with
        powered := n, clocks := if n = 14 ∨ n = 15 then storeSet 0 s.mg.clocks (n - 14) s.acnt.toNat else s.mg.clocks } })) ∧
  (∀ (s : State) (b : Boot), s.mg.boot = some b → storeGet 0 s.mg.last 8 + max 24000 (b.hw.rails.getD s.mg.powered 0) ≤ s.acnt.toNat → 77 ≤ s.mg.powered →
    let bad := failedBits b.selftest
    (∀ k ∈ [7, 8, 9, 10, 11], (b.hw.broken = k ∧ (k = 11 → bad = [])) ∨ (k = 10 ∧ bad ≠ [] ∧ b.hw.broken ∉ [7, 8, 9]) →
      ∃ u, exec .unitPowerUp s = .next u ∧ devReg u 0x1C0 = Claims.mstat b 1 k ∧ u.mg.boot = none) ∧
    (b.hw.broken ∉ [7, 8, 9, 10, 11] → bad = [] → ∃ u, exec .unitPowerUp s = .next u ∧ u.mg.boot = none ∧
      devReg u 0x1C0 = Claims.mstat b 0 11 ∧ devReg u 0x181 = BitVec.ofNat 64 (((devReg s 0x181).toNat + 1) % 2 ^ 32) ∧
      (devReg u 0x112).toNat % 4096 = 70 ∧
      (Claims.measured s (Claims.measure s) → Claims.measured u (b.images.foldl Claims.extended (Claims.measure s))) ∧
      ((b.kind = 2 ∧ ∀ q < 72, b.hw.links.getD q 0 = (storeGet 0 b.peers q).toNat % 2 ^ 16) → u.hub.peers = b.peers) ∧
      (¬(b.kind = 2 ∧ ∀ q < 72, b.hw.links.getD q 0 = (storeGet 0 b.peers q).toNat % 2 ^ 16) → u.hub.peers = s.hub.peers) ∧
      ∀ key, if resultKey ≤ key ∧ key < resultKey + 76 then
          homeByte u key = if key < resultKey + 72 then b.selftest.getD (key - resultKey) 0 else 0
        else homeByte u key = if key / 2 ^ 58 ≠ 1 ∧ startKeeps b.keptL b.keptH key = true then homeByte s key else homeByte State.reset key)) ∧
  (∀ (s : State) (x : DWord), (s.mg.attest = none → exec (.attestationRequest x) s =
      .next { setDevReg s 0x1CE x with mg := { s.mg with attest := some x.toNat } }) ∧
    (s.mg.attest ≠ none → exec (.attestationRequest x) s = .next s)) ∧
  (∀ (s : State) (a : Nat), s.mg.attest = some a →
    let body := bytesOfNat 4 0x54414B46 ++ bytesOfNat 2 (pkgId s) ++ bytesOfNat 2 0 ++ bytesOfNat 4 (devReg s 0x181).toNat ++
      bytesOfNat 4 ((devReg s 0x1C0).toNat / 2 ^ 16 % 2 ^ 16) ++ eidBytes s ++ measBytes s ++ bytesOfNat 32 (physNat s a 32) ++
      bytesOfNat 64 (Config.identityKey s.mg.fuses.seed)
    let t := devPutKeys s (physKeys s (physNat s (a + 32) 8) 240)
      (body ++ bytesOfNat 64 (Config.sm2Sign s.mg.fuses.seed (Config.sm3 body)))
    body.length = 176 ∧ exec .attestationReport s = .next { physPut t (a + 40) 1 1 with mg := { s.mg with attest := none } }) ∧
  (∀ (s : State) (raise : Bool) (value : Nat) (key sig : List Byte),
    let f := s.mg.fuses
    let signed := slotHolds f (Config.sm3 key) = true ∧
      Config.sm2Verify key (Config.sm3 (bytesOfNat 4 (if raise then 0 else 1) ++ bytesOfNat 4 value)) sig = true
    (¬signed → exec (.signedFuseCommand raise value key sig) s = .next s) ∧
    (signed → ∃ g, exec (.signedFuseCommand raise value key sig) s = .next { s with mg := { s.mg with fuses := g } } ∧
      (raise = true → g = { f with svnmin := max f.svnmin value }) ∧
      (raise = false → g = { f with revoked := g.revoked } ∧ ∀ i < 4, g.revoked.testBit i = (f.revoked.testBit i || value.testBit i)))) ∧
  (∀ s : State, ckGo s = true → ckDone s = false → qGo s = false →
    let w := saveAll s (fun _ => true) 1
    let t := (upto 12).foldl saveSection
      (arriveAt { w with mg := { w.mg with ckSaved := w.en.saved, ckGangs := w.wk.gangs } } fun _ => true)
    let m (finish : Bool) := writeManifest ((upto 12).foldl writeSection t) finish
    (s.mg.tripped = true → ∀ finish, exec (.checkpointStart finish) s = .next s) ∧
    (s.mg.tripped = false → exec (.checkpointStart false) s = .next (m false) ∧
      ∃ u, exec (.checkpointStart true) s = .next u ∧ u = { m true with dev := u.dev } ∧ ckDone u = true ∧
        ∀ n, n ≠ 0x1CC → devReg u n = devReg (m true) n)) ∧
  ∀ s : State, let refused (t : State) := Host.Outcome.next (logError (zeroTiers t) 0 0 0xFFFF 0 (ckBase t) 1)
    let whole := (physNat s (ckBase s + 4) 4).testBit 0 = true ∧ bytesOfNat 32 (physNat s (ckBase s + 16) 32) = eidBytes s
    let t := (upto 12).foldl restoreSection s
    let agrees := ∀ i < 12, sectionKept t i = true ∨ sectionDigest t i = sectionField s i 32 32
    (¬whole → exec .restore s = refused s) ∧ (whole → ¬agrees → exec .restore s = refused t) ∧
      (whole → agrees → exec .restore s = .next { t with
        en := { t.en with saved := t.mg.ckSaved ++ t.en.saved.filter fun x => ∀ y ∈ t.mg.ckSaved, y.who.uid ≠ x.who.uid }
        wk := { t.wk with gangs := t.wk.gangs ++ t.mg.ckGangs.filter fun g => ∀ h ∈ t.wk.gangs, h.num ≠ g.num } })

/-- TimeAndPowerEvents (R317, R372, R386, R393, R394): the servo steps TNOW forward or slows it until it agrees, and a lost
grandmaster clears LOCK; PCAP takes at most 2800 W, the comparator asks for one level more while the mean of 100 µs is above it,
and an unfollowed request detaches the dies; a trip stops issue and takes what the vaults and the HBM4E held; sensors are sampled, with the mean
of the power samples of 100 ms; counters are copied and cleared. Rests on the model's choices of notes/assumptions 4, 55, 60. -/
def Obligations.TimeAndPowerEvents : Prop :=
  let mark (s : State) (t : Throttle) : Throttle := { t with unlockedAt := some (t.unlockedAt.getD s.acnt.toNat) }
  (∀ (s : State) (t : DWord), (devReg s 0x062).getLsbD 0 = false →
    (nanos s.tnow ≤ nanos t → exec (.servoLock t) s = .next { setDevReg s 0x062 1 with
      tnow := ofNanos (nanos t), mg := { s.mg with slew := none }
      fl := { s.fl with d0 := { s.fl.d0 with unlockedAt := none }, d1 := { s.fl.d1 with unlockedAt := none } } }) ∧
    (nanos t < nanos s.tnow → exec (.servoLock t) s = .next { s with mg := { s.mg with slew := some (nanos s.tnow - nanos t) } })) ∧
  (∀ s : State, exec .grandmasterLoss s = .next { setDevReg s 0x062 0 with
    mg := { s.mg with slew := none }, fl := { s.fl with d0 := mark s s.fl.d0, d1 := mark s s.fl.d1 } }) ∧
  (∀ s : State, s.mg.slew = some 0 → exec .tnowAgreement s = .next { setDevReg s 0x062 1 with
    mg := { s.mg with slew := none }
    fl := { s.fl with d0 := { s.fl.d0 with unlockedAt := none }, d1 := { s.fl.d1 with unlockedAt := none } } }) ∧
  (∀ (s : State) (x : DWord), exec (.pcapWrite x) s = .next (setDevReg s 0x1C9 (BitVec.ofNat 64 (min (x.toNat % 4096) 2800)))) ∧
  (∀ (s : State) (watts : Nat), storeGet 0 s.mg.last 5 + 12000 ≤ s.acnt.toNat →
    let ws := (watts :: s.mg.watts).take 10000
    let high := (ws.take 10).length = 10 ∧ 10 * ((devReg s 0x1C9).toNat % 4096) < (ws.take 10).sum
    ∃ u : State, exec (.powerCapSample watts) s = .next u ∧ u = { s with
        mg := { s.mg with last := storeSet 0 s.mg.last 5 s.acnt.toNat, watts := ws }
        fl := { s.fl with d0 := { s.fl.d0 with ask := u.fl.d0.ask }, d1 := { s.fl.d1 with ask := u.fl.d1.ask } } } ∧
      ∀ d < 2, (¬high → (tg u d).ask = none) ∧ (high → ((tg u d).ask.map (·.1)) = some (min 4 (levelOf s d + 1)) ∧
        ((tg s d).ask.map (·.1) = some (min 4 (levelOf s d + 1)) → (tg u d).ask = (tg s d).ask) ∧
        ((tg s d).ask.map (·.1) ≠ some (min 4 (levelOf s d + 1)) → (tg u d).ask.map (·.2) = some s.acnt.toNat))) ∧
  (∀ s : State, (∃ d < 2, ∃ l since, (tg s d).ask = some (l, since) ∧ levelOf s d < l ∧ since + 1200000 ≤ s.acnt.toNat) →
    ∃ u : State, exec .powerCapFallback s = .next u ∧ u = { s with fl := u.fl, mg := { s.mg with last := u.mg.last } } ∧
      ∀ d < 2, tgOn s d = true → detached u d = true ∧
        (detached s d = false → (tg u d).request = requestOf s d ∧ (tg u d).pend = none)) ∧
  (∀ (s : State) (unit temp : Nat), (if unit < 8 then 112 else 115) ≤ temp → ∃ u, exec (.thermalTrip unit temp) s = .next u ∧
    u.mg.tripped = true ∧ u.mg.powered ≤ 3 ∧ (∀ c, mayAct u c = false) ∧ (∀ c ∈ allCtx u, c.who.loc.die = 2) ∧
    ∀ key, (key / 2 ^ 58 = 1 ∨ (16 ≤ key / 2 ^ 58 ∧ key / 2 ^ 58 < 32)) → homeByte u key = homeByte State.reset key) ∧
  (∀ (s : State) (inlet outlet : Nat) (temps0 temps1 : List Nat), storeGet 0 s.mg.last 6 + 1200000 ≤ s.acnt.toNat →
    inlet < 4096 → outlet < 4096 →
    let watts := min (if s.mg.watts = [] then 0 else s.mg.watts.sum / s.mg.watts.length) 4095
    let env := 220 < inlet ∨ watts * 400 < (outlet - inlet) * 23868
    ∃ u, exec (.sensorSample inlet outlet temps0 temps1) s = .next u ∧
      fleetReg u 0 = inlet + 2 ^ 16 * outlet + 2 ^ 32 * watts + (if env then 2 ^ 44 else 0) ∧
      fleetReg u 0x490 = (if env then min (fleetReg s 0x490 + 1) (2 ^ 64 - 1) else fleetReg s 0x490) ∧
      (∀ i < 8, let t := if i < 4 then temps0.getD i 0 else temps1.getD (i - 4) 0; let old := fleetReg s (0x10 + 4 * i); let new := fleetReg u (0x10 + 4 * i)
        new % 256 = min t 255 ∧
        (old / 2 ^ 8 % 4 < band t → new / 2 ^ 8 % 4 = band t) ∧
        (band t ≤ old / 2 ^ 8 % 4 → new / 2 ^ 8 % 4 ≠ old / 2 ^ 8 % 4 →
          (new / 2 ^ 8 % 4 = 0 ∧ storeGet 0 s.fl.below (16 + i) = 9 ∧ old / 2 ^ 8 % 4 ≠ 0 ∧ t ≤ 84) ∨
          (new / 2 ^ 8 % 4 = 1 ∧ storeGet 0 s.fl.below i = 9 ∧ old / 2 ^ 8 % 4 = 2 ∧ t ≤ 94)) ∧
        (106 ≤ t → new.testBit 10 = true) ∧ (old.testBit 10 = false → t < 106 → new.testBit 10 = false) ∧
        (old.testBit 10 = true → t < 106 → (new.testBit 10 = false ↔ t ≤ 104 ∧ storeGet 0 s.fl.below (8 + i) = 9))) ∧
      ∀ m ∈ [1, 2], fleetReg u (0x478 + 8 * m) = min (fleetReg s (0x478 + 8 * m) +
        ((List.range 8).filter fun i => fleetReg u (0x10 + 4 * i) / 2 ^ 8 % 4 = m).length) (2 ^ 64 - 1)) ∧
  (∀ s : State, storeGet 0 s.mg.last 7 + 120000000 ≤ s.acnt.toNat →
    let t := { s with mg := { s.mg with last := storeSet 0 s.mg.last 7 s.acnt.toNat } }
    ∃ u, exec .counterCopy s = .next u ∧
    ∀ i < 19, fleetReg u (0x400 + 8 * i) = match i with
      | 6 => ladleSum t 220 % 2 ^ 64 | 8 => ladleSum t 192 % 2 ^ 64 | 9 => ladleSum t 200 % 2 ^ 64 | 10 => ladleSum t 204 % 2 ^ 64
      | 11 => ladleSum t 208 % 2 ^ 64 | 12 => drelSum t % 2 ^ 64 | _ => fleetReg s (0x400 + 8 * i)) ∧
  ∀ s : State, ∃ u, exec .counterClear s = .next u ∧ u = { s with fl := { s.fl with win := u.fl.win } } ∧
    (∀ i < 19, fleetReg u (0x400 + 8 * i) = 0) ∧
    ∀ off, (off < 0x400 ∨ 0x498 ≤ off) → fleetReg u off = fleetReg s off

/-- A coordinator's last announcement whose T has not come for the group (R390). -/
def Claims.Pending (t : Throttle) (a : Announce) : Prop := (∃ rest, t.sent = a :: rest) ∧ t.since < a.at_

/-- A coordinator has sent an announcement, which nobody has acknowledged. -/
def Claims.announced (s : State) (d : Nat) (a : Announce) : State := setTg s d { tg s d with sent := a :: (tg s d).sent, acks := [] }

/-- A die registers in the group of another of its package. -/
def Claims.sameGroup (s : State) (d e : Nat) : Prop :=
  tgOn s d = true ∧ tgReg s d = true ∧ fleetReg s (cfgAt d) / 2 ^ 8 % 256 = fleetReg s (cfgAt e) / 2 ^ 8 % 256

/-- ThrottleEvents (R389 to R392): a member's request reaches its coordinator, which announces a raise at once and a fall after
10 ms, again while some member has not acknowledged; a member holds an announced level until its instant, or applies one already
past, unless it is detached or the part has tripped; registrations, acknowledgements and withdrawals change the members and the coordinator,
which is the lowest member; a member that has lost its group applies its own request at the grid. Rests on the model's choices of
notes/assumptions 60. -/
def Obligations.ThrottleEvents : Prop :=
  (∀ (s : State) (die pkg mdie req : Nat), pkg ≠ pkgId s → coordinates s die = true →
    storeGet 0 (tg s die).members (memberKey pkg mdie) ≠ 0 →
    let m := storeSet 0 (tg s die).members (memberKey pkg mdie) (min req 4 + 1)
    exec (.tgRequest die pkg mdie req) s = .next (coordinate (setTg s die { tg s die with members := m }) die)) ∧
  (∀ (s : State) (die mdie req : Nat), requestOf s mdie ≠ (tg s mdie).request →
    let r := requestOf s mdie
    let t := markGrid (setTg s mdie { tg s mdie with request := r, raisedAt := if levelOf s mdie < r then some s.acnt.toNat else none }) mdie
    (tgOn s mdie = false ∨ tgReg s mdie = false ∨ ownCoord t mdie = none → exec (.tgRequest die (pkgId s) mdie req) s = .next t) ∧
    (tgOn s mdie = true → tgReg s mdie = true → ∀ c, ownCoord t mdie = some c → exec (.tgRequest die (pkgId s) mdie req) s =
      .next (takeRequest t c (memberKey (pkgId s) mdie) r))) ∧
  (∀ (s : State) (d : Nat), let t := tg s d
    let soonest := nanos s.tnow + 10000 * (fleetReg s (cfgAt d) / 2 ^ 16 % 256)
    ((wanted t ≤ t.level ∨ ∃ a, Claims.Pending t a ∧ wanted t ≤ a.level ∧ t.level < a.level) → coordinate s d = s) ∧
    (t.level < wanted t → (∀ a, Claims.Pending t a → a.level < wanted t ∨ a.level ≤ t.level) →
      ∃ a : Announce, coordinate s d = Claims.announced s d a ∧ a.level = wanted t ∧ a.at_ % 10000 = 0 ∧
        soonest ≤ a.at_ ∧ a.at_ < soonest + 10000 ∧ ∀ b rest, t.sent = b :: rest → a.seq = (b.seq + 1) % 2 ^ 16)) ∧
  (∀ (s : State) (d : Nat), let t := tg s d
    coordinates s d = true → wanted t < t.level → (∀ a, ¬Claims.Pending t a) → t.since + 10000000 ≤ nanos s.tnow →
    ∃ a : Announce, exec (.tgDwellExpiry d) s = .next (Claims.announced s d a) ∧ a.level = t.level - 1) ∧
  (∀ (s : State) (d : Nat) (acked : List Nat) (a : Announce), let t := tg s d
    Claims.Pending t a → coordinates s d = true → a.at_ ≤ nanos s.tnow + 10000 →
    (∃ e ∈ t.members, if e.1 / 2 = pkgId s then e.1 ∉ t.acks else e.1 ∉ acked) →
    exec (.tgAckTimeout d acked) s = .next (Claims.announced s d
      ⟨a.level, a.at_ + 10000 * (fleetReg s (cfgAt d) / 2 ^ 16 % 256), (a.seq + 1) % 2 ^ 16⟩)) ∧
  (∀ (s : State) (d level at_ seq nmem : Nat), let a : Announce := ⟨min level 4, at_, seq % 2 ^ 16⟩
    d < 2 → tgOn s d = true → tgReg s d = true → detached s d = false → ownCoord s d = none → nmem < 256 →
    (∀ p, (tg s d).pend = some p → p.seq < a.seq) →
    ∃ u, exec (.tgAnnouncement d level at_ seq nmem) s = .next u ∧ stField u d 15 8 = nmem ∧ stField u d 63 48 = a.seq ∧
    (nanos s.tnow ≤ at_ → tg u d = { tg s d with raisedAt := none, pend := some a } ∧ levelOf u d = levelOf s d ∧
      stField u d 5 3 = a.level ∧ fleetReg u (atAt d) = (ofNanos at_).toNat) ∧
    (at_ < nanos s.tnow → s.mg.tripped = false → (tg u d).pend = none ∧
      levelOf u d = a.level ∧ fleetReg u (counterAt 14) = min (fleetReg s (counterAt 14) + 1) (2 ^ 64 - 1)) ∧
    (at_ < nanos s.tnow → s.mg.tripped = true → levelOf u d = levelOf s d ∧ fleetReg u (counterAt 13) = fleetReg s (counterAt 13) ∧
      fleetReg u (counterAt 14) = fleetReg s (counterAt 14))) ∧
  (∀ (s : State) (d level at_ seq nmem : Nat), detached s d = true ∨ (∃ p, (tg s d).pend = some p ∧ seq % 2 ^ 16 ≤ p.seq) →
    exec (.tgAnnouncement d level at_ seq nmem) s = .next s) ∧
  (∀ (s : State) (d : Nat) (a : Announce), (tg s d).pend = some a →
    (s.mg.tripped = false → detached s d = false → a.at_ ≤ nanos s.tnow → exec (.tgStepApply d) s = .next (applyStep s d a)) ∧
    (s.mg.tripped = true ∨ detached s d = true ∨ nanos s.tnow < a.at_ → exec (.tgStepApply d) s = .next s)) ∧
  (∀ (s : State) (d : Nat) (a : Announce), d < 2 → a.level < 8 → coordinates s d = false →
    levelOf (applyStep s d a) d = a.level ∧ stField (applyStep s d a) d 5 3 = a.level ∧
    tg (applyStep s d a) d = { tg s d with
      pend := none, raisedAt := if (tg s d).request ≤ a.level then none else (tg s d).raisedAt } ∧
    tg (applyStep s d a) (d + 1) = tg s (d + 1) ∧
    fleetReg (applyStep s d a) (counterAt 13) = min (fleetReg s (counterAt 13) + 1) (2 ^ 64 - 1)) ∧
  (∀ (s : State) (die mdie : Nat), (tgOn s mdie = true → exec (.tgRegister die (pkgId s) mdie) s = .next s) ∧
    (tgOn s mdie = false → ∃ u, exec (.tgRegister die (pkgId s) mdie) s = .next u ∧ tgOn u mdie = true)) ∧
  (∀ (s : State) (die pkg mdie : Nat), pkg ≠ pkgId s → pkg < 2 ^ 16 → coordinates s die = true →
    let key := memberKey pkg mdie
    let t := setTg s die { tg s die with members := storeSet 0 (tg s die).members key (max 1 (storeGet 0 (tg s die).members key)) }
    (memberKey (pkgId s) die ≤ key → exec (.tgRegister die pkg mdie) s = .next t) ∧
    (key < memberKey (pkgId s) die → ∃ u, exec (.tgRegister die pkg mdie) s = .next u ∧ tg u 0 = tg t 0 ∧ tg u 1 = tg t 1 ∧
      ∀ d < 2, (Claims.sameGroup s d die → stField u d 31 16 = pkg ∧ stField u d 32 32 = mdie % 2) ∧
        (¬Claims.sameGroup s d die → fleetReg u (stAt d) = fleetReg s (stAt d))) ∧
    exec (.tgWithdraw die pkg mdie) s = .next (setTg s die { tg s die with members := storeSet 0 (tg s die).members key 0 })) ∧
  (∀ (s : State) (die mdie : Nat), (tgOn s mdie = false → exec (.tgWithdraw die (pkgId s) mdie) s = .next s) ∧
    (tgOn s mdie = true → ∃ u, exec (.tgWithdraw die (pkgId s) mdie) s = .next u ∧ tgOn u mdie = false ∧ tgReg u mdie = false ∧
      detached u mdie = false ∧ (tg u mdie).pend = none ∧ (tg u mdie).members = [])) ∧
  (∀ (s : State) (die pkg cdie nmem : Nat) (held : GroupHeld), tgOn s die = true → pkg < 2 ^ 16 → nmem < 256 →
    let key := memberKey pkg cdie
    (memberKey (pkgId s) die < key → exec (.tgRegisterAck die pkg cdie nmem held) s = .next s) ∧
    (pkg ≠ pkgId s ∨ cdie % 2 = die % 2 ∨ ownCoord s die = some (cdie % 2) → key ≤ memberKey (pkgId s) die →
      (∀ k, otherCoord s die = some k → key ≤ k) →
      ∃ u, exec (.tgRegisterAck die pkg cdie nmem held) s = .next u ∧ tgReg u die = true ∧ detached u die = false ∧
        stField u die 31 16 = pkg ∧ stField u die 32 32 = cdie % 2 ∧
        (pkg ≠ pkgId s → (∀ c < 2, coordinates s c = false) → stField u die 15 8 = nmem) ∧
        (pkg = pkgId s → cdie % 2 = die % 2 → coordinates u die = true ∧
          (ownCoord s die = none → (tg u die).level = min held.level 4 ∧ (tg u die).since = held.since) ∧
          ∀ c, ownCoord s die = some c → (tg u die).level = (tg s c).level))) ∧
  (∀ (s : State) (d : Nat) (path : Bool), tgOn s d = true → tgReg s d = true → detached s d = false →
    (path = true ∨ (∃ x, (tg s d).unlockedAt = some x ∧ x + 1200000 ≤ s.acnt.toNat) ∨
      ∃ x, (tg s d).raisedAt = some x ∧ x + 1200000 ≤ s.acnt.toNat) →
    ∃ u, exec (.tgDetach d path) s = .next u ∧ detached u d = true ∧
      tg u d = { tg s d with pend := none, raisedAt := none, tried := s.acnt.toNat } ∧ levelOf u d = levelOf s d) ∧
  (∀ (s : State) (d : Nat), (tgOn s d = false ∨ detached s d = true) → (tg s d).request ≠ levelOf s d → s.mg.tripped = false →
    storeGet 0 s.mg.last (gridTimer d) ≤ nanos s.tnow / 10000 → (tg s d).request < 8 →
    ∃ u, exec (.tgLocalStep d) s = .next u ∧ levelOf u d = (tg s d).request ∧
      fleetReg u (counterAt 15) = min (fleetReg s (counterAt 15) + 1) (2 ^ 64 - 1)) ∧
  ∀ (s : State) (d : Nat), tgOn s d = true → detached s d = true → (tg s d).tried + 120000000 ≤ s.acnt.toNat →
    exec (.tgRegisterRetry d) s = .next (setTg s d { tg s d with tried := s.acnt.toNat })
end

