-- ==== Sys2Proof/Laws/Issue.lean ====
section
/-! SUPPORT. What issuing and the selectors do: the frame of every selector, and when an instruction completes. -/

namespace Sys2Proof.Machine

/-! ## Selectors change sequencing state only -/

theorem Sequenced.refl (s : State) : Sequenced s s := by cases s; rfl

theorem Sequenced.trans {s t u : State} (h : Sequenced s t) (k : Sequenced t u) : Sequenced s u := by
  unfold Sequenced at *
  rw [h] at k
  exact k

theorem Sequenced.setSeq (s : State) (q : Seq) : Sequenced s (setSeq s q) := by
  unfold Machine.setSeq Sequenced
  split
  · rfl
  · split <;> rfl

theorem Sequenced.setPc (s : State) (pc : Addr) : Sequenced s (setPc s pc) := by
  unfold Machine.setPc Sequenced setG setCur
  split
  · rfl
  · split <;> rfl

theorem Sequenced.endPath (s : State) : Sequenced s (endPath s) := by
  unfold Machine.endPath Sequenced setG setCur
  split
  · rfl
  · split <;> rfl

/-! ## Changes of memory alone -/

/-- `t` is `s` but for memory and the fresh numbers. -/
def MemOnly (s t : State) : Prop := t = { s with ms := t.ms, fresh := t.fresh }

theorem MemOnly.refl (s : State) : MemOnly s s := rfl

theorem MemOnly.trans {s t u : State} (h : MemOnly s t) (k : MemOnly t u) : MemOnly s u := by
  unfold MemOnly at *
  rw [h] at k
  exact k

theorem MemOnly.ite {s t u : State} {p : Prop} [Decidable p] (h : MemOnly s t) (k : MemOnly s u) :
    MemOnly s (if p then t else u) := by split <;> assumption

theorem MemOnly.foldl {β : Type} (f : State → β → State) (hf : ∀ s x, MemOnly s (f s x)) (l : List β) (s : State) :
    MemOnly s (l.foldl f s) := by
  induction l generalizing s with
  | nil => rfl
  | cons x t ih => exact (hf s x).trans (ih _)

theorem memOnly_takeFresh (s : State) : MemOnly s (takeFresh s).2 := rfl

theorem MemOnly.putRec (s : State) (w : WriteRec) : MemOnly s (putRec s w) := rfl

theorem MemOnly.setMs (s : State) (ms : MemSys) : MemOnly s { s with ms := ms } := rfl

theorem memOnly_putBytes (s : State) (p : Party) (ev : Nat) (w : Option Nat) (b : Bool) (scope : Nat) (rels : List Rel) (ks : List Nat)
    (bs : List Byte) : MemOnly s (putBytes s p ev w b scope rels ks bs) := MemOnly.foldl _ (fun _ _ => MemOnly.putRec ..) _ _

theorem memOnly_devPutKeys (s : State) (ks : List Nat) (bs : List Byte) : MemOnly s (devPutKeys s ks bs) :=
  (memOnly_takeFresh s).trans (MemOnly.foldl _ (fun _ _ => MemOnly.ite (MemOnly.setMs ..) (MemOnly.putRec ..)) _ _)

theorem memOnly_physPut (s : State) (pa n x : Nat) : MemOnly s (physPut s pa n x) := memOnly_devPutKeys ..

theorem memOnly_markEntry (s : State) (p : Page) (m : Nat) : MemOnly s (markEntry s p m) :=
  MemOnly.ite (MemOnly.foldl _ (fun _ _ => MemOnly.ite (MemOnly.refl _) (memOnly_physPut ..)) _ _)
    (MemOnly.ite (MemOnly.refl s) (memOnly_physPut ..))

theorem memOnly_noteWalk (s : State) (a : Acc) (u : Use) (va : Nat) (p : Page) : MemOnly s (noteWalk s a u va p) := by
  unfold noteWalk
  exact MemOnly.ite (MemOnly.refl s) ((memOnly_markEntry s p _).trans (MemOnly.ite (MemOnly.refl _) (MemOnly.setMs ..)))

theorem memOnly_quieten (s : State) (ev : Nat) (m : Mask) : MemOnly s (quieten s ev m) := MemOnly.ite (MemOnly.refl s) (MemOnly.setMs ..)

theorem memOnly_followLog (s : State) (m : Mask) (ev va : Nat) (ks : List (Nat × Nat)) : MemOnly s (followLog s m ev va ks) :=
  MemOnly.ite (MemOnly.refl s) (MemOnly.foldl _ (fun _ _ => MemOnly.setMs ..) _ _)

theorem MemOnly.sequenced {s t : State} (h : MemOnly s t) : Sequenced s t := by
  unfold MemOnly at h
  unfold Sequenced
  rw [h]

/-! ## The divergence stack and the call stack -/

theorem Sequenced.setOrd (s : State) (o : Order) : Sequenced s { s with g := { s.g with ord := o } } := rfl

theorem sequenced_groupStore {s t : State} {m : Mask} {c va n x : Nat} (h : groupStore s m c va n x = .ok t) : Sequenced s t := by
  unfold groupStore at h
  split at h
  · cases h
  · split at h
    · cases h
    · obtain rfl := Except.ok.inj h
      exact ((((memOnly_noteWalk ..).trans (memOnly_takeFresh _)).trans (memOnly_putBytes ..)).trans
        ((memOnly_followLog ..).trans (memOnly_quieten ..))).sequenced.trans (Sequenced.setOrd _ _)

theorem sequenced_groupLoad {s t : State} {c va n x : Nat} (h : groupLoad s c va n = .ok (x, t)) : Sequenced s t := by
  unfold groupLoad at h
  split at h
  · cases h
  · obtain ⟨-, rfl⟩ := Prod.mk.inj (Except.ok.inj h)
    exact (memOnly_noteWalk ..).sequenced

theorem Sequenced.setTop (s : State) (o : Option (Addr × Mask)) : Sequenced s { s with g := { s.g with top := o } } := rfl

theorem Sequenced.setDs (s : State) (d : DWord) (o : Option (Addr × Mask)) :
    Sequenced s { s with g := { setActiveDs s.g d with top := o } } := by
  unfold setActiveDs; split <;> rfl

theorem Sequenced.setSlots (s : State) (c : Ctx) (h : c = { s.g with s0 := c.s0, s1 := c.s1 }) : Sequenced s (setG s c) := by
  unfold Sequenced setG; rw [h]

theorem sequenced_pushPath {s t : State} {own m : Mask} {pc : Addr} (h : pushPath s own pc m = .ok t) : Sequenced s t := by
  unfold pushPath at h
  dsimp only at h
  split at h
  · cases h
  · split at h
    · cases h
    · rename_i u hu
      obtain rfl := Except.ok.inj h
      exact (sequenced_groupStore hu).trans (Sequenced.setDs ..)

theorem sequenced_loadTop {s t : State} (h : loadTop s = .ok t) : Sequenced s t := by
  unfold loadTop at h
  dsimp only at h
  split at h
  · obtain rfl := Except.ok.inj h; rfl
  · split at h
    · obtain rfl := Except.ok.inj h; exact Sequenced.refl s
    · split at h
      · cases h
      · rename_i hu
        obtain rfl := Except.ok.inj h
        exact (sequenced_groupLoad hu).trans (Sequenced.setTop ..)

theorem sequenced_popTop {s t : State} (h : popTop s = .ok t) : Sequenced s t := by
  unfold popTop at h
  exact (Sequenced.setDs ..).trans (sequenced_loadTop h)

theorem sequenced_settle {n : Nat} {s t : State} (h : settle n s = .ok t) : Sequenced s t := by
  induction n generalizing s with
  | zero => unfold settle at h; obtain rfl := Except.ok.inj h; exact Sequenced.refl s
  | succ n ih =>
    unfold settle at h
    dsimp only at h
    split at h
    · exact (Sequenced.setSlots s _ rfl).trans (ih h)
    · split at h
      · cases h
      · rename_i u hu
        refine (sequenced_loadTop hu).trans ?_
        split at h
        · obtain rfl := Except.ok.inj h; exact Sequenced.refl _
        · iterate 4
            split at h
            · split at h
              · cases h
              · rename_i v hv
                exact ((Sequenced.setSlots u _ rfl).trans (sequenced_popTop hv)).trans (ih h)
          obtain rfl := Except.ok.inj h
          exact Sequenced.refl _

theorem setCur_slots (c : Ctx) (x : Slot) : setCur c x = { c with s0 := (setCur c x).s0, s1 := (setCur c x).s1 } := by
  unfold setCur; split <;> rfl

theorem setOther_slots (c : Ctx) (x : Slot) : setOther c x = { c with s0 := (setOther c x).s0, s1 := (setOther c x).s1 } := by
  unfold setOther; split <;> rfl

theorem Sequenced.setCur (s : State) (x : Slot) : Sequenced s (setG s (Machine.setCur s.g x)) :=
  Sequenced.setSlots s _ (setCur_slots ..)

theorem Sequenced.setOther (s : State) (x : Slot) : Sequenced s (setG s (Machine.setOther s.g x)) :=
  Sequenced.setSlots s _ (setOther_slots ..)

theorem Sequenced.setBoth (s : State) (x y : Slot) : Sequenced s (setG s (Machine.setOther (Machine.setCur s.g x) y)) :=
  (Sequenced.setCur s x).trans (Sequenced.setOther (setG s (Machine.setCur s.g x)) y)

theorem sequenced_split {s t : State} {a b : Addr} {m : Mask} (h : split s a b m = .ok t) : Sequenced s t := by
  unfold Machine.split at h
  dsimp only at h
  split at h
  · split at h
    · obtain rfl := Except.ok.inj h; exact Sequenced.setCur ..
    · obtain rfl := Except.ok.inj h; exact Sequenced.setSlots s _ rfl
  · split at h
    · obtain rfl := Except.ok.inj h; exact Sequenced.setBoth ..
    · split at h
      · obtain rfl := Except.ok.inj h; exact Sequenced.setBoth ..
      · split at h
        · obtain rfl := Except.ok.inj h; exact Sequenced.setSlots s _ rfl
        · split at h
          · split at h
            · cases h
            · rename_i u hu
              obtain rfl := Except.ok.inj h
              exact (sequenced_pushPath hu).trans (Sequenced.setCur ..)
          · split at h
            · split at h
              · cases h
              · rename_i u hu
                obtain rfl := Except.ok.inj h
                exact (sequenced_pushPath hu).trans (Sequenced.setBoth ..)
            · split at h
              · cases h
              · rename_i u hu
                obtain rfl := Except.ok.inj h
                exact (sequenced_pushPath hu).trans (Sequenced.setCur ..)

theorem sequenced_pushCall {s t : State} {pc : Addr} (h : pushCall s pc = .ok t) : Sequenced s t := by
  unfold pushCall at h
  dsimp only at h
  split at h
  · cases h
  · split at h
    · obtain rfl := Except.ok.inj h; exact Sequenced.setSeq ..
    · split at h
      · cases h
      · split at h
        · cases h
        · rename_i u hu
          obtain rfl := Except.ok.inj h
          exact (sequenced_groupStore hu).trans (Sequenced.setSeq ..)

theorem sequenced_spilled {s t : State} {i : Nat} {a : Addr} (h : spilled s i = .ok (a, t)) : Sequenced s t := by
  unfold spilled at h
  split at h
  · cases h
  · rename_i hu
    obtain ⟨-, rfl⟩ := Prod.mk.inj (Except.ok.inj h)
    exact sequenced_groupLoad hu

theorem sequenced_popHeld {s t : State} {a : Option Addr} (h : popHeld s = .ok (a, t)) : Sequenced s t := by
  unfold popHeld at h
  dsimp only at h
  split at h
  · split at h
    · cases h
    · rename_i hu
      obtain ⟨-, rfl⟩ := Prod.mk.inj (Except.ok.inj h)
      exact (sequenced_spilled hu).trans (Sequenced.setSeq ..)
  · obtain ⟨-, rfl⟩ := Prod.mk.inj (Except.ok.inj h); exact Sequenced.setSeq ..

theorem sequenced_popCall {s t : State} {a : Option Addr} (h : popCall s = .ok (a, t)) : Sequenced s t := by
  unfold popCall at h
  dsimp only at h
  split at h
  · exact sequenced_popHeld h
  · split at h
    · obtain ⟨-, rfl⟩ := Prod.mk.inj (Except.ok.inj h); exact Sequenced.refl s
    · split at h
      · cases h
      · rename_i hu
        exact ((sequenced_spilled hu).trans (Sequenced.setSeq ..)).trans (sequenced_popHeld h)

theorem sequenced_popTarget {s t : State} {a : Addr} (h : popTarget s = some (a, t)) : Sequenced s t := by
  unfold popTarget at h
  dsimp only at h
  split at h
  · cases h
  · obtain ⟨-, rfl⟩ := Prod.mk.inj (Option.some.inj h); exact Sequenced.setSeq ..

theorem sequenced_popLoop (s : State) : Sequenced s (popLoop s) := by
  unfold popLoop
  dsimp only
  split
  · exact Sequenced.refl s
  · exact Sequenced.setSeq ..

/-! ## Selectors -/

theorem sequenced_branch {s t : State} {m7 : Mask} {b : Bool} (h : branch s m7 b = .ok t) : Sequenced s t := by
  unfold branch at h
  dsimp only at h
  split at h
  · cases h
  · rename_i hu
    refine (sequenced_popTarget hu).trans ?_
    generalize (if b = true then ~~~m7 else m7) &&& active s = taken at h
    split at h
    · obtain rfl := Except.ok.inj h; exact Sequenced.setPc ..
    · split at h
      · obtain rfl := Except.ok.inj h; exact Sequenced.setPc ..
      · split at h
        · obtain rfl := Except.ok.inj h; exact Sequenced.setPc ..
        · exact sequenced_split h

theorem sequenced_select {s t : State} {m7 : Mask} {nas : Nas} (h : select s m7 nas = .ok t) : Sequenced s t := by
  unfold select at h
  dsimp only at h
  split at h
  · obtain rfl := Except.ok.inj h; exact Sequenced.setPc ..
  · split at h
    · obtain rfl := Except.ok.inj h; exact Sequenced.setPc ..
    · split at h
      · obtain rfl := Except.ok.inj h; exact (Sequenced.setSeq ..).trans (Sequenced.setPc ..)
      · obtain rfl := Except.ok.inj h; exact (sequenced_popLoop s).trans (Sequenced.setPc ..)
  · exact sequenced_branch h
  · exact sequenced_branch h
  · split at h
    · cases h
    · rename_i hu
      obtain rfl := Except.ok.inj h
      exact (sequenced_popTarget hu).trans (Sequenced.setPc ..)
  · split at h
    · cases h
    · rename_i hu
      split at h
      · cases h
      · rename_i hv
        obtain rfl := Except.ok.inj h
        exact ((sequenced_popTarget hu).trans (sequenced_pushCall hv)).trans (Sequenced.setPc ..)
  · split at h
    · cases h
    · rename_i hu
      obtain rfl := Except.ok.inj h
      exact (sequenced_popCall hu).trans (Sequenced.setPc ..)
    · rename_i hu
      obtain rfl := Except.ok.inj h
      exact (sequenced_popCall hu).trans (Sequenced.endPath ..)
  · obtain rfl := Except.ok.inj h; exact Sequenced.endPath ..

/-! ## Completion -/

theorem clear_find {s : State} {nas : Nas} {io : Io} (h : Clear s nas io) :
    ((closing s io.writes).find? fun w => w.gone != 0) = none := by
  simpa [List.find?_eq_none] using h.2.2.1

/-- An instruction that nothing stops comes to what its effect says. -/
theorem issue_clear {s : State} {nas : Nas} {io : Io} {body : State → Res} (h : Clear s nas io) :
    issue s nas io body = .next (conclude (closed s io.writes) nas io.writes (body (closed s io.writes))) := by
  unfold issue issueEffect
  rw [clear_find h]
  simp [h.1, h.2.1, h.2.2.2, firstCause]

/-- An instruction completes when nothing stops it, its effect is done and its selector acts. -/
theorem issue_completes {s e u : State} {nas : Nas} {io : Io} {body : State → Res} (h : Clear s nas io)
    (he : body (closed s io.writes) = .ok e) (hu : applyNas (selectorMask (closed s io.writes)) e nas = .ok u) :
    issue s nas io body = .next (finished u io.writes) := by
  rw [issue_clear h, he]
  simp [conclude, hu]

/-- A cause of the first row of R154 is taken whatever holds the instruction (R397). -/
theorem issue_bad {s : State} {nas : Nas} {io : Io} {body : State → Res} {c : Nat} (h : s.g.live = true)
    (hc : firstCause io.bad = some c) : issue s nas io body = .next (raiseNow s (precise s c) (active s)) := by
  unfold issue
  simp [h, hc]

/-- A cause of the effect is taken unless the selector has one that R154 puts first. -/
theorem issue_traps {s : State} {nas : Nas} {io : Io} {body : State → Res} {r : Raise} (h : Clear s nas io)
    (he : body (closed s io.writes) = .trap r)
    (hn : ∀ c va, applyNas (selectorMask (closed s io.writes)) (closed s io.writes) nas = .error (.cause c va) →
      causeRank r.cause ≤ causeRank c) :
    issue s nas io body = .next (raiseNow (closed s io.writes) r (active (closed s io.writes))) := by
  rw [issue_clear h, he]
  simp only [conclude]
  split
  · rename_i hx
    have := hn _ _ hx
    rw [if_neg (by omega)]
  · rfl

end Sys2Proof.Machine
end

