-- ==== Sys2Proof/Laws/State.lean ====
section
/-! SUPPORT. What each update of State leaves: one lemma per update and field, so that no later proof unfolds a record update. -/

namespace Sys2Proof.Machine

/-! ## setVfReg -/

@[simp] theorem setVfReg_g (s : State) (vf n : Nat) (x : DWord) : (setVfReg s vf n x).g = s.g := rfl
@[simp] theorem setVfReg_others (s : State) (vf n : Nat) (x : DWord) : (setVfReg s vf n x).others = s.others := rfl
@[simp] theorem setVfReg_onAp (s : State) (vf n : Nat) (x : DWord) : (setVfReg s vf n x).onAp = s.onAp := rfl
@[simp] theorem setVfReg_agenda (s : State) (vf n : Nat) (x : DWord) : (setVfReg s vf n x).agenda = s.agenda := rfl
@[simp] theorem setVfReg_round (s : State) (vf n : Nat) (x : DWord) : (setVfReg s vf n x).round = s.round := rfl
@[simp] theorem setVfReg_free (s : State) (vf n : Nat) (x : DWord) : (setVfReg s vf n x).free = s.free := rfl
@[simp] theorem setVfReg_fresh (s : State) (vf n : Nat) (x : DWord) : (setVfReg s vf n x).fresh = s.fresh := rfl
@[simp] theorem setVfReg_ms (s : State) (vf n : Nat) (x : DWord) : (setVfReg s vf n x).ms = s.ms := rfl
@[simp] theorem setVfReg_ld (s : State) (vf n : Nat) (x : DWord) : (setVfReg s vf n x).ld = s.ld := rfl
@[simp] theorem setVfReg_hub (s : State) (vf n : Nat) (x : DWord) : (setVfReg s vf n x).hub = s.hub := rfl
@[simp] theorem setVfReg_arrays (s : State) (vf n : Nat) (x : DWord) : (setVfReg s vf n x).arrays = s.arrays := rfl
@[simp] theorem setVfReg_wk (s : State) (vf n : Nat) (x : DWord) : (setVfReg s vf n x).wk = s.wk := rfl
@[simp] theorem setVfReg_en (s : State) (vf n : Nat) (x : DWord) : (setVfReg s vf n x).en = s.en := rfl
@[simp] theorem setVfReg_qt (s : State) (vf n : Nat) (x : DWord) : (setVfReg s vf n x).qt = s.qt := rfl
@[simp] theorem setVfReg_mg (s : State) (vf n : Nat) (x : DWord) : (setVfReg s vf n x).mg = s.mg := rfl
@[simp] theorem setVfReg_fl (s : State) (vf n : Nat) (x : DWord) : (setVfReg s vf n x).fl = s.fl := rfl
@[simp] theorem setVfReg_dev (s : State) (vf n : Nat) (x : DWord) : (setVfReg s vf n x).dev = s.dev := rfl
@[simp] theorem setVfReg_acnt (s : State) (vf n : Nat) (x : DWord) : (setVfReg s vf n x).acnt = s.acnt := rfl
@[simp] theorem setVfReg_tnow (s : State) (vf n : Nat) (x : DWord) : (setVfReg s vf n x).tnow = s.tnow := rfl

/-! ## setDevReg -/

@[simp] theorem setDevReg_g (s : State) (n : Nat) (x : DWord) : (setDevReg s n x).g = s.g := rfl
@[simp] theorem setDevReg_others (s : State) (n : Nat) (x : DWord) : (setDevReg s n x).others = s.others := rfl
@[simp] theorem setDevReg_onAp (s : State) (n : Nat) (x : DWord) : (setDevReg s n x).onAp = s.onAp := rfl
@[simp] theorem setDevReg_agenda (s : State) (n : Nat) (x : DWord) : (setDevReg s n x).agenda = s.agenda := rfl
@[simp] theorem setDevReg_round (s : State) (n : Nat) (x : DWord) : (setDevReg s n x).round = s.round := rfl
@[simp] theorem setDevReg_free (s : State) (n : Nat) (x : DWord) : (setDevReg s n x).free = s.free := rfl
@[simp] theorem setDevReg_fresh (s : State) (n : Nat) (x : DWord) : (setDevReg s n x).fresh = s.fresh := rfl
@[simp] theorem setDevReg_ms (s : State) (n : Nat) (x : DWord) : (setDevReg s n x).ms = s.ms := rfl
@[simp] theorem setDevReg_ld (s : State) (n : Nat) (x : DWord) : (setDevReg s n x).ld = s.ld := rfl
@[simp] theorem setDevReg_hub (s : State) (n : Nat) (x : DWord) : (setDevReg s n x).hub = s.hub := rfl
@[simp] theorem setDevReg_arrays (s : State) (n : Nat) (x : DWord) : (setDevReg s n x).arrays = s.arrays := rfl
@[simp] theorem setDevReg_wk (s : State) (n : Nat) (x : DWord) : (setDevReg s n x).wk = s.wk := rfl
@[simp] theorem setDevReg_en (s : State) (n : Nat) (x : DWord) : (setDevReg s n x).en = s.en := rfl
@[simp] theorem setDevReg_qt (s : State) (n : Nat) (x : DWord) : (setDevReg s n x).qt = s.qt := rfl
@[simp] theorem setDevReg_mg (s : State) (n : Nat) (x : DWord) : (setDevReg s n x).mg = s.mg := rfl
@[simp] theorem setDevReg_fl (s : State) (n : Nat) (x : DWord) : (setDevReg s n x).fl = s.fl := rfl
@[simp] theorem setDevReg_vfr (s : State) (n : Nat) (x : DWord) : (setDevReg s n x).vfr = s.vfr := rfl
@[simp] theorem setDevReg_acnt (s : State) (n : Nat) (x : DWord) : (setDevReg s n x).acnt = s.acnt := rfl
@[simp] theorem setDevReg_tnow (s : State) (n : Nat) (x : DWord) : (setDevReg s n x).tnow = s.tnow := rfl

/-! ## takeFresh -/

@[simp] theorem takeFresh_g (s : State) : ((takeFresh s).2).g = s.g := rfl
@[simp] theorem takeFresh_others (s : State) : ((takeFresh s).2).others = s.others := rfl
@[simp] theorem takeFresh_onAp (s : State) : ((takeFresh s).2).onAp = s.onAp := rfl
@[simp] theorem takeFresh_agenda (s : State) : ((takeFresh s).2).agenda = s.agenda := rfl
@[simp] theorem takeFresh_round (s : State) : ((takeFresh s).2).round = s.round := rfl
@[simp] theorem takeFresh_free (s : State) : ((takeFresh s).2).free = s.free := rfl
@[simp] theorem takeFresh_ms (s : State) : ((takeFresh s).2).ms = s.ms := rfl
@[simp] theorem takeFresh_ld (s : State) : ((takeFresh s).2).ld = s.ld := rfl
@[simp] theorem takeFresh_hub (s : State) : ((takeFresh s).2).hub = s.hub := rfl
@[simp] theorem takeFresh_arrays (s : State) : ((takeFresh s).2).arrays = s.arrays := rfl
@[simp] theorem takeFresh_wk (s : State) : ((takeFresh s).2).wk = s.wk := rfl
@[simp] theorem takeFresh_en (s : State) : ((takeFresh s).2).en = s.en := rfl
@[simp] theorem takeFresh_qt (s : State) : ((takeFresh s).2).qt = s.qt := rfl
@[simp] theorem takeFresh_mg (s : State) : ((takeFresh s).2).mg = s.mg := rfl
@[simp] theorem takeFresh_fl (s : State) : ((takeFresh s).2).fl = s.fl := rfl
@[simp] theorem takeFresh_vfr (s : State) : ((takeFresh s).2).vfr = s.vfr := rfl
@[simp] theorem takeFresh_dev (s : State) : ((takeFresh s).2).dev = s.dev := rfl
@[simp] theorem takeFresh_acnt (s : State) : ((takeFresh s).2).acnt = s.acnt := rfl
@[simp] theorem takeFresh_tnow (s : State) : ((takeFresh s).2).tnow = s.tnow := rfl

/-! ## setG -/

@[simp] theorem setG_others (s : State) (c : Ctx) : (setG s c).others = s.others := rfl
@[simp] theorem setG_onAp (s : State) (c : Ctx) : (setG s c).onAp = s.onAp := rfl
@[simp] theorem setG_agenda (s : State) (c : Ctx) : (setG s c).agenda = s.agenda := rfl
@[simp] theorem setG_round (s : State) (c : Ctx) : (setG s c).round = s.round := rfl
@[simp] theorem setG_free (s : State) (c : Ctx) : (setG s c).free = s.free := rfl
@[simp] theorem setG_fresh (s : State) (c : Ctx) : (setG s c).fresh = s.fresh := rfl
@[simp] theorem setG_ms (s : State) (c : Ctx) : (setG s c).ms = s.ms := rfl
@[simp] theorem setG_ld (s : State) (c : Ctx) : (setG s c).ld = s.ld := rfl
@[simp] theorem setG_hub (s : State) (c : Ctx) : (setG s c).hub = s.hub := rfl
@[simp] theorem setG_arrays (s : State) (c : Ctx) : (setG s c).arrays = s.arrays := rfl
@[simp] theorem setG_wk (s : State) (c : Ctx) : (setG s c).wk = s.wk := rfl
@[simp] theorem setG_en (s : State) (c : Ctx) : (setG s c).en = s.en := rfl
@[simp] theorem setG_qt (s : State) (c : Ctx) : (setG s c).qt = s.qt := rfl
@[simp] theorem setG_mg (s : State) (c : Ctx) : (setG s c).mg = s.mg := rfl
@[simp] theorem setG_fl (s : State) (c : Ctx) : (setG s c).fl = s.fl := rfl
@[simp] theorem setG_vfr (s : State) (c : Ctx) : (setG s c).vfr = s.vfr := rfl
@[simp] theorem setG_dev (s : State) (c : Ctx) : (setG s c).dev = s.dev := rfl
@[simp] theorem setG_acnt (s : State) (c : Ctx) : (setG s c).acnt = s.acnt := rfl
@[simp] theorem setG_tnow (s : State) (c : Ctx) : (setG s c).tnow = s.tnow := rfl

/-! ## putReg -/

@[simp] theorem putReg_others (s : State) (key : Nat) (x : Word) : (putReg s key x).others = s.others := rfl
@[simp] theorem putReg_onAp (s : State) (key : Nat) (x : Word) : (putReg s key x).onAp = s.onAp := rfl
@[simp] theorem putReg_agenda (s : State) (key : Nat) (x : Word) : (putReg s key x).agenda = s.agenda := rfl
@[simp] theorem putReg_round (s : State) (key : Nat) (x : Word) : (putReg s key x).round = s.round := rfl
@[simp] theorem putReg_free (s : State) (key : Nat) (x : Word) : (putReg s key x).free = s.free := rfl
@[simp] theorem putReg_fresh (s : State) (key : Nat) (x : Word) : (putReg s key x).fresh = s.fresh := rfl
@[simp] theorem putReg_ms (s : State) (key : Nat) (x : Word) : (putReg s key x).ms = s.ms := rfl
@[simp] theorem putReg_ld (s : State) (key : Nat) (x : Word) : (putReg s key x).ld = s.ld := rfl
@[simp] theorem putReg_hub (s : State) (key : Nat) (x : Word) : (putReg s key x).hub = s.hub := rfl
@[simp] theorem putReg_arrays (s : State) (key : Nat) (x : Word) : (putReg s key x).arrays = s.arrays := rfl
@[simp] theorem putReg_wk (s : State) (key : Nat) (x : Word) : (putReg s key x).wk = s.wk := rfl
@[simp] theorem putReg_en (s : State) (key : Nat) (x : Word) : (putReg s key x).en = s.en := rfl
@[simp] theorem putReg_qt (s : State) (key : Nat) (x : Word) : (putReg s key x).qt = s.qt := rfl
@[simp] theorem putReg_mg (s : State) (key : Nat) (x : Word) : (putReg s key x).mg = s.mg := rfl
@[simp] theorem putReg_fl (s : State) (key : Nat) (x : Word) : (putReg s key x).fl = s.fl := rfl
@[simp] theorem putReg_vfr (s : State) (key : Nat) (x : Word) : (putReg s key x).vfr = s.vfr := rfl
@[simp] theorem putReg_dev (s : State) (key : Nat) (x : Word) : (putReg s key x).dev = s.dev := rfl
@[simp] theorem putReg_acnt (s : State) (key : Nat) (x : Word) : (putReg s key x).acnt = s.acnt := rfl
@[simp] theorem putReg_tnow (s : State) (key : Nat) (x : Word) : (putReg s key x).tnow = s.tnow := rfl

/-! ## orFlags -/

@[simp] theorem orFlags_others (s : State) (f : Word) : (orFlags s f).others = s.others := rfl
@[simp] theorem orFlags_onAp (s : State) (f : Word) : (orFlags s f).onAp = s.onAp := rfl
@[simp] theorem orFlags_agenda (s : State) (f : Word) : (orFlags s f).agenda = s.agenda := rfl
@[simp] theorem orFlags_round (s : State) (f : Word) : (orFlags s f).round = s.round := rfl
@[simp] theorem orFlags_free (s : State) (f : Word) : (orFlags s f).free = s.free := rfl
@[simp] theorem orFlags_fresh (s : State) (f : Word) : (orFlags s f).fresh = s.fresh := rfl
@[simp] theorem orFlags_ms (s : State) (f : Word) : (orFlags s f).ms = s.ms := rfl
@[simp] theorem orFlags_ld (s : State) (f : Word) : (orFlags s f).ld = s.ld := rfl
@[simp] theorem orFlags_hub (s : State) (f : Word) : (orFlags s f).hub = s.hub := rfl
@[simp] theorem orFlags_arrays (s : State) (f : Word) : (orFlags s f).arrays = s.arrays := rfl
@[simp] theorem orFlags_wk (s : State) (f : Word) : (orFlags s f).wk = s.wk := rfl
@[simp] theorem orFlags_en (s : State) (f : Word) : (orFlags s f).en = s.en := rfl
@[simp] theorem orFlags_qt (s : State) (f : Word) : (orFlags s f).qt = s.qt := rfl
@[simp] theorem orFlags_mg (s : State) (f : Word) : (orFlags s f).mg = s.mg := rfl
@[simp] theorem orFlags_fl (s : State) (f : Word) : (orFlags s f).fl = s.fl := rfl
@[simp] theorem orFlags_vfr (s : State) (f : Word) : (orFlags s f).vfr = s.vfr := rfl
@[simp] theorem orFlags_dev (s : State) (f : Word) : (orFlags s f).dev = s.dev := rfl
@[simp] theorem orFlags_acnt (s : State) (f : Word) : (orFlags s f).acnt = s.acnt := rfl
@[simp] theorem orFlags_tnow (s : State) (f : Word) : (orFlags s f).tnow = s.tnow := rfl

/-! ## withRegs -/

@[simp] theorem withRegs_others (s : State) (r : Store Word) (fl : Word) : (withRegs s r fl).others = s.others := rfl
@[simp] theorem withRegs_onAp (s : State) (r : Store Word) (fl : Word) : (withRegs s r fl).onAp = s.onAp := rfl
@[simp] theorem withRegs_agenda (s : State) (r : Store Word) (fl : Word) : (withRegs s r fl).agenda = s.agenda := rfl
@[simp] theorem withRegs_round (s : State) (r : Store Word) (fl : Word) : (withRegs s r fl).round = s.round := rfl
@[simp] theorem withRegs_free (s : State) (r : Store Word) (fl : Word) : (withRegs s r fl).free = s.free := rfl
@[simp] theorem withRegs_fresh (s : State) (r : Store Word) (fl : Word) : (withRegs s r fl).fresh = s.fresh := rfl
@[simp] theorem withRegs_ms (s : State) (r : Store Word) (fl : Word) : (withRegs s r fl).ms = s.ms := rfl
@[simp] theorem withRegs_ld (s : State) (r : Store Word) (fl : Word) : (withRegs s r fl).ld = s.ld := rfl
@[simp] theorem withRegs_hub (s : State) (r : Store Word) (fl : Word) : (withRegs s r fl).hub = s.hub := rfl
@[simp] theorem withRegs_arrays (s : State) (r : Store Word) (fl : Word) : (withRegs s r fl).arrays = s.arrays := rfl
@[simp] theorem withRegs_wk (s : State) (r : Store Word) (fl : Word) : (withRegs s r fl).wk = s.wk := rfl
@[simp] theorem withRegs_en (s : State) (r : Store Word) (fl : Word) : (withRegs s r fl).en = s.en := rfl
@[simp] theorem withRegs_qt (s : State) (r : Store Word) (fl : Word) : (withRegs s r fl).qt = s.qt := rfl
@[simp] theorem withRegs_mg (s : State) (r : Store Word) (fl : Word) : (withRegs s r fl).mg = s.mg := rfl
@[simp] theorem withRegs_fl (s : State) (r : Store Word) (fl : Word) : (withRegs s r fl).fl = s.fl := rfl
@[simp] theorem withRegs_vfr (s : State) (r : Store Word) (fl : Word) : (withRegs s r fl).vfr = s.vfr := rfl
@[simp] theorem withRegs_dev (s : State) (r : Store Word) (fl : Word) : (withRegs s r fl).dev = s.dev := rfl
@[simp] theorem withRegs_acnt (s : State) (r : Store Word) (fl : Word) : (withRegs s r fl).acnt = s.acnt := rfl
@[simp] theorem withRegs_tnow (s : State) (r : Store Word) (fl : Word) : (withRegs s r fl).tnow = s.tnow := rfl

/-! ## putRec -/

@[simp] theorem putRec_g (s : State) (w : WriteRec) : (putRec s w).g = s.g := rfl
@[simp] theorem putRec_others (s : State) (w : WriteRec) : (putRec s w).others = s.others := rfl
@[simp] theorem putRec_onAp (s : State) (w : WriteRec) : (putRec s w).onAp = s.onAp := rfl
@[simp] theorem putRec_agenda (s : State) (w : WriteRec) : (putRec s w).agenda = s.agenda := rfl
@[simp] theorem putRec_round (s : State) (w : WriteRec) : (putRec s w).round = s.round := rfl
@[simp] theorem putRec_free (s : State) (w : WriteRec) : (putRec s w).free = s.free := rfl
@[simp] theorem putRec_fresh (s : State) (w : WriteRec) : (putRec s w).fresh = s.fresh := rfl
@[simp] theorem putRec_ld (s : State) (w : WriteRec) : (putRec s w).ld = s.ld := rfl
@[simp] theorem putRec_hub (s : State) (w : WriteRec) : (putRec s w).hub = s.hub := rfl
@[simp] theorem putRec_arrays (s : State) (w : WriteRec) : (putRec s w).arrays = s.arrays := rfl
@[simp] theorem putRec_wk (s : State) (w : WriteRec) : (putRec s w).wk = s.wk := rfl
@[simp] theorem putRec_en (s : State) (w : WriteRec) : (putRec s w).en = s.en := rfl
@[simp] theorem putRec_qt (s : State) (w : WriteRec) : (putRec s w).qt = s.qt := rfl
@[simp] theorem putRec_mg (s : State) (w : WriteRec) : (putRec s w).mg = s.mg := rfl
@[simp] theorem putRec_fl (s : State) (w : WriteRec) : (putRec s w).fl = s.fl := rfl
@[simp] theorem putRec_vfr (s : State) (w : WriteRec) : (putRec s w).vfr = s.vfr := rfl
@[simp] theorem putRec_dev (s : State) (w : WriteRec) : (putRec s w).dev = s.dev := rfl
@[simp] theorem putRec_acnt (s : State) (w : WriteRec) : (putRec s w).acnt = s.acnt := rfl
@[simp] theorem putRec_tnow (s : State) (w : WriteRec) : (putRec s w).tnow = s.tnow := rfl

/-! ## logAll -/

@[simp] theorem logAll_g (s : State) (es : List LogEntry) : (logAll s es).g = s.g := rfl
@[simp] theorem logAll_others (s : State) (es : List LogEntry) : (logAll s es).others = s.others := rfl
@[simp] theorem logAll_onAp (s : State) (es : List LogEntry) : (logAll s es).onAp = s.onAp := rfl
@[simp] theorem logAll_agenda (s : State) (es : List LogEntry) : (logAll s es).agenda = s.agenda := rfl
@[simp] theorem logAll_round (s : State) (es : List LogEntry) : (logAll s es).round = s.round := rfl
@[simp] theorem logAll_free (s : State) (es : List LogEntry) : (logAll s es).free = s.free := rfl
@[simp] theorem logAll_fresh (s : State) (es : List LogEntry) : (logAll s es).fresh = s.fresh := rfl
@[simp] theorem logAll_ld (s : State) (es : List LogEntry) : (logAll s es).ld = s.ld := rfl
@[simp] theorem logAll_hub (s : State) (es : List LogEntry) : (logAll s es).hub = s.hub := rfl
@[simp] theorem logAll_arrays (s : State) (es : List LogEntry) : (logAll s es).arrays = s.arrays := rfl
@[simp] theorem logAll_wk (s : State) (es : List LogEntry) : (logAll s es).wk = s.wk := rfl
@[simp] theorem logAll_en (s : State) (es : List LogEntry) : (logAll s es).en = s.en := rfl
@[simp] theorem logAll_qt (s : State) (es : List LogEntry) : (logAll s es).qt = s.qt := rfl
@[simp] theorem logAll_mg (s : State) (es : List LogEntry) : (logAll s es).mg = s.mg := rfl
@[simp] theorem logAll_fl (s : State) (es : List LogEntry) : (logAll s es).fl = s.fl := rfl
@[simp] theorem logAll_vfr (s : State) (es : List LogEntry) : (logAll s es).vfr = s.vfr := rfl
@[simp] theorem logAll_dev (s : State) (es : List LogEntry) : (logAll s es).dev = s.dev := rfl
@[simp] theorem logAll_acnt (s : State) (es : List LogEntry) : (logAll s es).acnt = s.acnt := rfl
@[simp] theorem logAll_tnow (s : State) (es : List LogEntry) : (logAll s es).tnow = s.tnow := rfl

/-! ## setFleet -/

@[simp] theorem setFleet_g (s : State) (off x : Nat) : (setFleet s off x).g = s.g := rfl
@[simp] theorem setFleet_others (s : State) (off x : Nat) : (setFleet s off x).others = s.others := rfl
@[simp] theorem setFleet_onAp (s : State) (off x : Nat) : (setFleet s off x).onAp = s.onAp := rfl
@[simp] theorem setFleet_agenda (s : State) (off x : Nat) : (setFleet s off x).agenda = s.agenda := rfl
@[simp] theorem setFleet_round (s : State) (off x : Nat) : (setFleet s off x).round = s.round := rfl
@[simp] theorem setFleet_free (s : State) (off x : Nat) : (setFleet s off x).free = s.free := rfl
@[simp] theorem setFleet_fresh (s : State) (off x : Nat) : (setFleet s off x).fresh = s.fresh := rfl
@[simp] theorem setFleet_ms (s : State) (off x : Nat) : (setFleet s off x).ms = s.ms := rfl
@[simp] theorem setFleet_ld (s : State) (off x : Nat) : (setFleet s off x).ld = s.ld := rfl
@[simp] theorem setFleet_hub (s : State) (off x : Nat) : (setFleet s off x).hub = s.hub := rfl
@[simp] theorem setFleet_arrays (s : State) (off x : Nat) : (setFleet s off x).arrays = s.arrays := rfl
@[simp] theorem setFleet_wk (s : State) (off x : Nat) : (setFleet s off x).wk = s.wk := rfl
@[simp] theorem setFleet_en (s : State) (off x : Nat) : (setFleet s off x).en = s.en := rfl
@[simp] theorem setFleet_qt (s : State) (off x : Nat) : (setFleet s off x).qt = s.qt := rfl
@[simp] theorem setFleet_mg (s : State) (off x : Nat) : (setFleet s off x).mg = s.mg := rfl
@[simp] theorem setFleet_vfr (s : State) (off x : Nat) : (setFleet s off x).vfr = s.vfr := rfl
@[simp] theorem setFleet_dev (s : State) (off x : Nat) : (setFleet s off x).dev = s.dev := rfl
@[simp] theorem setFleet_acnt (s : State) (off x : Nat) : (setFleet s off x).acnt = s.acnt := rfl
@[simp] theorem setFleet_tnow (s : State) (off x : Nat) : (setFleet s off x).tnow = s.tnow := rfl

/-! ## setExt -/

@[simp] theorem setExt_g (s : State) (i j x : Nat) : (setExt s i j x).g = s.g := rfl
@[simp] theorem setExt_others (s : State) (i j x : Nat) : (setExt s i j x).others = s.others := rfl
@[simp] theorem setExt_onAp (s : State) (i j x : Nat) : (setExt s i j x).onAp = s.onAp := rfl
@[simp] theorem setExt_agenda (s : State) (i j x : Nat) : (setExt s i j x).agenda = s.agenda := rfl
@[simp] theorem setExt_round (s : State) (i j x : Nat) : (setExt s i j x).round = s.round := rfl
@[simp] theorem setExt_free (s : State) (i j x : Nat) : (setExt s i j x).free = s.free := rfl
@[simp] theorem setExt_fresh (s : State) (i j x : Nat) : (setExt s i j x).fresh = s.fresh := rfl
@[simp] theorem setExt_ms (s : State) (i j x : Nat) : (setExt s i j x).ms = s.ms := rfl
@[simp] theorem setExt_ld (s : State) (i j x : Nat) : (setExt s i j x).ld = s.ld := rfl
@[simp] theorem setExt_arrays (s : State) (i j x : Nat) : (setExt s i j x).arrays = s.arrays := rfl
@[simp] theorem setExt_wk (s : State) (i j x : Nat) : (setExt s i j x).wk = s.wk := rfl
@[simp] theorem setExt_en (s : State) (i j x : Nat) : (setExt s i j x).en = s.en := rfl
@[simp] theorem setExt_qt (s : State) (i j x : Nat) : (setExt s i j x).qt = s.qt := rfl
@[simp] theorem setExt_mg (s : State) (i j x : Nat) : (setExt s i j x).mg = s.mg := rfl
@[simp] theorem setExt_fl (s : State) (i j x : Nat) : (setExt s i j x).fl = s.fl := rfl
@[simp] theorem setExt_vfr (s : State) (i j x : Nat) : (setExt s i j x).vfr = s.vfr := rfl
@[simp] theorem setExt_dev (s : State) (i j x : Nat) : (setExt s i j x).dev = s.dev := rfl
@[simp] theorem setExt_acnt (s : State) (i j x : Nat) : (setExt s i j x).acnt = s.acnt := rfl
@[simp] theorem setExt_tnow (s : State) (i j x : Nat) : (setExt s i j x).tnow = s.tnow := rfl

/-! ## setPeer -/

@[simp] theorem setPeer_g (s : State) (q x : Nat) : (setPeer s q x).g = s.g := rfl
@[simp] theorem setPeer_others (s : State) (q x : Nat) : (setPeer s q x).others = s.others := rfl
@[simp] theorem setPeer_onAp (s : State) (q x : Nat) : (setPeer s q x).onAp = s.onAp := rfl
@[simp] theorem setPeer_agenda (s : State) (q x : Nat) : (setPeer s q x).agenda = s.agenda := rfl
@[simp] theorem setPeer_round (s : State) (q x : Nat) : (setPeer s q x).round = s.round := rfl
@[simp] theorem setPeer_free (s : State) (q x : Nat) : (setPeer s q x).free = s.free := rfl
@[simp] theorem setPeer_fresh (s : State) (q x : Nat) : (setPeer s q x).fresh = s.fresh := rfl
@[simp] theorem setPeer_ms (s : State) (q x : Nat) : (setPeer s q x).ms = s.ms := rfl
@[simp] theorem setPeer_ld (s : State) (q x : Nat) : (setPeer s q x).ld = s.ld := rfl
@[simp] theorem setPeer_arrays (s : State) (q x : Nat) : (setPeer s q x).arrays = s.arrays := rfl
@[simp] theorem setPeer_wk (s : State) (q x : Nat) : (setPeer s q x).wk = s.wk := rfl
@[simp] theorem setPeer_en (s : State) (q x : Nat) : (setPeer s q x).en = s.en := rfl
@[simp] theorem setPeer_qt (s : State) (q x : Nat) : (setPeer s q x).qt = s.qt := rfl
@[simp] theorem setPeer_mg (s : State) (q x : Nat) : (setPeer s q x).mg = s.mg := rfl
@[simp] theorem setPeer_fl (s : State) (q x : Nat) : (setPeer s q x).fl = s.fl := rfl
@[simp] theorem setPeer_vfr (s : State) (q x : Nat) : (setPeer s q x).vfr = s.vfr := rfl
@[simp] theorem setPeer_dev (s : State) (q x : Nat) : (setPeer s q x).dev = s.dev := rfl
@[simp] theorem setPeer_acnt (s : State) (q x : Nat) : (setPeer s q x).acnt = s.acnt := rfl
@[simp] theorem setPeer_tnow (s : State) (q x : Nat) : (setPeer s q x).tnow = s.tnow := rfl

/-! ## setPc -/

@[simp] theorem setPc_others (s : State) (pc : Addr) : (setPc s pc).others = s.others := by unfold setPc; split <;> rfl
@[simp] theorem setPc_onAp (s : State) (pc : Addr) : (setPc s pc).onAp = s.onAp := by unfold setPc; split <;> rfl
@[simp] theorem setPc_agenda (s : State) (pc : Addr) : (setPc s pc).agenda = s.agenda := by unfold setPc; split <;> rfl
@[simp] theorem setPc_round (s : State) (pc : Addr) : (setPc s pc).round = s.round := by unfold setPc; split <;> rfl
@[simp] theorem setPc_free (s : State) (pc : Addr) : (setPc s pc).free = s.free := by unfold setPc; split <;> rfl
@[simp] theorem setPc_fresh (s : State) (pc : Addr) : (setPc s pc).fresh = s.fresh := by unfold setPc; split <;> rfl
@[simp] theorem setPc_ms (s : State) (pc : Addr) : (setPc s pc).ms = s.ms := by unfold setPc; split <;> rfl
@[simp] theorem setPc_ld (s : State) (pc : Addr) : (setPc s pc).ld = s.ld := by unfold setPc; split <;> rfl
@[simp] theorem setPc_hub (s : State) (pc : Addr) : (setPc s pc).hub = s.hub := by unfold setPc; split <;> rfl
@[simp] theorem setPc_arrays (s : State) (pc : Addr) : (setPc s pc).arrays = s.arrays := by unfold setPc; split <;> rfl
@[simp] theorem setPc_wk (s : State) (pc : Addr) : (setPc s pc).wk = s.wk := by unfold setPc; split <;> rfl
@[simp] theorem setPc_en (s : State) (pc : Addr) : (setPc s pc).en = s.en := by unfold setPc; split <;> rfl
@[simp] theorem setPc_qt (s : State) (pc : Addr) : (setPc s pc).qt = s.qt := by unfold setPc; split <;> rfl
@[simp] theorem setPc_mg (s : State) (pc : Addr) : (setPc s pc).mg = s.mg := by unfold setPc; split <;> rfl
@[simp] theorem setPc_fl (s : State) (pc : Addr) : (setPc s pc).fl = s.fl := by unfold setPc; split <;> rfl
@[simp] theorem setPc_vfr (s : State) (pc : Addr) : (setPc s pc).vfr = s.vfr := by unfold setPc; split <;> rfl
@[simp] theorem setPc_dev (s : State) (pc : Addr) : (setPc s pc).dev = s.dev := by unfold setPc; split <;> rfl
@[simp] theorem setPc_acnt (s : State) (pc : Addr) : (setPc s pc).acnt = s.acnt := by unfold setPc; split <;> rfl
@[simp] theorem setPc_tnow (s : State) (pc : Addr) : (setPc s pc).tnow = s.tnow := by unfold setPc; split <;> rfl

/-! ## setSeq -/

@[simp] theorem setSeq_others (s : State) (q : Seq) : (setSeq s q).others = s.others := by unfold setSeq; split <;> [rfl; (split <;> rfl)]
@[simp] theorem setSeq_onAp (s : State) (q : Seq) : (setSeq s q).onAp = s.onAp := by unfold setSeq; split <;> [rfl; (split <;> rfl)]
@[simp] theorem setSeq_agenda (s : State) (q : Seq) : (setSeq s q).agenda = s.agenda := by unfold setSeq; split <;> [rfl; (split <;> rfl)]
@[simp] theorem setSeq_round (s : State) (q : Seq) : (setSeq s q).round = s.round := by unfold setSeq; split <;> [rfl; (split <;> rfl)]
@[simp] theorem setSeq_free (s : State) (q : Seq) : (setSeq s q).free = s.free := by unfold setSeq; split <;> [rfl; (split <;> rfl)]
@[simp] theorem setSeq_fresh (s : State) (q : Seq) : (setSeq s q).fresh = s.fresh := by unfold setSeq; split <;> [rfl; (split <;> rfl)]
@[simp] theorem setSeq_ms (s : State) (q : Seq) : (setSeq s q).ms = s.ms := by unfold setSeq; split <;> [rfl; (split <;> rfl)]
@[simp] theorem setSeq_ld (s : State) (q : Seq) : (setSeq s q).ld = s.ld := by unfold setSeq; split <;> [rfl; (split <;> rfl)]
@[simp] theorem setSeq_hub (s : State) (q : Seq) : (setSeq s q).hub = s.hub := by unfold setSeq; split <;> [rfl; (split <;> rfl)]
@[simp] theorem setSeq_arrays (s : State) (q : Seq) : (setSeq s q).arrays = s.arrays := by unfold setSeq; split <;> [rfl; (split <;> rfl)]
@[simp] theorem setSeq_wk (s : State) (q : Seq) : (setSeq s q).wk = s.wk := by unfold setSeq; split <;> [rfl; (split <;> rfl)]
@[simp] theorem setSeq_en (s : State) (q : Seq) : (setSeq s q).en = s.en := by unfold setSeq; split <;> [rfl; (split <;> rfl)]
@[simp] theorem setSeq_qt (s : State) (q : Seq) : (setSeq s q).qt = s.qt := by unfold setSeq; split <;> [rfl; (split <;> rfl)]
@[simp] theorem setSeq_mg (s : State) (q : Seq) : (setSeq s q).mg = s.mg := by unfold setSeq; split <;> [rfl; (split <;> rfl)]
@[simp] theorem setSeq_fl (s : State) (q : Seq) : (setSeq s q).fl = s.fl := by unfold setSeq; split <;> [rfl; (split <;> rfl)]
@[simp] theorem setSeq_vfr (s : State) (q : Seq) : (setSeq s q).vfr = s.vfr := by unfold setSeq; split <;> [rfl; (split <;> rfl)]
@[simp] theorem setSeq_dev (s : State) (q : Seq) : (setSeq s q).dev = s.dev := by unfold setSeq; split <;> [rfl; (split <;> rfl)]
@[simp] theorem setSeq_acnt (s : State) (q : Seq) : (setSeq s q).acnt = s.acnt := by unfold setSeq; split <;> [rfl; (split <;> rfl)]
@[simp] theorem setSeq_tnow (s : State) (q : Seq) : (setSeq s q).tnow = s.tnow := by unfold setSeq; split <;> [rfl; (split <;> rfl)]

/-! ## setWait -/

@[simp] theorem setWait_others (s : State) (w : Wait) : (setWait s w).others = s.others := by unfold setWait; split <;> rfl
@[simp] theorem setWait_onAp (s : State) (w : Wait) : (setWait s w).onAp = s.onAp := by unfold setWait; split <;> rfl
@[simp] theorem setWait_agenda (s : State) (w : Wait) : (setWait s w).agenda = s.agenda := by unfold setWait; split <;> rfl
@[simp] theorem setWait_round (s : State) (w : Wait) : (setWait s w).round = s.round := by unfold setWait; split <;> rfl
@[simp] theorem setWait_free (s : State) (w : Wait) : (setWait s w).free = s.free := by unfold setWait; split <;> rfl
@[simp] theorem setWait_fresh (s : State) (w : Wait) : (setWait s w).fresh = s.fresh := by unfold setWait; split <;> rfl
@[simp] theorem setWait_ms (s : State) (w : Wait) : (setWait s w).ms = s.ms := by unfold setWait; split <;> rfl
@[simp] theorem setWait_ld (s : State) (w : Wait) : (setWait s w).ld = s.ld := by unfold setWait; split <;> rfl
@[simp] theorem setWait_hub (s : State) (w : Wait) : (setWait s w).hub = s.hub := by unfold setWait; split <;> rfl
@[simp] theorem setWait_arrays (s : State) (w : Wait) : (setWait s w).arrays = s.arrays := by unfold setWait; split <;> rfl
@[simp] theorem setWait_wk (s : State) (w : Wait) : (setWait s w).wk = s.wk := by unfold setWait; split <;> rfl
@[simp] theorem setWait_en (s : State) (w : Wait) : (setWait s w).en = s.en := by unfold setWait; split <;> rfl
@[simp] theorem setWait_qt (s : State) (w : Wait) : (setWait s w).qt = s.qt := by unfold setWait; split <;> rfl
@[simp] theorem setWait_mg (s : State) (w : Wait) : (setWait s w).mg = s.mg := by unfold setWait; split <;> rfl
@[simp] theorem setWait_fl (s : State) (w : Wait) : (setWait s w).fl = s.fl := by unfold setWait; split <;> rfl
@[simp] theorem setWait_vfr (s : State) (w : Wait) : (setWait s w).vfr = s.vfr := by unfold setWait; split <;> rfl
@[simp] theorem setWait_dev (s : State) (w : Wait) : (setWait s w).dev = s.dev := by unfold setWait; split <;> rfl
@[simp] theorem setWait_acnt (s : State) (w : Wait) : (setWait s w).acnt = s.acnt := by unfold setWait; split <;> rfl
@[simp] theorem setWait_tnow (s : State) (w : Wait) : (setWait s w).tnow = s.tnow := by unfold setWait; split <;> rfl

/-! ## setWins -/

@[simp] theorem setWins_others (s : State) (w : List Window) : (setWins s w).others = s.others := by unfold setWins; split <;> rfl
@[simp] theorem setWins_onAp (s : State) (w : List Window) : (setWins s w).onAp = s.onAp := by unfold setWins; split <;> rfl
@[simp] theorem setWins_agenda (s : State) (w : List Window) : (setWins s w).agenda = s.agenda := by unfold setWins; split <;> rfl
@[simp] theorem setWins_round (s : State) (w : List Window) : (setWins s w).round = s.round := by unfold setWins; split <;> rfl
@[simp] theorem setWins_free (s : State) (w : List Window) : (setWins s w).free = s.free := by unfold setWins; split <;> rfl
@[simp] theorem setWins_fresh (s : State) (w : List Window) : (setWins s w).fresh = s.fresh := by unfold setWins; split <;> rfl
@[simp] theorem setWins_ms (s : State) (w : List Window) : (setWins s w).ms = s.ms := by unfold setWins; split <;> rfl
@[simp] theorem setWins_ld (s : State) (w : List Window) : (setWins s w).ld = s.ld := by unfold setWins; split <;> rfl
@[simp] theorem setWins_hub (s : State) (w : List Window) : (setWins s w).hub = s.hub := by unfold setWins; split <;> rfl
@[simp] theorem setWins_arrays (s : State) (w : List Window) : (setWins s w).arrays = s.arrays := by unfold setWins; split <;> rfl
@[simp] theorem setWins_wk (s : State) (w : List Window) : (setWins s w).wk = s.wk := by unfold setWins; split <;> rfl
@[simp] theorem setWins_en (s : State) (w : List Window) : (setWins s w).en = s.en := by unfold setWins; split <;> rfl
@[simp] theorem setWins_qt (s : State) (w : List Window) : (setWins s w).qt = s.qt := by unfold setWins; split <;> rfl
@[simp] theorem setWins_mg (s : State) (w : List Window) : (setWins s w).mg = s.mg := by unfold setWins; split <;> rfl
@[simp] theorem setWins_fl (s : State) (w : List Window) : (setWins s w).fl = s.fl := by unfold setWins; split <;> rfl
@[simp] theorem setWins_vfr (s : State) (w : List Window) : (setWins s w).vfr = s.vfr := by unfold setWins; split <;> rfl
@[simp] theorem setWins_dev (s : State) (w : List Window) : (setWins s w).dev = s.dev := by unfold setWins; split <;> rfl
@[simp] theorem setWins_acnt (s : State) (w : List Window) : (setWins s w).acnt = s.acnt := by unfold setWins; split <;> rfl
@[simp] theorem setWins_tnow (s : State) (w : List Window) : (setWins s w).tnow = s.tnow := by unfold setWins; split <;> rfl

/-! ## countWindows -/

@[simp] theorem countWindows_others (s : State) : (countWindows s).others = s.others := setWins_others ..
@[simp] theorem countWindows_onAp (s : State) : (countWindows s).onAp = s.onAp := setWins_onAp ..
@[simp] theorem countWindows_agenda (s : State) : (countWindows s).agenda = s.agenda := setWins_agenda ..
@[simp] theorem countWindows_round (s : State) : (countWindows s).round = s.round := setWins_round ..
@[simp] theorem countWindows_free (s : State) : (countWindows s).free = s.free := setWins_free ..
@[simp] theorem countWindows_fresh (s : State) : (countWindows s).fresh = s.fresh := setWins_fresh ..
@[simp] theorem countWindows_ms (s : State) : (countWindows s).ms = s.ms := setWins_ms ..
@[simp] theorem countWindows_ld (s : State) : (countWindows s).ld = s.ld := setWins_ld ..
@[simp] theorem countWindows_hub (s : State) : (countWindows s).hub = s.hub := setWins_hub ..
@[simp] theorem countWindows_arrays (s : State) : (countWindows s).arrays = s.arrays := setWins_arrays ..
@[simp] theorem countWindows_wk (s : State) : (countWindows s).wk = s.wk := setWins_wk ..
@[simp] theorem countWindows_en (s : State) : (countWindows s).en = s.en := setWins_en ..
@[simp] theorem countWindows_qt (s : State) : (countWindows s).qt = s.qt := setWins_qt ..
@[simp] theorem countWindows_mg (s : State) : (countWindows s).mg = s.mg := setWins_mg ..
@[simp] theorem countWindows_fl (s : State) : (countWindows s).fl = s.fl := setWins_fl ..
@[simp] theorem countWindows_vfr (s : State) : (countWindows s).vfr = s.vfr := setWins_vfr ..
@[simp] theorem countWindows_dev (s : State) : (countWindows s).dev = s.dev := setWins_dev ..
@[simp] theorem countWindows_acnt (s : State) : (countWindows s).acnt = s.acnt := setWins_acnt ..
@[simp] theorem countWindows_tnow (s : State) : (countWindows s).tnow = s.tnow := setWins_tnow ..

/-! ## issued -/

@[simp] theorem issued_others (s : State) : (issued s).others = s.others := by unfold issued; dsimp only; split <;> simp
@[simp] theorem issued_onAp (s : State) : (issued s).onAp = s.onAp := by unfold issued; dsimp only; split <;> simp
@[simp] theorem issued_agenda (s : State) : (issued s).agenda = s.agenda := by unfold issued; dsimp only; split <;> simp
@[simp] theorem issued_round (s : State) : (issued s).round = s.round := by unfold issued; dsimp only; split <;> simp
@[simp] theorem issued_free (s : State) : (issued s).free = s.free := by unfold issued; dsimp only; split <;> simp
@[simp] theorem issued_fresh (s : State) : (issued s).fresh = s.fresh := by unfold issued; dsimp only; split <;> simp
@[simp] theorem issued_ms (s : State) : (issued s).ms = s.ms := by unfold issued; dsimp only; split <;> simp
@[simp] theorem issued_ld (s : State) : (issued s).ld = s.ld := by unfold issued; dsimp only; split <;> simp
@[simp] theorem issued_hub (s : State) : (issued s).hub = s.hub := by unfold issued; dsimp only; split <;> simp
@[simp] theorem issued_arrays (s : State) : (issued s).arrays = s.arrays := by unfold issued; dsimp only; split <;> simp
@[simp] theorem issued_wk (s : State) : (issued s).wk = s.wk := by unfold issued; dsimp only; split <;> simp
@[simp] theorem issued_en (s : State) : (issued s).en = s.en := by unfold issued; dsimp only; split <;> simp
@[simp] theorem issued_qt (s : State) : (issued s).qt = s.qt := by unfold issued; dsimp only; split <;> simp
@[simp] theorem issued_mg (s : State) : (issued s).mg = s.mg := by unfold issued; dsimp only; split <;> simp
@[simp] theorem issued_fl (s : State) : (issued s).fl = s.fl := by unfold issued; dsimp only; split <;> simp
@[simp] theorem issued_vfr (s : State) : (issued s).vfr = s.vfr := by unfold issued; dsimp only; split <;> simp
@[simp] theorem issued_dev (s : State) : (issued s).dev = s.dev := by unfold issued; dsimp only; split <;> simp
@[simp] theorem issued_acnt (s : State) : (issued s).acnt = s.acnt := by unfold issued; dsimp only; split <;> simp
@[simp] theorem issued_tnow (s : State) : (issued s).tnow = s.tnow := by unfold issued; dsimp only; split <;> simp

/-! ## The part that an update writes -/

@[simp] theorem setG_g (s : State) (c : Ctx) : (setG s c).g = c := rfl
@[simp] theorem takeFresh_fresh (s : State) : (takeFresh s).2.fresh = s.fresh + 1 := rfl
@[simp] theorem orFlags_flags (s : State) (f : Word) : (orFlags s f).g.flags = s.g.flags ||| f := rfl
@[simp] theorem orFlags_regs (s : State) (f : Word) : (orFlags s f).g.regs = s.g.regs := rfl
@[simp] theorem withRegs_regs (s : State) (r : Store Word) (fl : Word) : (withRegs s r fl).g.regs = r := rfl
@[simp] theorem withRegs_flags (s : State) (r : Store Word) (fl : Word) : (withRegs s r fl).g.flags = fl := rfl
@[simp] theorem putReg_flags (s : State) (key : Nat) (x : Word) : (putReg s key x).g.flags = s.g.flags := rfl
@[simp] theorem logAll_mem (s : State) (es : List LogEntry) : (logAll s es).ms.mem = s.ms.mem := rfl
@[simp] theorem logAll_log (s : State) (es : List LogEntry) : (logAll s es).ms.log = s.ms.log ++ es := rfl

end Sys2Proof.Machine
end

