-- ==== Sys2Proof/Laws/Store.lean ====
section
/-! SUPPORT. The laws of the finite map: a read after a write, and that every update keeps the canonical form. -/

namespace Sys2Proof.Machine

variable {α : Type}

theorem storeGet_erase (d : α) (st : Store α) (a b : Nat) :
    storeGet d (storeErase st a) b = if b = a then d else storeGet d st b := by
  induction st with
  | nil => simp [storeErase, storeGet]
  | cons e t ih => obtain ⟨k, v⟩ := e; simp only [storeErase]; split <;> simp only [storeGet, ih] <;> grind

theorem storeGet_insert (d : α) (st : Store α) (a b : Nat) (x : α) (hn : ∀ e ∈ st, e.1 ≠ a) :
    storeGet d (storeInsert st a x) b = if b = a then x else storeGet d st b := by
  induction st with
  | nil => simp [storeInsert, storeGet, eq_comm]
  | cons e t ih =>
    obtain ⟨k, v⟩ := e
    have hk : k ≠ a := hn (k, v) (by simp)
    have ht := ih fun e he => hn e (by simp [he])
    simp only [storeInsert]
    split <;> simp only [storeGet, ht] <;> grind

theorem storeErase_ne (st : Store α) (a : Nat) : ∀ e ∈ storeErase st a, e.1 ≠ a := by
  induction st with
  | nil => simp [storeErase]
  | cons e t ih =>
    obtain ⟨k, v⟩ := e
    simp only [storeErase]
    split
    · exact ih
    · rintro f hf
      rcases List.mem_cons.1 hf with rfl | hf
      · assumption
      · exact ih f hf

/-- A read after a write (R74): the written value at its key, what stood before at every other. -/
theorem storeGet_set [DecidableEq α] (d : α) (st : Store α) (a b : Nat) (x : α) :
    storeGet d (storeSet d st a x) b = if b = a then x else storeGet d st b := by
  unfold storeSet
  split
  · simp_all [storeGet_erase]
  · rw [storeGet_insert d _ a b x (storeErase_ne st a), storeGet_erase]; split <;> rfl

theorem storeGet_set_self [DecidableEq α] (d : α) (st : Store α) (a : Nat) (x : α) :
    storeGet d (storeSet d st a x) a = x := by simp [storeGet_set]

theorem storeGet_set_ne [DecidableEq α] (d : α) (st : Store α) {a b : Nat} (x : α) (h : b ≠ a) :
    storeGet d (storeSet d st a x) b = storeGet d st b := by simp [storeGet_set, h]

/-! ## The canonical form -/

theorem storeAbove_iff (st : Store α) (a : Nat) : storeAbove a st = true ↔ ∀ e ∈ st, a < e.1 := by
  induction st with
  | nil => simp [storeAbove]
  | cons e t ih => simp [storeAbove, ih]

/-- The canonical form, said of lists. -/
theorem storeWf_iff [DecidableEq α] (d : α) (st : Store α) :
    storeWf d st = true ↔ st.Pairwise (fun a b => a.1 < b.1) ∧ ∀ e ∈ st, e.2 ≠ d := by
  induction st with
  | nil => simp [storeWf]
  | cons e t ih => simp [storeWf, ih, storeAbove_iff]; tauto

theorem storeErase_eq (st : Store α) (a : Nat) : storeErase st a = st.filter fun e => decide (e.1 ≠ a) := by
  induction st with
  | nil => rfl
  | cons e t ih => obtain ⟨k, v⟩ := e; simp only [storeErase]; split <;> simp_all

theorem storeWf_filter [DecidableEq α] (d : α) (st : Store α) (p : Nat × α → Bool) (h : storeWf d st = true) :
    storeWf d (st.filter p) = true := by
  rw [storeWf_iff] at *
  exact ⟨h.1.filter p, fun e he => h.2 e (List.mem_of_mem_filter he)⟩

theorem storeWf_erase [DecidableEq α] (d : α) (st : Store α) (a : Nat) (h : storeWf d st = true) :
    storeWf d (storeErase st a) = true := by
  rw [storeErase_eq]; exact storeWf_filter d st _ h

theorem mem_storeInsert (st : Store α) (a : Nat) (x : α) (e : Nat × α) :
    e ∈ storeInsert st a x ↔ e = (a, x) ∨ e ∈ st := by
  induction st with
  | nil => simp [storeInsert]
  | cons f t ih => obtain ⟨k, v⟩ := f; simp only [storeInsert]; split <;> (simp_all; try tauto)

theorem storeWf_insert [DecidableEq α] (d : α) (st : Store α) (a : Nat) (x : α) (hx : x ≠ d)
    (hn : ∀ e ∈ st, e.1 ≠ a) (h : storeWf d st = true) : storeWf d (storeInsert st a x) = true := by
  induction st with
  | nil => simp [storeInsert, storeWf, storeAbove, hx]
  | cons e t ih =>
    obtain ⟨k, v⟩ := e
    simp only [storeWf, Bool.and_eq_true, decide_eq_true_eq, storeAbove_iff] at h
    have hk : k ≠ a := hn (k, v) (by simp)
    have ht := ih (fun e he => hn e (by simp [he])) h.2
    simp only [storeInsert]
    split
    · rename_i hlt
      simp only [storeWf, Bool.and_eq_true, decide_eq_true_eq, storeAbove_iff]
      refine ⟨⟨fun e he => ?_, hx⟩, h⟩
      rcases List.mem_cons.1 he with rfl | he
      · exact hlt
      · exact hlt.trans (h.1.1 e he)
    · rename_i hlt
      simp only [storeWf, Bool.and_eq_true, decide_eq_true_eq, storeAbove_iff]
      refine ⟨⟨fun e he => ?_, h.1.2⟩, ht⟩
      rcases (mem_storeInsert t a x e).1 he with rfl | he
      · simp; omega
      · exact h.1.1 e he

/-- A write keeps the canonical form. -/
theorem storeWf_set [DecidableEq α] (d : α) (st : Store α) (a : Nat) (x : α) (h : storeWf d st = true) :
    storeWf d (storeSet d st a x) = true := by
  unfold storeSet
  split
  · exact storeWf_erase d st a h
  · exact storeWf_insert d _ a x ‹_› (storeErase_ne st a) (storeWf_erase d st a h)

/-- Clearing a range keeps the canonical form. -/
theorem storeWf_clear [DecidableEq α] (d : α) (st : Store α) (lo n : Nat) (h : storeWf d st = true) :
    storeWf d (storeClear st lo n) = true := storeWf_filter d st _ h

/-- Equal reads of canonical maps are equal maps. -/
theorem store_ext [DecidableEq α] (d : α) (s t : Store α) (hs : storeWf d s = true) (ht : storeWf d t = true)
    (h : ∀ a, storeGet d s a = storeGet d t a) : s = t := by
  have low : ∀ (u : Store α) (a : Nat), (∀ e ∈ u, a < e.1) → storeGet d u a = d := by
    intro u
    induction u with
    | nil => intros; rfl
    | cons e u ih =>
      obtain ⟨k, v⟩ := e
      intro a ha
      have hk : k ≠ a := by have := ha (k, v) (by simp); omega
      simp only [storeGet, hk, if_false]
      exact ih a fun e he => ha e (by simp [he])
  induction s generalizing t with
  | nil =>
    cases t with
    | nil => rfl
    | cons e t =>
      obtain ⟨k, v⟩ := e
      simp only [storeWf, Bool.and_eq_true, decide_eq_true_eq] at ht
      exact absurd (by simpa [storeGet] using (h k).symm) ht.1.2
  | cons e s ih =>
    obtain ⟨k, v⟩ := e
    simp only [storeWf, Bool.and_eq_true, decide_eq_true_eq, storeAbove_iff] at hs
    cases t with
    | nil => exact absurd (by simpa [storeGet] using h k) hs.1.2
    | cons f t =>
      obtain ⟨k', v'⟩ := f
      simp only [storeWf, Bool.and_eq_true, decide_eq_true_eq, storeAbove_iff] at ht
      have hkk : k = k' := by
        rcases lt_trichotomy k k' with hlt | heq | hgt
        · exfalso
          have := h k
          rw [low ((k', v') :: t) k (by rintro e he; rcases List.mem_cons.1 he with rfl | he; exact hlt; exact hlt.trans (ht.1.1 e he))] at this
          exact hs.1.2 (by simpa [storeGet] using this)
        · exact heq
        · exfalso
          have := h k'
          rw [low ((k, v) :: s) k' (by rintro e he; rcases List.mem_cons.1 he with rfl | he; exact hgt; exact hgt.trans (hs.1.1 e he))] at this
          exact ht.1.2 (by simpa [storeGet] using this.symm)
      subst hkk
      have hv : v = v' := by simpa [storeGet] using h k
      subst hv
      congr 1
      refine ih t hs.2 ht.2 fun a => ?_
      by_cases ha : k = a
      · subst ha; rw [low s k hs.1.1, low t k ht.1.1]
      · simpa [storeGet, ha] using h a

/-! ## Numbers below a bound -/

@[simp] theorem mem_upto (n i : Nat) : i ∈ upto n ↔ i < n := by
  induction n with
  | zero => simp [upto]
  | succ n ih => simp [upto, ih]; omega

@[simp] theorem length_upto (n : Nat) : (upto n).length = n := by
  induction n with
  | zero => rfl
  | succ n ih => simp [upto, ih]

theorem upto_eq_range (n : Nat) : upto n = List.range n := by
  induction n with
  | zero => rfl
  | succ n ih => simp [upto, ih, List.range_succ]

end Sys2Proof.Machine
end

