-- ==== Sys2Proof/Laws/Memory.lean ====
section
/-! SUPPORT. What a write does to memory: the bytes written read as written, every other byte as before; and every operation on
memory keeps its canonical form. The registers of VF and device scope read back what was written (R172). -/

namespace Sys2Proof.Machine

/-! ## Registers of VF and device scope -/

theorem devReg_set (s : State) (n m : Nat) (x : DWord) :
    devReg (setDevReg s n x) m = if m = n then x else devReg s m := by
  unfold devReg setDevReg
  rcases eq_or_ne m n with rfl | h
  · simp [storeGet_set]
  · by_cases hr : regReset n = regReset m
    · simp [hr, storeGet_set, h]
    · simp only [h, if_false]
      unfold storeSet
      have key (l : Store DWord) : storeGet (regReset m) (storeErase l n) m = storeGet (regReset m) l m := by
        rw [storeGet_erase]; simp [h]
      split
      · exact key _
      · rw [storeGet_insert _ _ _ _ _ (storeErase_ne _ _)]; simp [h, key]

theorem fleetReg_set (s : State) (off m x : Nat) :
    fleetReg (setFleet s off x) m = if m = off then x % 2 ^ 64 else fleetReg s m := by
  unfold fleetReg setFleet
  simp only [storeGet_set]
  split <;> simp

theorem peerReg_set (s : State) (q p x : Nat) : peerReg (setPeer s q x) p = if p = q then x % 2 ^ 64 else peerReg s p := by
  unfold peerReg setPeer
  simp only [storeGet_set]
  split <;> simp

/-! ## A write of one byte -/

theorem putRec_mem (s : State) (w : WriteRec) : (putRec s w).ms.mem = storeSet emptyByte s.ms.mem w.key w.val := rfl

/-- A read after a write (R74): the byte written, and every other as before. -/
theorem homeByte_putRec (s : State) (w : WriteRec) (k : Nat) :
    homeByte (putRec s w) k = if k = w.key then w.val else homeByte s k := by
  unfold homeByte; rw [putRec_mem, storeGet_set]

theorem inv_set {s : State} (h : StateInv s) (k : Nat) (x : Byte) :
    Memory.wf (storeSet emptyByte s.ms.mem k x) = true := storeWf_set _ _ _ _ h

theorem inv_putRec {s : State} (h : StateInv s) (w : WriteRec) : StateInv (putRec s w) := inv_set h _ _

/-- A fold of steps that keep the invariant keeps it. -/
theorem inv_foldl {β : Type} (f : State → β → State) (hf : ∀ s x, StateInv s → StateInv (f s x)) (l : List β) {s : State}
    (h : StateInv s) : StateInv (l.foldl f s) := by
  induction l generalizing s with
  | nil => exact h
  | cons x l ih => exact ih (hf s x h)

/-- What leaves memory as it is keeps the invariant. -/
theorem inv_of_mem {s t : State} (h : StateInv s) (k : t.ms.mem = s.ms.mem) : StateInv t := by
  unfold StateInv at *; rw [k]; exact h

/-! ## Writes of several bytes -/

theorem inv_devPutKeys {s : State} (h : StateInv s) (ks : List Nat) (bs : List Byte) : StateInv (devPutKeys s ks bs) := by
  unfold devPutKeys
  refine inv_foldl _ (fun u x hu => ?_) _ (inv_of_mem h rfl)
  dsimp only
  split
  · exact inv_set hu _ _
  · exact inv_putRec hu _

theorem inv_physPut {s : State} (h : StateInv s) (pa n x : Nat) : StateInv (physPut s pa n x) := inv_devPutKeys h ..

theorem inv_putBytes {s : State} (h : StateInv s) (p : Party) (ev : Nat) (w : Option Nat) (b : Bool) (scope : Nat) (rels : List Rel)
    (ks : List Nat) (bs : List Byte) : StateInv (putBytes s p ev w b scope rels ks bs) := inv_foldl _ (fun _ _ hu => inv_putRec hu _) _ h

theorem inv_ite {s t : State} {p : Prop} [Decidable p] (h : StateInv s) (k : StateInv t) : StateInv (if p then s else t) := by
  split <;> assumption

theorem inv_setTlb {s : State} (h : StateInv s) (x : List TlbEntry) : StateInv { s with ms := { s.ms with tlb := x } } := h

theorem inv_markEntry {s : State} (h : StateInv s) (p : Page) (m : Nat) : StateInv (markEntry s p m) :=
  inv_ite (inv_foldl _ (fun _ _ hu => inv_ite hu (inv_physPut hu ..)) _ h) (inv_ite h (inv_physPut h ..))

theorem inv_noteWalk {s : State} (h : StateInv s) (a : Acc) (u : Use) (va : Nat) (p : Page) : StateInv (noteWalk s a u va p) := by
  unfold noteWalk
  have w (x) := inv_markEntry h p x
  exact inv_ite h (inv_ite (w _) (inv_setTlb (w _) _))

/-- The last value that a list of writes gives a key. -/
def lastWrite (ws : List (Nat × Byte)) (k : Nat) : Option Byte := (ws.reverse.find? fun e => e.1 == k).map (·.2)

theorem lastWrite_cons (k : Nat) (b : Byte) (ws : List (Nat × Byte)) (a : Nat) :
    lastWrite ((k, b) :: ws) a = (lastWrite ws a).or (if k = a then some b else none) := by
  unfold lastWrite
  simp only [List.reverse_cons, List.find?_append]
  cases List.find? (fun e => e.1 == a) ws.reverse <;> simp [List.find?_cons]
  split <;> simp_all

/-- A fold that writes one byte each leaves every byte as its last write, or as before. -/
theorem homeByte_fold (f : State → Nat × Byte → State)
    (hf : ∀ s e k, homeByte (f s e) k = if k = e.1 then e.2 else homeByte s k) (ws : List (Nat × Byte)) (s : State) (k : Nat) :
    homeByte (ws.foldl f s) k = (lastWrite ws k).getD (homeByte s k) := by
  induction ws generalizing s with
  | nil => rfl
  | cons e ws ih =>
    obtain ⟨a, b⟩ := e
    rw [List.foldl_cons, ih, hf, lastWrite_cons]
    cases lastWrite ws k <;> simp [eq_comm]
    split <;> simp

theorem homeByte_devPutKeys (s : State) (ks : List Nat) (bs : List Byte) (k : Nat) :
    homeByte (devPutKeys s ks bs) k = (lastWrite (ks.zip bs) k).getD (homeByte s k) := by
  unfold devPutKeys
  refine (homeByte_fold _ (fun u e k => ?_) _ _ k).trans rfl
  dsimp only
  split
  · unfold homeByte; simp [storeGet_set]
  · rw [homeByte_putRec]

theorem homeByte_putBytes (s : State) (p : Party) (ev : Nat) (w : Option Nat) (b : Bool) (scope : Nat) (rels : List Rel) (ks : List Nat)
    (bs : List Byte) (k : Nat) :
    homeByte (putBytes s p ev w b scope rels ks bs) k = (lastWrite (ks.zip bs) k).getD (homeByte s k) :=
  homeByte_fold _ (fun _ _ _ => homeByte_putRec ..) _ _ k

/-! ## The other operations on memory -/

theorem wf_fold_set {β : Type} (k : β → Nat) (v : β → Byte) (l : List β) (m : Store Byte) (h : storeWf emptyByte m = true) :
    storeWf emptyByte (l.foldl (fun m c => storeSet emptyByte m (k c) (v c)) m) = true := by
  induction l generalizing m with
  | nil => exact h
  | cons x l ih => exact ih _ (storeWf_set _ _ _ _ h)

theorem inv_followed {s : State} (h : StateInv s) (ev : Nat) (ks : List Nat) : StateInv (followed s ev ks) := by
  unfold followed
  refine inv_foldl _ (fun u x hu => ?_) _ h
  dsimp only
  split
  · exact hu
  · exact inv_set hu _ _

theorem inv_arriveIf {s : State} (h : StateInv s) (p : WriteRec → Bool) : StateInv (arriveIf s p) := inv_of_mem h rfl

theorem inv_evict {s : State} (h : StateInv s) : StateInv (evict s) := wf_fold_set _ _ _ _ h

theorem inv_ladleCount {s : State} (h : StateInv s) (vf off : Nat) : StateInv (ladleCount s vf off) := by
  unfold ladleCount
  dsimp only
  exact inv_ite h (inv_physPut h ..)

theorem inv_ringPut {s : State} (h : StateInv s) (p : Proposal) : StateInv (ringPut s p).1 := by
  unfold ringPut
  dsimp only
  split
  · exact h
  · split
    · exact inv_ladleCount h ..
    · exact inv_of_mem (inv_physPut (inv_physPut h ..) ..) rfl

theorem inv_fileProposal {s : State} (h : StateInv s) (a : Acc) (src va level pte : Nat) (w : Nat × Nat × Nat) (b : Bool) :
    StateInv (fileProposal s a src va level pte w b).1 := by
  unfold fileProposal
  cases pageSize level pte with
  | mk n c =>
    dsimp only
    generalize (2 ≤ c || _ || _) = x
    cases x with
    | true => exact h
    | false =>
      by_cases h1 : migMode s a.vf = 1
      · simp only [Bool.false_eq_true, if_false, if_pos h1]; exact inv_of_mem h rfl
      · by_cases h2 : migMode s a.vf = 2
        · simp only [Bool.false_eq_true, if_false, if_neg h1, if_pos h2]; exact inv_ringPut h _
        · simp only [Bool.false_eq_true, if_false, if_neg h1, if_neg h2]; exact h

theorem inv_countSector {s : State} (h : StateInv s) (a : Acc) (va : Nat) (g : Page) : StateInv (countSector s a va g).1 := by
  have k (x : Store Nat) : StateInv { s with ld := { s.ld with hot := x } } := by unfold StateInv at *; exact h
  unfold countSector
  dsimp only
  split
  · exact inv_fileProposal (k _) ..
  · exact k _

theorem updCtx_ms (s : State) (vf i : Nat) (f : Ctx → Ctx) : (updCtx s vf i f).ms = s.ms := by
  unfold updCtx; split <;> rfl

theorem inv_notifyFiled {s : State} (h : StateInv s) (vf i : Nat) (m : Mask) : StateInv (notifyFiled s vf i m) :=
  inv_of_mem h (by unfold notifyFiled; rw [updCtx_ms])

theorem inv_countWritten {s : State} (h : StateInv s) (d : DirtySector) : StateInv (countWritten s d) := by
  have k : StateInv { s with ms := { s.ms with dirty := s.ms.dirty.erase d } } := by unfold StateInv at *; exact h
  unfold countWritten
  refine inv_ite h ?_
  dsimp only
  split
  · exact inv_notifyFiled (inv_countSector k ..) ..
  · exact inv_countSector k ..

theorem inv_countArrived {s : State} (h : StateInv s) : StateInv (countArrived s) :=
  inv_foldl _ (fun _ _ hu => inv_countWritten hu _) _ h

theorem inv_arriveAt {s : State} (h : StateInv s) (p : Nat → Bool) : StateInv (arriveAt s p) := inv_of_mem h rfl

theorem inv_dropSectors {s : State} (h : StateInv s) (p : Nat → Bool) (gone : List Nat) : StateInv (dropSectors s p gone) := by
  unfold dropSectors
  refine inv_foldl _ (fun u x hu => ?_) _ (inv_countArrived (inv_arriveAt (inv_of_mem h rfl) p))
  split
  · exact inv_set hu _ _
  · exact hu

theorem inv_copyPiece {s : State} (h : StateInv s) (src dst : Nat) : StateInv (copyPiece s src dst) :=
  wf_fold_set _ _ _ _ (storeWf_clear _ _ _ _ h)

theorem inv_placeBytes {s : State} (h : StateInv s) (pa n x : Nat) : StateInv (placeBytes s pa n x) := wf_fold_set _ _ _ _ h

theorem wf_arrivedMem {s : State} (h : StateInv s) : storeWf emptyByte (arrivedMem s) = true := by
  unfold arrivedMem
  dsimp only
  generalize distinct _ = l
  have hm : storeWf emptyByte s.ms.mem = true := h
  generalize s.ms.mem = m at hm ⊢
  induction l generalizing m with
  | nil => exact hm
  | cons x l ih =>
    rw [List.foldl_cons]
    apply ih
    cases ((recsOf s x).filter fun w => w.arrived.isSome).getLast? with
    | none => exact hm
    | some w => exact storeWf_set _ _ _ _ hm

theorem inv_startState {s : State} (h : StateInv s) : StateInv (startState s) := wf_arrivedMem h

theorem inv_zeroTiers {s : State} (h : StateInv s) : StateInv (zeroTiers s) := storeWf_filter _ _ _ h

theorem inv_setDevReg {s : State} (h : StateInv s) (n : Nat) (x : DWord) : StateInv (setDevReg s n x) := h

theorem inv_logError {s : State} (h : StateInv s) (c src i u a n : Nat) : StateInv (logError s c src i u a n) := by
  unfold logError
  exact inv_ite (inv_setDevReg h _ _) (inv_setDevReg (inv_physPut h _ _ _) _ _)

theorem inv_reset : StateInv State.reset := rfl

end Sys2Proof.Machine
end

