-- ==== Sys2Proof/Laws/PerInstr.lean ====
section
/-! SUPPORT. The family RoundTrip: decoding the word of a well-formed instruction gives the instruction back (R160 to R162, R182,
R185). One lemma for each constructor. -/

namespace Sys2Proof.Laws

theorem nasOf_code (n : Nas) : nasOf n.code = n := by cases n <;> decide

/-- SET and OP of a word. -/
structure Slot (set : BitVec 1) (op : BitVec 7) (w : Word) : Prop where
  set : w.extractLsb' 31 1 = set
  row : w.extractLsb' 25 3 = op.extractLsb' 4 3
  col : w.extractLsb' 21 4 = op.extractLsb' 0 4

theorem slot_pack (set : BitVec 1) (n : BitVec 3) (op : BitVec 7) (x : BitVec 21) :
    Slot set op (set ++ n ++ op ++ x : Word) ∧ (set ++ n ++ op ++ x : Word).extractLsb' 28 3 = n := by
  refine ⟨⟨?_, ?_, ?_⟩, ?_⟩ <;> ext i hi <;> simp <;> grind

theorem getR_putR (set : BitVec 1) (op : BitVec 7) (f : FmtR) : getR (putR set op f) = f := by
  obtain ⟨n, d, a, b, x⟩ := f
  simp only [getR, putR, wordNas, FmtR.mk.injEq]
  refine ⟨by rw [(slot_pack ..).2, nasOf_code], ?_, ?_, ?_, ?_⟩ <;> ext i hi <;> simp <;> grind

theorem getI_putI (set : BitVec 1) (op : BitVec 7) (f : FmtI) : getI (putI set op f) = f := by
  obtain ⟨n, d, a, imm⟩ := f
  simp only [getI, putI, wordNas, FmtI.mk.injEq]
  refine ⟨by rw [(slot_pack ..).2, nasOf_code], ?_, ?_, ?_⟩ <;> ext i hi <;> simp <;> grind

theorem getM_putM (set : BitVec 1) (op : BitVec 7) (f : FmtM) : getM (putM set op f) = f := by
  obtain ⟨n, d, a, la, off⟩ := f
  simp only [getM, putM, wordNas, FmtM.mk.injEq]
  refine ⟨by rw [(slot_pack ..).2, nasOf_code], ?_, ?_, ?_, ?_⟩ <;> ext i hi <;> simp <;> grind

theorem getA_putA (set : BitVec 1) (op : BitVec 7) (f : FmtA) : getA (putA set op f) = f := by
  obtain ⟨n, d, a, la, scope, ord⟩ := f
  simp only [getA, putA, wordNas, FmtA.mk.injEq]
  refine ⟨by rw [(slot_pack ..).2, nasOf_code], ?_, ?_, ?_, ?_, ?_⟩ <;> ext i hi <;> simp <;> grind

theorem getX_putX (set : BitVec 1) (op : BitVec 7) (f : FmtX) : getX (putX set op f) = f := by
  obtain ⟨n, a, b, tile, stream, la⟩ := f
  simp only [getX, putX, wordNas, FmtX.mk.injEq]
  refine ⟨by rw [(slot_pack ..).2, nasOf_code], ?_, ?_, ?_, ?_, ?_⟩ <;> ext i hi <;> simp <;> grind

theorem getE_putE (set : BitVec 1) (op : BitVec 7) (f : FmtE) : getE (putE set op f) = f := by
  obtain ⟨n, d, a, la, c⟩ := f
  simp only [getE, putE, wordNas, FmtE.mk.injEq]
  refine ⟨by rw [(slot_pack ..).2, nasOf_code], ?_, ?_, ?_, ?_⟩ <;> ext i hi <;> simp <;> grind

theorem getW_putW (set : BitVec 1) (op : BitVec 7) (f : FmtW) : getW (putW set op f) = f := by
  obtain ⟨n, d, imm⟩ := f
  simp only [getW, putW, wordNas, FmtW.mk.injEq]
  refine ⟨by rw [(slot_pack ..).2, nasOf_code], ?_, ?_⟩ <;> ext i hi <;> simp <;> grind

theorem getH_putH (set : BitVec 1) (op : BitVec 7) (f : FmtH) : getH (putH set op f) = f := by
  obtain ⟨n, d, imm⟩ := f
  simp only [getH, putH, wordNas, FmtH.mk.injEq]
  refine ⟨by rw [(slot_pack ..).2, nasOf_code], ?_, ?_⟩ <;> ext i hi <;> simp <;> grind

theorem getT_putT (set : BitVec 1) (op : BitVec 7) (f : FmtT) : getT (putT set op f) = f := by
  obtain ⟨n, imm⟩ := f
  simp only [getT, putT, wordNas, FmtT.mk.injEq]
  refine ⟨by rw [(slot_pack ..).2, nasOf_code], ?_⟩ <;> ext i hi <;> simp <;> grind

theorem decode_of {w : Word} {i : Instr} (a : assemble w = some i) (h : i.wellFormed = true) : decode w = .ok i := by
  simp [decode, a, h]

/-- The low bits of a word of format E are those of its c. -/
theorem low_c {w : Word} {f : FmtE} (h : getE w = f) (lo n : Nat) (hn : lo + n ≤ 5) : w.extractLsb' lo n = f.c.extractLsb' lo n := by
  subst h
  ext i hi
  simp [getE]
  omega

namespace RoundTrip

/-- The statement of the family. -/
def Statement (i : Instr) : Prop := ∀ w : Word, i.wellFormed = true → encode i = some w → decode w = .ok i

theorem vadd (f : FmtR) : Statement (.vadd f) := fun w h e => by
  obtain rfl : putR 0 0x00 f = w := Option.some.inj e
  have s : Slot 0 0x00 (putR 0 0x00 f) := (slot_pack ..).1
  exact decode_of (by rw [assemble, s.set, s.row, s.col]; exact congrArg (fun x => some (Instr.vadd x)) (getR_putR ..)) h
theorem vsub (f : FmtR) : Statement (.vsub f) := fun w h e => by
  obtain rfl : putR 0 0x01 f = w := Option.some.inj e
  have s : Slot 0 0x01 (putR 0 0x01 f) := (slot_pack ..).1
  exact decode_of (by rw [assemble, s.set, s.row, s.col]; exact congrArg (fun x => some (Instr.vsub x)) (getR_putR ..)) h
theorem vmul (f : FmtR) : Statement (.vmul f) := fun w h e => by
  obtain rfl : putR 0 0x02 f = w := Option.some.inj e
  have s : Slot 0 0x02 (putR 0 0x02 f) := (slot_pack ..).1
  exact decode_of (by rw [assemble, s.set, s.row, s.col]; exact congrArg (fun x => some (Instr.vmul x)) (getR_putR ..)) h
theorem vmulhs (f : FmtR) : Statement (.vmulhs f) := fun w h e => by
  obtain rfl : putR 0 0x03 f = w := Option.some.inj e
  have s : Slot 0 0x03 (putR 0 0x03 f) := (slot_pack ..).1
  exact decode_of (by rw [assemble, s.set, s.row, s.col]; exact congrArg (fun x => some (Instr.vmulhs x)) (getR_putR ..)) h
theorem vmulhn (f : FmtR) : Statement (.vmulhn f) := fun w h e => by
  obtain rfl : putR 0 0x04 f = w := Option.some.inj e
  have s : Slot 0 0x04 (putR 0 0x04 f) := (slot_pack ..).1
  exact decode_of (by rw [assemble, s.set, s.row, s.col]; exact congrArg (fun x => some (Instr.vmulhn x)) (getR_putR ..)) h
theorem vmins (f : FmtR) : Statement (.vmins f) := fun w h e => by
  obtain rfl : putR 0 0x05 f = w := Option.some.inj e
  have s : Slot 0 0x05 (putR 0 0x05 f) := (slot_pack ..).1
  exact decode_of (by rw [assemble, s.set, s.row, s.col]; exact congrArg (fun x => some (Instr.vmins x)) (getR_putR ..)) h
theorem vminn (f : FmtR) : Statement (.vminn f) := fun w h e => by
  obtain rfl : putR 0 0x06 f = w := Option.some.inj e
  have s : Slot 0 0x06 (putR 0 0x06 f) := (slot_pack ..).1
  exact decode_of (by rw [assemble, s.set, s.row, s.col]; exact congrArg (fun x => some (Instr.vminn x)) (getR_putR ..)) h
theorem vmaxs (f : FmtR) : Statement (.vmaxs f) := fun w h e => by
  obtain rfl : putR 0 0x07 f = w := Option.some.inj e
  have s : Slot 0 0x07 (putR 0 0x07 f) := (slot_pack ..).1
  exact decode_of (by rw [assemble, s.set, s.row, s.col]; exact congrArg (fun x => some (Instr.vmaxs x)) (getR_putR ..)) h
theorem vmaxn (f : FmtR) : Statement (.vmaxn f) := fun w h e => by
  obtain rfl : putR 0 0x08 f = w := Option.some.inj e
  have s : Slot 0 0x08 (putR 0 0x08 f) := (slot_pack ..).1
  exact decode_of (by rw [assemble, s.set, s.row, s.col]; exact congrArg (fun x => some (Instr.vmaxn x)) (getR_putR ..)) h
theorem vand (f : FmtR) : Statement (.vand f) := fun w h e => by
  obtain rfl : putR 0 0x09 f = w := Option.some.inj e
  have s : Slot 0 0x09 (putR 0 0x09 f) := (slot_pack ..).1
  exact decode_of (by rw [assemble, s.set, s.row, s.col]; exact congrArg (fun x => some (Instr.vand x)) (getR_putR ..)) h
theorem vor (f : FmtR) : Statement (.vor f) := fun w h e => by
  obtain rfl : putR 0 0x0A f = w := Option.some.inj e
  have s : Slot 0 0x0A (putR 0 0x0A f) := (slot_pack ..).1
  exact decode_of (by rw [assemble, s.set, s.row, s.col]; exact congrArg (fun x => some (Instr.vor x)) (getR_putR ..)) h
theorem vxor (f : FmtR) : Statement (.vxor f) := fun w h e => by
  obtain rfl : putR 0 0x0B f = w := Option.some.inj e
  have s : Slot 0 0x0B (putR 0 0x0B f) := (slot_pack ..).1
  exact decode_of (by rw [assemble, s.set, s.row, s.col]; exact congrArg (fun x => some (Instr.vxor x)) (getR_putR ..)) h
theorem vshl (f : FmtR) : Statement (.vshl f) := fun w h e => by
  obtain rfl : putR 0 0x0C f = w := Option.some.inj e
  have s : Slot 0 0x0C (putR 0 0x0C f) := (slot_pack ..).1
  exact decode_of (by rw [assemble, s.set, s.row, s.col]; exact congrArg (fun x => some (Instr.vshl x)) (getR_putR ..)) h
theorem vshr (f : FmtR) : Statement (.vshr f) := fun w h e => by
  obtain rfl : putR 0 0x0D f = w := Option.some.inj e
  have s : Slot 0 0x0D (putR 0 0x0D f) := (slot_pack ..).1
  exact decode_of (by rw [assemble, s.set, s.row, s.col]; exact congrArg (fun x => some (Instr.vshr x)) (getR_putR ..)) h
theorem vsar (f : FmtR) : Statement (.vsar f) := fun w h e => by
  obtain rfl : putR 0 0x0E f = w := Option.some.inj e
  have s : Slot 0 0x0E (putR 0 0x0E f) := (slot_pack ..).1
  exact decode_of (by rw [assemble, s.set, s.row, s.col]; exact congrArg (fun x => some (Instr.vsar x)) (getR_putR ..)) h
theorem vsel (f : FmtR) : Statement (.vsel f) := fun w h e => by
  obtain rfl : putR 0 0x0F f = w := Option.some.inj e
  have s : Slot 0 0x0F (putR 0 0x0F f) := (slot_pack ..).1
  exact decode_of (by rw [assemble, s.set, s.row, s.col]; exact congrArg (fun x => some (Instr.vsel x)) (getR_putR ..)) h
theorem vadd64 (f : FmtR) : Statement (.vadd64 f) := fun w h e => by
  obtain rfl : putR 0 0x10 f = w := Option.some.inj e
  have s : Slot 0 0x10 (putR 0 0x10 f) := (slot_pack ..).1
  exact decode_of (by rw [assemble, s.set, s.row, s.col]; exact congrArg (fun x => some (Instr.vadd64 x)) (getR_putR ..)) h
theorem vsub64 (f : FmtR) : Statement (.vsub64 f) := fun w h e => by
  obtain rfl : putR 0 0x11 f = w := Option.some.inj e
  have s : Slot 0 0x11 (putR 0 0x11 f) := (slot_pack ..).1
  exact decode_of (by rw [assemble, s.set, s.row, s.col]; exact congrArg (fun x => some (Instr.vsub64 x)) (getR_putR ..)) h
theorem vclz (f : FmtR) : Statement (.vclz f) := fun w h e => by
  obtain rfl : putR 0 0x12 f = w := Option.some.inj e
  have s : Slot 0 0x12 (putR 0 0x12 f) := (slot_pack ..).1
  exact decode_of (by rw [assemble, s.set, s.row, s.col]; exact congrArg (fun x => some (Instr.vclz x)) (getR_putR ..)) h
theorem vpopc (f : FmtR) : Statement (.vpopc f) := fun w h e => by
  obtain rfl : putR 0 0x13 f = w := Option.some.inj e
  have s : Slot 0 0x13 (putR 0 0x13 f) := (slot_pack ..).1
  exact decode_of (by rw [assemble, s.set, s.row, s.col]; exact congrArg (fun x => some (Instr.vpopc x)) (getR_putR ..)) h
theorem vbfx (f : FmtR) : Statement (.vbfx f) := fun w h e => by
  obtain rfl : putR 0 0x14 f = w := Option.some.inj e
  have s : Slot 0 0x14 (putR 0 0x14 f) := (slot_pack ..).1
  exact decode_of (by rw [assemble, s.set, s.row, s.col]; exact congrArg (fun x => some (Instr.vbfx x)) (getR_putR ..)) h
theorem vbfi (f : FmtR) : Statement (.vbfi f) := fun w h e => by
  obtain rfl : putR 0 0x15 f = w := Option.some.inj e
  have s : Slot 0 0x15 (putR 0 0x15 f) := (slot_pack ..).1
  exact decode_of (by rw [assemble, s.set, s.row, s.col]; exact congrArg (fun x => some (Instr.vbfi x)) (getR_putR ..)) h
theorem vaddi (f : FmtI) : Statement (.vaddi f) := fun w h e => by
  obtain rfl : putI 0 0x16 f = w := Option.some.inj e
  have s : Slot 0 0x16 (putI 0 0x16 f) := (slot_pack ..).1
  exact decode_of (by rw [assemble, s.set, s.row, s.col]; exact congrArg (fun x => some (Instr.vaddi x)) (getI_putI ..)) h
theorem vandi (f : FmtI) : Statement (.vandi f) := fun w h e => by
  obtain rfl : putI 0 0x17 f = w := Option.some.inj e
  have s : Slot 0 0x17 (putI 0 0x17 f) := (slot_pack ..).1
  exact decode_of (by rw [assemble, s.set, s.row, s.col]; exact congrArg (fun x => some (Instr.vandi x)) (getI_putI ..)) h
theorem vori (f : FmtI) : Statement (.vori f) := fun w h e => by
  obtain rfl : putI 0 0x18 f = w := Option.some.inj e
  have s : Slot 0 0x18 (putI 0 0x18 f) := (slot_pack ..).1
  exact decode_of (by rw [assemble, s.set, s.row, s.col]; exact congrArg (fun x => some (Instr.vori x)) (getI_putI ..)) h
theorem vxori (f : FmtI) : Statement (.vxori f) := fun w h e => by
  obtain rfl : putI 0 0x19 f = w := Option.some.inj e
  have s : Slot 0 0x19 (putI 0 0x19 f) := (slot_pack ..).1
  exact decode_of (by rw [assemble, s.set, s.row, s.col]; exact congrArg (fun x => some (Instr.vxori x)) (getI_putI ..)) h
theorem vshli (f : FmtI) : Statement (.vshli f) := fun w h e => by
  obtain rfl : putI 0 0x1A f = w := Option.some.inj e
  have s : Slot 0 0x1A (putI 0 0x1A f) := (slot_pack ..).1
  exact decode_of (by rw [assemble, s.set, s.row, s.col]; exact congrArg (fun x => some (Instr.vshli x)) (getI_putI ..)) h
theorem vshri (f : FmtI) : Statement (.vshri f) := fun w h e => by
  obtain rfl : putI 0 0x1B f = w := Option.some.inj e
  have s : Slot 0 0x1B (putI 0 0x1B f) := (slot_pack ..).1
  exact decode_of (by rw [assemble, s.set, s.row, s.col]; exact congrArg (fun x => some (Instr.vshri x)) (getI_putI ..)) h
theorem vsari (f : FmtI) : Statement (.vsari f) := fun w h e => by
  obtain rfl : putI 0 0x1C f = w := Option.some.inj e
  have s : Slot 0 0x1C (putI 0 0x1C f) := (slot_pack ..).1
  exact decode_of (by rw [assemble, s.set, s.row, s.col]; exact congrArg (fun x => some (Instr.vsari x)) (getI_putI ..)) h
theorem vmovi (f : FmtI) : Statement (.vmovi f) := fun w h e => by
  obtain rfl : putI 0 0x1D f = w := Option.some.inj e
  have s : Slot 0 0x1D (putI 0 0x1D f) := (slot_pack ..).1
  exact decode_of (by rw [assemble, s.set, s.row, s.col]; exact congrArg (fun x => some (Instr.vmovi x)) (getI_putI ..)) h
theorem vcmps (f : FmtR) : Statement (.vcmps f) := fun w h e => by
  obtain rfl : putR 0 0x1E f = w := Option.some.inj e
  have s : Slot 0 0x1E (putR 0 0x1E f) := (slot_pack ..).1
  exact decode_of (by rw [assemble, s.set, s.row, s.col]; exact congrArg (fun x => some (Instr.vcmps x)) (getR_putR ..)) h
theorem vcmpn (f : FmtR) : Statement (.vcmpn f) := fun w h e => by
  obtain rfl : putR 0 0x1F f = w := Option.some.inj e
  have s : Slot 0 0x1F (putR 0 0x1F f) := (slot_pack ..).1
  exact decode_of (by rw [assemble, s.set, s.row, s.col]; exact congrArg (fun x => some (Instr.vcmpn x)) (getR_putR ..)) h
theorem vfadd (f : FmtR) : Statement (.vfadd f) := fun w h e => by
  obtain rfl : putR 0 0x20 f = w := Option.some.inj e
  have s : Slot 0 0x20 (putR 0 0x20 f) := (slot_pack ..).1
  exact decode_of (by rw [assemble, s.set, s.row, s.col]; exact congrArg (fun x => some (Instr.vfadd x)) (getR_putR ..)) h
theorem vfsub (f : FmtR) : Statement (.vfsub f) := fun w h e => by
  obtain rfl : putR 0 0x21 f = w := Option.some.inj e
  have s : Slot 0 0x21 (putR 0 0x21 f) := (slot_pack ..).1
  exact decode_of (by rw [assemble, s.set, s.row, s.col]; exact congrArg (fun x => some (Instr.vfsub x)) (getR_putR ..)) h
theorem vfmul (f : FmtR) : Statement (.vfmul f) := fun w h e => by
  obtain rfl : putR 0 0x22 f = w := Option.some.inj e
  have s : Slot 0 0x22 (putR 0 0x22 f) := (slot_pack ..).1
  exact decode_of (by rw [assemble, s.set, s.row, s.col]; exact congrArg (fun x => some (Instr.vfmul x)) (getR_putR ..)) h
theorem vfma (f : FmtR) : Statement (.vfma f) := fun w h e => by
  obtain rfl : putR 0 0x23 f = w := Option.some.inj e
  have s : Slot 0 0x23 (putR 0 0x23 f) := (slot_pack ..).1
  exact decode_of (by rw [assemble, s.set, s.row, s.col]; exact congrArg (fun x => some (Instr.vfma x)) (getR_putR ..)) h
theorem vfmin (f : FmtR) : Statement (.vfmin f) := fun w h e => by
  obtain rfl : putR 0 0x24 f = w := Option.some.inj e
  have s : Slot 0 0x24 (putR 0 0x24 f) := (slot_pack ..).1
  exact decode_of (by rw [assemble, s.set, s.row, s.col]; exact congrArg (fun x => some (Instr.vfmin x)) (getR_putR ..)) h
theorem vfmax (f : FmtR) : Statement (.vfmax f) := fun w h e => by
  obtain rfl : putR 0 0x25 f = w := Option.some.inj e
  have s : Slot 0 0x25 (putR 0 0x25 f) := (slot_pack ..).1
  exact decode_of (by rw [assemble, s.set, s.row, s.col]; exact congrArg (fun x => some (Instr.vfmax x)) (getR_putR ..)) h
theorem vfcmp (f : FmtR) : Statement (.vfcmp f) := fun w h e => by
  obtain rfl : putR 0 0x26 f = w := Option.some.inj e
  have s : Slot 0 0x26 (putR 0 0x26 f) := (slot_pack ..).1
  exact decode_of (by rw [assemble, s.set, s.row, s.col]; exact congrArg (fun x => some (Instr.vfcmp x)) (getR_putR ..)) h
theorem vmop (f : FmtR) : Statement (.vmop f) := fun w h e => by
  obtain rfl : putR 0 0x27 f = w := Option.some.inj e
  have s : Slot 0 0x27 (putR 0 0x27 f) := (slot_pack ..).1
  exact decode_of (by rw [assemble, s.set, s.row, s.col]; exact congrArg (fun x => some (Instr.vmop x)) (getR_putR ..)) h
theorem vhaddBf16x2 (f : FmtR) : Statement (.vhaddBf16x2 f) := fun w h e => by
  obtain rfl : putR 0 0x28 f = w := Option.some.inj e
  have s : Slot 0 0x28 (putR 0 0x28 f) := (slot_pack ..).1
  exact decode_of (by rw [assemble, s.set, s.row, s.col]; exact congrArg (fun x => some (Instr.vhaddBf16x2 x)) (getR_putR ..)) h
theorem vhaddF16x2 (f : FmtR) : Statement (.vhaddF16x2 f) := fun w h e => by
  obtain rfl : putR 0 0x29 f = w := Option.some.inj e
  have s : Slot 0 0x29 (putR 0 0x29 f) := (slot_pack ..).1
  exact decode_of (by rw [assemble, s.set, s.row, s.col]; exact congrArg (fun x => some (Instr.vhaddF16x2 x)) (getR_putR ..)) h
theorem vhmulBf16x2 (f : FmtR) : Statement (.vhmulBf16x2 f) := fun w h e => by
  obtain rfl : putR 0 0x2A f = w := Option.some.inj e
  have s : Slot 0 0x2A (putR 0 0x2A f) := (slot_pack ..).1
  exact decode_of (by rw [assemble, s.set, s.row, s.col]; exact congrArg (fun x => some (Instr.vhmulBf16x2 x)) (getR_putR ..)) h
theorem vhmulF16x2 (f : FmtR) : Statement (.vhmulF16x2 f) := fun w h e => by
  obtain rfl : putR 0 0x2B f = w := Option.some.inj e
  have s : Slot 0 0x2B (putR 0 0x2B f) := (slot_pack ..).1
  exact decode_of (by rw [assemble, s.set, s.row, s.col]; exact congrArg (fun x => some (Instr.vhmulF16x2 x)) (getR_putR ..)) h
theorem vhfmaBf16x2 (f : FmtR) : Statement (.vhfmaBf16x2 f) := fun w h e => by
  obtain rfl : putR 0 0x2C f = w := Option.some.inj e
  have s : Slot 0 0x2C (putR 0 0x2C f) := (slot_pack ..).1
  exact decode_of (by rw [assemble, s.set, s.row, s.col]; exact congrArg (fun x => some (Instr.vhfmaBf16x2 x)) (getR_putR ..)) h
theorem vhfmaF16x2 (f : FmtR) : Statement (.vhfmaF16x2 f) := fun w h e => by
  obtain rfl : putR 0 0x2D f = w := Option.some.inj e
  have s : Slot 0 0x2D (putR 0 0x2D f) := (slot_pack ..).1
  exact decode_of (by rw [assemble, s.set, s.row, s.col]; exact congrArg (fun x => some (Instr.vhfmaF16x2 x)) (getR_putR ..)) h
theorem vfsgnBf16x2 (f : FmtR) : Statement (.vfsgnBf16x2 f) := fun w h e => by
  obtain rfl : putR 0 0x2E f = w := Option.some.inj e
  have s : Slot 0 0x2E (putR 0 0x2E f) := (slot_pack ..).1
  exact decode_of (by rw [assemble, s.set, s.row, s.col]; exact congrArg (fun x => some (Instr.vfsgnBf16x2 x)) (getR_putR ..)) h
theorem vfsgnF16x2 (f : FmtR) : Statement (.vfsgnF16x2 f) := fun w h e => by
  obtain rfl : putR 0 0x2F f = w := Option.some.inj e
  have s : Slot 0 0x2F (putR 0 0x2F f) := (slot_pack ..).1
  exact decode_of (by rw [assemble, s.set, s.row, s.col]; exact congrArg (fun x => some (Instr.vfsgnF16x2 x)) (getR_putR ..)) h
theorem vrcp (f : FmtR) : Statement (.vrcp f) := fun w h e => by
  obtain rfl : putR 0 0x30 f = w := Option.some.inj e
  have s : Slot 0 0x30 (putR 0 0x30 f) := (slot_pack ..).1
  exact decode_of (by rw [assemble, s.set, s.row, s.col]; exact congrArg (fun x => some (Instr.vrcp x)) (getR_putR ..)) h
theorem vrsq (f : FmtR) : Statement (.vrsq f) := fun w h e => by
  obtain rfl : putR 0 0x31 f = w := Option.some.inj e
  have s : Slot 0 0x31 (putR 0 0x31 f) := (slot_pack ..).1
  exact decode_of (by rw [assemble, s.set, s.row, s.col]; exact congrArg (fun x => some (Instr.vrsq x)) (getR_putR ..)) h
theorem vsqrt (f : FmtR) : Statement (.vsqrt f) := fun w h e => by
  obtain rfl : putR 0 0x32 f = w := Option.some.inj e
  have s : Slot 0 0x32 (putR 0 0x32 f) := (slot_pack ..).1
  exact decode_of (by rw [assemble, s.set, s.row, s.col]; exact congrArg (fun x => some (Instr.vsqrt x)) (getR_putR ..)) h
theorem vexp2 (f : FmtR) : Statement (.vexp2 f) := fun w h e => by
  obtain rfl : putR 0 0x33 f = w := Option.some.inj e
  have s : Slot 0 0x33 (putR 0 0x33 f) := (slot_pack ..).1
  exact decode_of (by rw [assemble, s.set, s.row, s.col]; exact congrArg (fun x => some (Instr.vexp2 x)) (getR_putR ..)) h
theorem vlog2 (f : FmtR) : Statement (.vlog2 f) := fun w h e => by
  obtain rfl : putR 0 0x34 f = w := Option.some.inj e
  have s : Slot 0 0x34 (putR 0 0x34 f) := (slot_pack ..).1
  exact decode_of (by rw [assemble, s.set, s.row, s.col]; exact congrArg (fun x => some (Instr.vlog2 x)) (getR_putR ..)) h
theorem vtrigSinpi (f : FmtR) : Statement (.vtrigSinpi f) := fun w h e => by
  obtain rfl : putR 0 0x35 f = w := Option.some.inj e
  have s : Slot 0 0x35 (putR 0 0x35 f) := (slot_pack ..).1
  exact decode_of (by rw [assemble, s.set, s.row, s.col]; exact congrArg (fun x => some (Instr.vtrigSinpi x)) (getR_putR ..)) h
theorem vtrigCospi (f : FmtR) : Statement (.vtrigCospi f) := fun w h e => by
  obtain rfl : putR 0 0x36 f = w := Option.some.inj e
  have s : Slot 0 0x36 (putR 0 0x36 f) := (slot_pack ..).1
  exact decode_of (by rw [assemble, s.set, s.row, s.col]; exact congrArg (fun x => some (Instr.vtrigCospi x)) (getR_putR ..)) h
theorem vcvt (f : FmtR) : Statement (.vcvt f) := fun w h e => by
  obtain rfl : putR 0 0x37 f = w := Option.some.inj e
  have s : Slot 0 0x37 (putR 0 0x37 f) := (slot_pack ..).1
  exact decode_of (by rw [assemble, s.set, s.row, s.col]; exact congrArg (fun x => some (Instr.vcvt x)) (getR_putR ..)) h
theorem vpk (f : FmtR) : Statement (.vpk f) := fun w h e => by
  obtain rfl : putR 0 0x38 f = w := Option.some.inj e
  have s : Slot 0 0x38 (putR 0 0x38 f) := (slot_pack ..).1
  exact decode_of (by rw [assemble, s.set, s.row, s.col]; exact congrArg (fun x => some (Instr.vpk x)) (getR_putR ..)) h
theorem vq4dec (f : FmtR) : Statement (.vq4dec f) := fun w h e => by
  obtain rfl : putR 0 0x39 f = w := Option.some.inj e
  have s : Slot 0 0x39 (putR 0 0x39 f) := (slot_pack ..).1
  exact decode_of (by rw [assemble, s.set, s.row, s.col]; exact congrArg (fun x => some (Instr.vq4dec x)) (getR_putR ..)) h
theorem vshfl (f : FmtR) : Statement (.vshfl f) := fun w h e => by
  obtain rfl : putR 0 0x3A f = w := Option.some.inj e
  have s : Slot 0 0x3A (putR 0 0x3A f) := (slot_pack ..).1
  exact decode_of (by rw [assemble, s.set, s.row, s.col]; exact congrArg (fun x => some (Instr.vshfl x)) (getR_putR ..)) h
theorem vshflx (f : FmtR) : Statement (.vshflx f) := fun w h e => by
  obtain rfl : putR 0 0x3B f = w := Option.some.inj e
  have s : Slot 0 0x3B (putR 0 0x3B f) := (slot_pack ..).1
  exact decode_of (by rw [assemble, s.set, s.row, s.col]; exact congrArg (fun x => some (Instr.vshflx x)) (getR_putR ..)) h
theorem vlane (f : FmtR) : Statement (.vlane f) := fun w h e => by
  obtain rfl : putR 0 0x3C f = w := Option.some.inj e
  have s : Slot 0 0x3C (putR 0 0x3C f) := (slot_pack ..).1
  exact decode_of (by rw [assemble, s.set, s.row, s.col]; exact congrArg (fun x => some (Instr.vlane x)) (getR_putR ..)) h
theorem vred (f : FmtR) : Statement (.vred f) := fun w h e => by
  obtain rfl : putR 0 0x3D f = w := Option.some.inj e
  have s : Slot 0 0x3D (putR 0 0x3D f) := (slot_pack ..).1
  exact decode_of (by rw [assemble, s.set, s.row, s.col]; exact congrArg (fun x => some (Instr.vred x)) (getR_putR ..)) h
theorem vscan (f : FmtR) : Statement (.vscan f) := fun w h e => by
  obtain rfl : putR 0 0x3E f = w := Option.some.inj e
  have s : Slot 0 0x3E (putR 0 0x3E f) := (slot_pack ..).1
  exact decode_of (by rw [assemble, s.set, s.row, s.col]; exact congrArg (fun x => some (Instr.vscan x)) (getR_putR ..)) h
theorem vvote (f : FmtR) : Statement (.vvote f) := fun w h e => by
  obtain rfl : putR 0 0x3F f = w := Option.some.inj e
  have s : Slot 0 0x3F (putR 0 0x3F f) := (slot_pack ..).1
  exact decode_of (by rw [assemble, s.set, s.row, s.col]; exact congrArg (fun x => some (Instr.vvote x)) (getR_putR ..)) h
theorem vldGlS8 (f : FmtM) : Statement (.vldGlS8 f) := fun w h e => by
  obtain rfl : putM 0 0x40 f = w := Option.some.inj e
  have s : Slot 0 0x40 (putM 0 0x40 f) := (slot_pack ..).1
  exact decode_of (by rw [assemble, s.set, s.row, s.col]; exact congrArg (fun x => some (Instr.vldGlS8 x)) (getM_putM ..)) h
theorem vldGlN8 (f : FmtM) : Statement (.vldGlN8 f) := fun w h e => by
  obtain rfl : putM 0 0x41 f = w := Option.some.inj e
  have s : Slot 0 0x41 (putM 0 0x41 f) := (slot_pack ..).1
  exact decode_of (by rw [assemble, s.set, s.row, s.col]; exact congrArg (fun x => some (Instr.vldGlN8 x)) (getM_putM ..)) h
theorem vldGlS16 (f : FmtM) : Statement (.vldGlS16 f) := fun w h e => by
  obtain rfl : putM 0 0x42 f = w := Option.some.inj e
  have s : Slot 0 0x42 (putM 0 0x42 f) := (slot_pack ..).1
  exact decode_of (by rw [assemble, s.set, s.row, s.col]; exact congrArg (fun x => some (Instr.vldGlS16 x)) (getM_putM ..)) h
theorem vldGlN16 (f : FmtM) : Statement (.vldGlN16 f) := fun w h e => by
  obtain rfl : putM 0 0x43 f = w := Option.some.inj e
  have s : Slot 0 0x43 (putM 0 0x43 f) := (slot_pack ..).1
  exact decode_of (by rw [assemble, s.set, s.row, s.col]; exact congrArg (fun x => some (Instr.vldGlN16 x)) (getM_putM ..)) h
theorem vldGlN32 (f : FmtM) : Statement (.vldGlN32 f) := fun w h e => by
  obtain rfl : putM 0 0x44 f = w := Option.some.inj e
  have s : Slot 0 0x44 (putM 0 0x44 f) := (slot_pack ..).1
  exact decode_of (by rw [assemble, s.set, s.row, s.col]; exact congrArg (fun x => some (Instr.vldGlN32 x)) (getM_putM ..)) h
theorem vldGlN64 (f : FmtM) : Statement (.vldGlN64 f) := fun w h e => by
  obtain rfl : putM 0 0x45 f = w := Option.some.inj e
  have s : Slot 0 0x45 (putM 0 0x45 f) := (slot_pack ..).1
  exact decode_of (by rw [assemble, s.set, s.row, s.col]; exact congrArg (fun x => some (Instr.vldGlN64 x)) (getM_putM ..)) h
theorem vldGlN128 (f : FmtM) : Statement (.vldGlN128 f) := fun w h e => by
  obtain rfl : putM 0 0x46 f = w := Option.some.inj e
  have s : Slot 0 0x46 (putM 0 0x46 f) := (slot_pack ..).1
  exact decode_of (by rw [assemble, s.set, s.row, s.col]; exact congrArg (fun x => some (Instr.vldGlN128 x)) (getM_putM ..)) h
theorem vprf (f : FmtM) : Statement (.vprf f) := fun w h e => by
  obtain rfl : putM 0 0x47 f = w := Option.some.inj e
  have s : Slot 0 0x47 (putM 0 0x47 f) := (slot_pack ..).1
  exact decode_of (by rw [assemble, s.set, s.row, s.col]; exact congrArg (fun x => some (Instr.vprf x)) (getM_putM ..)) h
theorem vldVtN8 (f : FmtM) : Statement (.vldVtN8 f) := fun w h e => by
  obtain rfl : putM 0 0x48 f = w := Option.some.inj e
  have s : Slot 0 0x48 (putM 0 0x48 f) := (slot_pack ..).1
  exact decode_of (by rw [assemble, s.set, s.row, s.col]; exact congrArg (fun x => some (Instr.vldVtN8 x)) (getM_putM ..)) h
theorem vldVtN16 (f : FmtM) : Statement (.vldVtN16 f) := fun w h e => by
  obtain rfl : putM 0 0x49 f = w := Option.some.inj e
  have s : Slot 0 0x49 (putM 0 0x49 f) := (slot_pack ..).1
  exact decode_of (by rw [assemble, s.set, s.row, s.col]; exact congrArg (fun x => some (Instr.vldVtN16 x)) (getM_putM ..)) h
theorem vldVtN32 (f : FmtM) : Statement (.vldVtN32 f) := fun w h e => by
  obtain rfl : putM 0 0x4A f = w := Option.some.inj e
  have s : Slot 0 0x4A (putM 0 0x4A f) := (slot_pack ..).1
  exact decode_of (by rw [assemble, s.set, s.row, s.col]; exact congrArg (fun x => some (Instr.vldVtN32 x)) (getM_putM ..)) h
theorem vldVtN64 (f : FmtM) : Statement (.vldVtN64 f) := fun w h e => by
  obtain rfl : putM 0 0x4B f = w := Option.some.inj e
  have s : Slot 0 0x4B (putM 0 0x4B f) := (slot_pack ..).1
  exact decode_of (by rw [assemble, s.set, s.row, s.col]; exact congrArg (fun x => some (Instr.vldVtN64 x)) (getM_putM ..)) h
theorem vldVtN128 (f : FmtM) : Statement (.vldVtN128 f) := fun w h e => by
  obtain rfl : putM 0 0x4C f = w := Option.some.inj e
  have s : Slot 0 0x4C (putM 0 0x4C f) := (slot_pack ..).1
  exact decode_of (by rw [assemble, s.set, s.row, s.col]; exact congrArg (fun x => some (Instr.vldVtN128 x)) (getM_putM ..)) h
theorem vkvld (f : FmtM) : Statement (.vkvld f) := fun w h e => by
  obtain rfl : putM 0 0x4D f = w := Option.some.inj e
  have s : Slot 0 0x4D (putM 0 0x4D f) := (slot_pack ..).1
  exact decode_of (by rw [assemble, s.set, s.row, s.col]; exact congrArg (fun x => some (Instr.vkvld x)) (getM_putM ..)) h
theorem vdev (f : FmtR) : Statement (.vdev f) := fun w h e => by
  obtain rfl : putR 0 0x4E f = w := Option.some.inj e
  have s : Slot 0 0x4E (putR 0 0x4E f) := (slot_pack ..).1
  exact decode_of (by rw [assemble, s.set, s.row, s.col]; exact congrArg (fun x => some (Instr.vdev x)) (getR_putR ..)) h
theorem vstGlN8 (f : FmtM) : Statement (.vstGlN8 f) := fun w h e => by
  obtain rfl : putM 0 0x50 f = w := Option.some.inj e
  have s : Slot 0 0x50 (putM 0 0x50 f) := (slot_pack ..).1
  exact decode_of (by rw [assemble, s.set, s.row, s.col]; exact congrArg (fun x => some (Instr.vstGlN8 x)) (getM_putM ..)) h
theorem vstGlN16 (f : FmtM) : Statement (.vstGlN16 f) := fun w h e => by
  obtain rfl : putM 0 0x51 f = w := Option.some.inj e
  have s : Slot 0 0x51 (putM 0 0x51 f) := (slot_pack ..).1
  exact decode_of (by rw [assemble, s.set, s.row, s.col]; exact congrArg (fun x => some (Instr.vstGlN16 x)) (getM_putM ..)) h
theorem vstGlN32 (f : FmtM) : Statement (.vstGlN32 f) := fun w h e => by
  obtain rfl : putM 0 0x52 f = w := Option.some.inj e
  have s : Slot 0 0x52 (putM 0 0x52 f) := (slot_pack ..).1
  exact decode_of (by rw [assemble, s.set, s.row, s.col]; exact congrArg (fun x => some (Instr.vstGlN32 x)) (getM_putM ..)) h
theorem vstGlN64 (f : FmtM) : Statement (.vstGlN64 f) := fun w h e => by
  obtain rfl : putM 0 0x53 f = w := Option.some.inj e
  have s : Slot 0 0x53 (putM 0 0x53 f) := (slot_pack ..).1
  exact decode_of (by rw [assemble, s.set, s.row, s.col]; exact congrArg (fun x => some (Instr.vstGlN64 x)) (getM_putM ..)) h
theorem vstGlN128 (f : FmtM) : Statement (.vstGlN128 f) := fun w h e => by
  obtain rfl : putM 0 0x54 f = w := Option.some.inj e
  have s : Slot 0 0x54 (putM 0 0x54 f) := (slot_pack ..).1
  exact decode_of (by rw [assemble, s.set, s.row, s.col]; exact congrArg (fun x => some (Instr.vstGlN128 x)) (getM_putM ..)) h
theorem vstVtN8 (f : FmtM) : Statement (.vstVtN8 f) := fun w h e => by
  obtain rfl : putM 0 0x55 f = w := Option.some.inj e
  have s : Slot 0 0x55 (putM 0 0x55 f) := (slot_pack ..).1
  exact decode_of (by rw [assemble, s.set, s.row, s.col]; exact congrArg (fun x => some (Instr.vstVtN8 x)) (getM_putM ..)) h
theorem vstVtN16 (f : FmtM) : Statement (.vstVtN16 f) := fun w h e => by
  obtain rfl : putM 0 0x56 f = w := Option.some.inj e
  have s : Slot 0 0x56 (putM 0 0x56 f) := (slot_pack ..).1
  exact decode_of (by rw [assemble, s.set, s.row, s.col]; exact congrArg (fun x => some (Instr.vstVtN16 x)) (getM_putM ..)) h
theorem vstVtN32 (f : FmtM) : Statement (.vstVtN32 f) := fun w h e => by
  obtain rfl : putM 0 0x57 f = w := Option.some.inj e
  have s : Slot 0 0x57 (putM 0 0x57 f) := (slot_pack ..).1
  exact decode_of (by rw [assemble, s.set, s.row, s.col]; exact congrArg (fun x => some (Instr.vstVtN32 x)) (getM_putM ..)) h
theorem vstVtN64 (f : FmtM) : Statement (.vstVtN64 f) := fun w h e => by
  obtain rfl : putM 0 0x58 f = w := Option.some.inj e
  have s : Slot 0 0x58 (putM 0 0x58 f) := (slot_pack ..).1
  exact decode_of (by rw [assemble, s.set, s.row, s.col]; exact congrArg (fun x => some (Instr.vstVtN64 x)) (getM_putM ..)) h
theorem vstVtN128 (f : FmtM) : Statement (.vstVtN128 f) := fun w h e => by
  obtain rfl : putM 0 0x59 f = w := Option.some.inj e
  have s : Slot 0 0x59 (putM 0 0x59 f) := (slot_pack ..).1
  exact decode_of (by rw [assemble, s.set, s.row, s.col]; exact congrArg (fun x => some (Instr.vstVtN128 x)) (getM_putM ..)) h
theorem vldsGlN8 (f : FmtA) : Statement (.vldsGlN8 f) := fun w h e => by
  obtain rfl : putA 0 0x5A f = w := Option.some.inj e
  have s : Slot 0 0x5A (putA 0 0x5A f) := (slot_pack ..).1
  exact decode_of (by rw [assemble, s.set, s.row, s.col]; exact congrArg (fun x => some (Instr.vldsGlN8 x)) (getA_putA ..)) h
theorem vldsGlN16 (f : FmtA) : Statement (.vldsGlN16 f) := fun w h e => by
  obtain rfl : putA 0 0x5B f = w := Option.some.inj e
  have s : Slot 0 0x5B (putA 0 0x5B f) := (slot_pack ..).1
  exact decode_of (by rw [assemble, s.set, s.row, s.col]; exact congrArg (fun x => some (Instr.vldsGlN16 x)) (getA_putA ..)) h
theorem vldsGlN32 (f : FmtA) : Statement (.vldsGlN32 f) := fun w h e => by
  obtain rfl : putA 0 0x5C f = w := Option.some.inj e
  have s : Slot 0 0x5C (putA 0 0x5C f) := (slot_pack ..).1
  exact decode_of (by rw [assemble, s.set, s.row, s.col]; exact congrArg (fun x => some (Instr.vldsGlN32 x)) (getA_putA ..)) h
theorem vldsGlN64 (f : FmtA) : Statement (.vldsGlN64 f) := fun w h e => by
  obtain rfl : putA 0 0x5D f = w := Option.some.inj e
  have s : Slot 0 0x5D (putA 0 0x5D f) := (slot_pack ..).1
  exact decode_of (by rw [assemble, s.set, s.row, s.col]; exact congrArg (fun x => some (Instr.vldsGlN64 x)) (getA_putA ..)) h
theorem vldsGlN128 (f : FmtA) : Statement (.vldsGlN128 f) := fun w h e => by
  obtain rfl : putA 0 0x5E f = w := Option.some.inj e
  have s : Slot 0 0x5E (putA 0 0x5E f) := (slot_pack ..).1
  exact decode_of (by rw [assemble, s.set, s.row, s.col]; exact congrArg (fun x => some (Instr.vldsGlN128 x)) (getA_putA ..)) h
theorem vldsVtN32 (f : FmtA) : Statement (.vldsVtN32 f) := fun w h e => by
  obtain rfl : putA 0 0x5F f = w := Option.some.inj e
  have s : Slot 0 0x5F (putA 0 0x5F f) := (slot_pack ..).1
  exact decode_of (by rw [assemble, s.set, s.row, s.col]; exact congrArg (fun x => some (Instr.vldsVtN32 x)) (getA_putA ..)) h
theorem vstsGlN8 (f : FmtA) : Statement (.vstsGlN8 f) := fun w h e => by
  obtain rfl : putA 0 0x60 f = w := Option.some.inj e
  have s : Slot 0 0x60 (putA 0 0x60 f) := (slot_pack ..).1
  exact decode_of (by rw [assemble, s.set, s.row, s.col]; exact congrArg (fun x => some (Instr.vstsGlN8 x)) (getA_putA ..)) h
theorem vstsGlN16 (f : FmtA) : Statement (.vstsGlN16 f) := fun w h e => by
  obtain rfl : putA 0 0x61 f = w := Option.some.inj e
  have s : Slot 0 0x61 (putA 0 0x61 f) := (slot_pack ..).1
  exact decode_of (by rw [assemble, s.set, s.row, s.col]; exact congrArg (fun x => some (Instr.vstsGlN16 x)) (getA_putA ..)) h
theorem vstsGlN32 (f : FmtA) : Statement (.vstsGlN32 f) := fun w h e => by
  obtain rfl : putA 0 0x62 f = w := Option.some.inj e
  have s : Slot 0 0x62 (putA 0 0x62 f) := (slot_pack ..).1
  exact decode_of (by rw [assemble, s.set, s.row, s.col]; exact congrArg (fun x => some (Instr.vstsGlN32 x)) (getA_putA ..)) h
theorem vstsGlN64 (f : FmtA) : Statement (.vstsGlN64 f) := fun w h e => by
  obtain rfl : putA 0 0x63 f = w := Option.some.inj e
  have s : Slot 0 0x63 (putA 0 0x63 f) := (slot_pack ..).1
  exact decode_of (by rw [assemble, s.set, s.row, s.col]; exact congrArg (fun x => some (Instr.vstsGlN64 x)) (getA_putA ..)) h
theorem vstsGlN128 (f : FmtA) : Statement (.vstsGlN128 f) := fun w h e => by
  obtain rfl : putA 0 0x64 f = w := Option.some.inj e
  have s : Slot 0 0x64 (putA 0 0x64 f) := (slot_pack ..).1
  exact decode_of (by rw [assemble, s.set, s.row, s.col]; exact congrArg (fun x => some (Instr.vstsGlN128 x)) (getA_putA ..)) h
theorem vstsVtN32 (f : FmtA) : Statement (.vstsVtN32 f) := fun w h e => by
  obtain rfl : putA 0 0x65 f = w := Option.some.inj e
  have s : Slot 0 0x65 (putA 0 0x65 f) := (slot_pack ..).1
  exact decode_of (by rw [assemble, s.set, s.row, s.col]; exact congrArg (fun x => some (Instr.vstsVtN32 x)) (getA_putA ..)) h
theorem vxchgN32 (f : FmtA) : Statement (.vxchgN32 f) := fun w h e => by
  obtain rfl : putA 0 0x66 f = w := Option.some.inj e
  have s : Slot 0 0x66 (putA 0 0x66 f) := (slot_pack ..).1
  exact decode_of (by rw [assemble, s.set, s.row, s.col]; exact congrArg (fun x => some (Instr.vxchgN32 x)) (getA_putA ..)) h
theorem vxchgN64 (f : FmtA) : Statement (.vxchgN64 f) := fun w h e => by
  obtain rfl : putA 0 0x67 f = w := Option.some.inj e
  have s : Slot 0 0x67 (putA 0 0x67 f) := (slot_pack ..).1
  exact decode_of (by rw [assemble, s.set, s.row, s.col]; exact congrArg (fun x => some (Instr.vxchgN64 x)) (getA_putA ..)) h
theorem vcasN32 (f : FmtA) : Statement (.vcasN32 f) := fun w h e => by
  obtain rfl : putA 0 0x68 f = w := Option.some.inj e
  have s : Slot 0 0x68 (putA 0 0x68 f) := (slot_pack ..).1
  exact decode_of (by rw [assemble, s.set, s.row, s.col]; exact congrArg (fun x => some (Instr.vcasN32 x)) (getA_putA ..)) h
theorem vcasN64 (f : FmtA) : Statement (.vcasN64 f) := fun w h e => by
  obtain rfl : putA 0 0x69 f = w := Option.some.inj e
  have s : Slot 0 0x69 (putA 0 0x69 f) := (slot_pack ..).1
  exact decode_of (by rw [assemble, s.set, s.row, s.col]; exact congrArg (fun x => some (Instr.vcasN64 x)) (getA_putA ..)) h
theorem vatomAddN32 (f : FmtA) : Statement (.vatomAddN32 f) := fun w h e => by
  obtain rfl : putA 0 0x6A f = w := Option.some.inj e
  have s : Slot 0 0x6A (putA 0 0x6A f) := (slot_pack ..).1
  exact decode_of (by rw [assemble, s.set, s.row, s.col]; exact congrArg (fun x => some (Instr.vatomAddN32 x)) (getA_putA ..)) h
theorem vatomAddN64 (f : FmtA) : Statement (.vatomAddN64 f) := fun w h e => by
  obtain rfl : putA 0 0x6B f = w := Option.some.inj e
  have s : Slot 0 0x6B (putA 0 0x6B f) := (slot_pack ..).1
  exact decode_of (by rw [assemble, s.set, s.row, s.col]; exact congrArg (fun x => some (Instr.vatomAddN64 x)) (getA_putA ..)) h
theorem vatomAddF32 (f : FmtA) : Statement (.vatomAddF32 f) := fun w h e => by
  obtain rfl : putA 0 0x6C f = w := Option.some.inj e
  have s : Slot 0 0x6C (putA 0 0x6C f) := (slot_pack ..).1
  exact decode_of (by rw [assemble, s.set, s.row, s.col]; exact congrArg (fun x => some (Instr.vatomAddF32 x)) (getA_putA ..)) h
theorem vatomAndN32 (f : FmtA) : Statement (.vatomAndN32 f) := fun w h e => by
  obtain rfl : putA 0 0x6D f = w := Option.some.inj e
  have s : Slot 0 0x6D (putA 0 0x6D f) := (slot_pack ..).1
  exact decode_of (by rw [assemble, s.set, s.row, s.col]; exact congrArg (fun x => some (Instr.vatomAndN32 x)) (getA_putA ..)) h
theorem vatomOrN32 (f : FmtA) : Statement (.vatomOrN32 f) := fun w h e => by
  obtain rfl : putA 0 0x6E f = w := Option.some.inj e
  have s : Slot 0 0x6E (putA 0 0x6E f) := (slot_pack ..).1
  exact decode_of (by rw [assemble, s.set, s.row, s.col]; exact congrArg (fun x => some (Instr.vatomOrN32 x)) (getA_putA ..)) h
theorem vatomXorN32 (f : FmtA) : Statement (.vatomXorN32 f) := fun w h e => by
  obtain rfl : putA 0 0x6F f = w := Option.some.inj e
  have s : Slot 0 0x6F (putA 0 0x6F f) := (slot_pack ..).1
  exact decode_of (by rw [assemble, s.set, s.row, s.col]; exact congrArg (fun x => some (Instr.vatomXorN32 x)) (getA_putA ..)) h
theorem vatomMinS32 (f : FmtA) : Statement (.vatomMinS32 f) := fun w h e => by
  obtain rfl : putA 0 0x70 f = w := Option.some.inj e
  have s : Slot 0 0x70 (putA 0 0x70 f) := (slot_pack ..).1
  exact decode_of (by rw [assemble, s.set, s.row, s.col]; exact congrArg (fun x => some (Instr.vatomMinS32 x)) (getA_putA ..)) h
theorem vatomMinN32 (f : FmtA) : Statement (.vatomMinN32 f) := fun w h e => by
  obtain rfl : putA 0 0x71 f = w := Option.some.inj e
  have s : Slot 0 0x71 (putA 0 0x71 f) := (slot_pack ..).1
  exact decode_of (by rw [assemble, s.set, s.row, s.col]; exact congrArg (fun x => some (Instr.vatomMinN32 x)) (getA_putA ..)) h
theorem vatomMaxS32 (f : FmtA) : Statement (.vatomMaxS32 f) := fun w h e => by
  obtain rfl : putA 0 0x72 f = w := Option.some.inj e
  have s : Slot 0 0x72 (putA 0 0x72 f) := (slot_pack ..).1
  exact decode_of (by rw [assemble, s.set, s.row, s.col]; exact congrArg (fun x => some (Instr.vatomMaxS32 x)) (getA_putA ..)) h
theorem vatomMaxN32 (f : FmtA) : Statement (.vatomMaxN32 f) := fun w h e => by
  obtain rfl : putA 0 0x73 f = w := Option.some.inj e
  have s : Slot 0 0x73 (putA 0 0x73 f) := (slot_pack ..).1
  exact decode_of (by rw [assemble, s.set, s.row, s.col]; exact congrArg (fun x => some (Instr.vatomMaxN32 x)) (getA_putA ..)) h
theorem vredMAddN32 (f : FmtA) : Statement (.vredMAddN32 f) := fun w h e => by
  obtain rfl : putA 0 0x74 f = w := Option.some.inj e
  have s : Slot 0 0x74 (putA 0 0x74 f) := (slot_pack ..).1
  exact decode_of (by rw [assemble, s.set, s.row, s.col]; exact congrArg (fun x => some (Instr.vredMAddN32 x)) (getA_putA ..)) h
theorem vredMAddN64 (f : FmtA) : Statement (.vredMAddN64 f) := fun w h e => by
  obtain rfl : putA 0 0x75 f = w := Option.some.inj e
  have s : Slot 0 0x75 (putA 0 0x75 f) := (slot_pack ..).1
  exact decode_of (by rw [assemble, s.set, s.row, s.col]; exact congrArg (fun x => some (Instr.vredMAddN64 x)) (getA_putA ..)) h
theorem vredMAddF32 (f : FmtA) : Statement (.vredMAddF32 f) := fun w h e => by
  obtain rfl : putA 0 0x76 f = w := Option.some.inj e
  have s : Slot 0 0x76 (putA 0 0x76 f) := (slot_pack ..).1
  exact decode_of (by rw [assemble, s.set, s.row, s.col]; exact congrArg (fun x => some (Instr.vredMAddF32 x)) (getA_putA ..)) h
theorem vredMMinS32 (f : FmtA) : Statement (.vredMMinS32 f) := fun w h e => by
  obtain rfl : putA 0 0x77 f = w := Option.some.inj e
  have s : Slot 0 0x77 (putA 0 0x77 f) := (slot_pack ..).1
  exact decode_of (by rw [assemble, s.set, s.row, s.col]; exact congrArg (fun x => some (Instr.vredMMinS32 x)) (getA_putA ..)) h
theorem vredMMaxS32 (f : FmtA) : Statement (.vredMMaxS32 f) := fun w h e => by
  obtain rfl : putA 0 0x78 f = w := Option.some.inj e
  have s : Slot 0 0x78 (putA 0 0x78 f) := (slot_pack ..).1
  exact decode_of (by rw [assemble, s.set, s.row, s.col]; exact congrArg (fun x => some (Instr.vredMMaxS32 x)) (getA_putA ..)) h
theorem vmmq (f : FmtX) : Statement (.vmmq f) := fun w h e => by
  obtain rfl : putX 0 0x79 f = w := Option.some.inj e
  have s : Slot 0 0x79 (putX 0 0x79 f) := (slot_pack ..).1
  exact decode_of (by rw [assemble, s.set, s.row, s.col]; exact congrArg (fun x => some (Instr.vmmq x)) (getX_putX ..)) h
theorem vwld (f : FmtR) : Statement (.vwld f) := fun w h e => by
  obtain rfl : putR 0 0x7A f = w := Option.some.inj e
  have s : Slot 0 0x7A (putR 0 0x7A f) := (slot_pack ..).1
  exact decode_of (by rw [assemble, s.set, s.row, s.col]; exact congrArg (fun x => some (Instr.vwld x)) (getR_putR ..)) h
theorem vaccrd (f : FmtX) : Statement (.vaccrd f) := fun w h e => by
  obtain rfl : putX 0 0x7B f = w := Option.some.inj e
  have s : Slot 0 0x7B (putX 0 0x7B f) := (slot_pack ..).1
  exact decode_of (by rw [assemble, s.set, s.row, s.col]; exact congrArg (fun x => some (Instr.vaccrd x)) (getX_putX ..)) h
theorem vaccwr (f : FmtX) : Statement (.vaccwr f) := fun w h e => by
  obtain rfl : putX 0 0x7C f = w := Option.some.inj e
  have s : Slot 0 0x7C (putX 0 0x7C f) := (slot_pack ..).1
  exact decode_of (by rw [assemble, s.set, s.row, s.col]; exact congrArg (fun x => some (Instr.vaccwr x)) (getX_putX ..)) h
theorem vaccz (f : FmtX) : Statement (.vaccz f) := fun w h e => by
  obtain rfl : putX 0 0x7D f = w := Option.some.inj e
  have s : Slot 0 0x7D (putX 0 0x7D f) := (slot_pack ..).1
  exact decode_of (by rw [assemble, s.set, s.row, s.col]; exact congrArg (fun x => some (Instr.vaccz x)) (getX_putX ..)) h
theorem vwmark (f : FmtX) : Statement (.vwmark f) := fun w h e => by
  obtain rfl : putX 0 0x7E f = w := Option.some.inj e
  have s : Slot 0 0x7E (putX 0 0x7E f) := (slot_pack ..).1
  exact decode_of (by rw [assemble, s.set, s.row, s.col]; exact congrArg (fun x => some (Instr.vwmark x)) (getX_putX ..)) h
theorem gadd (f : FmtR) : Statement (.gadd f) := fun w h e => by
  obtain rfl : putR 1 0x00 f = w := Option.some.inj e
  have s : Slot 1 0x00 (putR 1 0x00 f) := (slot_pack ..).1
  exact decode_of (by rw [assemble, s.set, s.row, s.col]; exact congrArg (fun x => some (Instr.gadd x)) (getR_putR ..)) h
theorem gsub (f : FmtR) : Statement (.gsub f) := fun w h e => by
  obtain rfl : putR 1 0x01 f = w := Option.some.inj e
  have s : Slot 1 0x01 (putR 1 0x01 f) := (slot_pack ..).1
  exact decode_of (by rw [assemble, s.set, s.row, s.col]; exact congrArg (fun x => some (Instr.gsub x)) (getR_putR ..)) h
theorem gmul (f : FmtR) : Statement (.gmul f) := fun w h e => by
  obtain rfl : putR 1 0x02 f = w := Option.some.inj e
  have s : Slot 1 0x02 (putR 1 0x02 f) := (slot_pack ..).1
  exact decode_of (by rw [assemble, s.set, s.row, s.col]; exact congrArg (fun x => some (Instr.gmul x)) (getR_putR ..)) h
theorem gmulh (f : FmtR) : Statement (.gmulh f) := fun w h e => by
  obtain rfl : putR 1 0x03 f = w := Option.some.inj e
  have s : Slot 1 0x03 (putR 1 0x03 f) := (slot_pack ..).1
  exact decode_of (by rw [assemble, s.set, s.row, s.col]; exact congrArg (fun x => some (Instr.gmulh x)) (getR_putR ..)) h
theorem gdiv (f : FmtR) : Statement (.gdiv f) := fun w h e => by
  obtain rfl : putR 1 0x04 f = w := Option.some.inj e
  have s : Slot 1 0x04 (putR 1 0x04 f) := (slot_pack ..).1
  exact decode_of (by rw [assemble, s.set, s.row, s.col]; exact congrArg (fun x => some (Instr.gdiv x)) (getR_putR ..)) h
theorem grem (f : FmtR) : Statement (.grem f) := fun w h e => by
  obtain rfl : putR 1 0x05 f = w := Option.some.inj e
  have s : Slot 1 0x05 (putR 1 0x05 f) := (slot_pack ..).1
  exact decode_of (by rw [assemble, s.set, s.row, s.col]; exact congrArg (fun x => some (Instr.grem x)) (getR_putR ..)) h
theorem gmin (f : FmtR) : Statement (.gmin f) := fun w h e => by
  obtain rfl : putR 1 0x06 f = w := Option.some.inj e
  have s : Slot 1 0x06 (putR 1 0x06 f) := (slot_pack ..).1
  exact decode_of (by rw [assemble, s.set, s.row, s.col]; exact congrArg (fun x => some (Instr.gmin x)) (getR_putR ..)) h
theorem gmax (f : FmtR) : Statement (.gmax f) := fun w h e => by
  obtain rfl : putR 1 0x07 f = w := Option.some.inj e
  have s : Slot 1 0x07 (putR 1 0x07 f) := (slot_pack ..).1
  exact decode_of (by rw [assemble, s.set, s.row, s.col]; exact congrArg (fun x => some (Instr.gmax x)) (getR_putR ..)) h
theorem gand (f : FmtR) : Statement (.gand f) := fun w h e => by
  obtain rfl : putR 1 0x08 f = w := Option.some.inj e
  have s : Slot 1 0x08 (putR 1 0x08 f) := (slot_pack ..).1
  exact decode_of (by rw [assemble, s.set, s.row, s.col]; exact congrArg (fun x => some (Instr.gand x)) (getR_putR ..)) h
theorem gor (f : FmtR) : Statement (.gor f) := fun w h e => by
  obtain rfl : putR 1 0x09 f = w := Option.some.inj e
  have s : Slot 1 0x09 (putR 1 0x09 f) := (slot_pack ..).1
  exact decode_of (by rw [assemble, s.set, s.row, s.col]; exact congrArg (fun x => some (Instr.gor x)) (getR_putR ..)) h
theorem gxor (f : FmtR) : Statement (.gxor f) := fun w h e => by
  obtain rfl : putR 1 0x0A f = w := Option.some.inj e
  have s : Slot 1 0x0A (putR 1 0x0A f) := (slot_pack ..).1
  exact decode_of (by rw [assemble, s.set, s.row, s.col]; exact congrArg (fun x => some (Instr.gxor x)) (getR_putR ..)) h
theorem gshl (f : FmtR) : Statement (.gshl f) := fun w h e => by
  obtain rfl : putR 1 0x0B f = w := Option.some.inj e
  have s : Slot 1 0x0B (putR 1 0x0B f) := (slot_pack ..).1
  exact decode_of (by rw [assemble, s.set, s.row, s.col]; exact congrArg (fun x => some (Instr.gshl x)) (getR_putR ..)) h
theorem gshr (f : FmtR) : Statement (.gshr f) := fun w h e => by
  obtain rfl : putR 1 0x0C f = w := Option.some.inj e
  have s : Slot 1 0x0C (putR 1 0x0C f) := (slot_pack ..).1
  exact decode_of (by rw [assemble, s.set, s.row, s.col]; exact congrArg (fun x => some (Instr.gshr x)) (getR_putR ..)) h
theorem gsar (f : FmtR) : Statement (.gsar f) := fun w h e => by
  obtain rfl : putR 1 0x0D f = w := Option.some.inj e
  have s : Slot 1 0x0D (putR 1 0x0D f) := (slot_pack ..).1
  exact decode_of (by rw [assemble, s.set, s.row, s.col]; exact congrArg (fun x => some (Instr.gsar x)) (getR_putR ..)) h
theorem gclz (f : FmtR) : Statement (.gclz f) := fun w h e => by
  obtain rfl : putR 1 0x0E f = w := Option.some.inj e
  have s : Slot 1 0x0E (putR 1 0x0E f) := (slot_pack ..).1
  exact decode_of (by rw [assemble, s.set, s.row, s.col]; exact congrArg (fun x => some (Instr.gclz x)) (getR_putR ..)) h
theorem gpopc (f : FmtR) : Statement (.gpopc f) := fun w h e => by
  obtain rfl : putR 1 0x0F f = w := Option.some.inj e
  have s : Slot 1 0x0F (putR 1 0x0F f) := (slot_pack ..).1
  exact decode_of (by rw [assemble, s.set, s.row, s.col]; exact congrArg (fun x => some (Instr.gpopc x)) (getR_putR ..)) h
theorem gbfx (f : FmtR) : Statement (.gbfx f) := fun w h e => by
  obtain rfl : putR 1 0x10 f = w := Option.some.inj e
  have s : Slot 1 0x10 (putR 1 0x10 f) := (slot_pack ..).1
  exact decode_of (by rw [assemble, s.set, s.row, s.col]; exact congrArg (fun x => some (Instr.gbfx x)) (getR_putR ..)) h
theorem gbfi (f : FmtR) : Statement (.gbfi f) := fun w h e => by
  obtain rfl : putR 1 0x11 f = w := Option.some.inj e
  have s : Slot 1 0x11 (putR 1 0x11 f) := (slot_pack ..).1
  exact decode_of (by rw [assemble, s.set, s.row, s.col]; exact congrArg (fun x => some (Instr.gbfi x)) (getR_putR ..)) h
theorem gadd64 (f : FmtR) : Statement (.gadd64 f) := fun w h e => by
  obtain rfl : putR 1 0x12 f = w := Option.some.inj e
  have s : Slot 1 0x12 (putR 1 0x12 f) := (slot_pack ..).1
  exact decode_of (by rw [assemble, s.set, s.row, s.col]; exact congrArg (fun x => some (Instr.gadd64 x)) (getR_putR ..)) h
theorem gsub64 (f : FmtR) : Statement (.gsub64 f) := fun w h e => by
  obtain rfl : putR 1 0x13 f = w := Option.some.inj e
  have s : Slot 1 0x13 (putR 1 0x13 f) := (slot_pack ..).1
  exact decode_of (by rw [assemble, s.set, s.row, s.col]; exact congrArg (fun x => some (Instr.gsub64 x)) (getR_putR ..)) h
theorem gmul64 (f : FmtR) : Statement (.gmul64 f) := fun w h e => by
  obtain rfl : putR 1 0x14 f = w := Option.some.inj e
  have s : Slot 1 0x14 (putR 1 0x14 f) := (slot_pack ..).1
  exact decode_of (by rw [assemble, s.set, s.row, s.col]; exact congrArg (fun x => some (Instr.gmul64 x)) (getR_putR ..)) h
theorem gcmp (f : FmtR) : Statement (.gcmp f) := fun w h e => by
  obtain rfl : putR 1 0x15 f = w := Option.some.inj e
  have s : Slot 1 0x15 (putR 1 0x15 f) := (slot_pack ..).1
  exact decode_of (by rw [assemble, s.set, s.row, s.col]; exact congrArg (fun x => some (Instr.gcmp x)) (getR_putR ..)) h
theorem gsel (f : FmtR) : Statement (.gsel f) := fun w h e => by
  obtain rfl : putR 1 0x16 f = w := Option.some.inj e
  have s : Slot 1 0x16 (putR 1 0x16 f) := (slot_pack ..).1
  exact decode_of (by rw [assemble, s.set, s.row, s.col]; exact congrArg (fun x => some (Instr.gsel x)) (getR_putR ..)) h
theorem gaddi (f : FmtI) : Statement (.gaddi f) := fun w h e => by
  obtain rfl : putI 1 0x17 f = w := Option.some.inj e
  have s : Slot 1 0x17 (putI 1 0x17 f) := (slot_pack ..).1
  exact decode_of (by rw [assemble, s.set, s.row, s.col]; exact congrArg (fun x => some (Instr.gaddi x)) (getI_putI ..)) h
theorem gandi (f : FmtI) : Statement (.gandi f) := fun w h e => by
  obtain rfl : putI 1 0x18 f = w := Option.some.inj e
  have s : Slot 1 0x18 (putI 1 0x18 f) := (slot_pack ..).1
  exact decode_of (by rw [assemble, s.set, s.row, s.col]; exact congrArg (fun x => some (Instr.gandi x)) (getI_putI ..)) h
theorem gori (f : FmtI) : Statement (.gori f) := fun w h e => by
  obtain rfl : putI 1 0x19 f = w := Option.some.inj e
  have s : Slot 1 0x19 (putI 1 0x19 f) := (slot_pack ..).1
  exact decode_of (by rw [assemble, s.set, s.row, s.col]; exact congrArg (fun x => some (Instr.gori x)) (getI_putI ..)) h
theorem gxori (f : FmtI) : Statement (.gxori f) := fun w h e => by
  obtain rfl : putI 1 0x1A f = w := Option.some.inj e
  have s : Slot 1 0x1A (putI 1 0x1A f) := (slot_pack ..).1
  exact decode_of (by rw [assemble, s.set, s.row, s.col]; exact congrArg (fun x => some (Instr.gxori x)) (getI_putI ..)) h
theorem gshli (f : FmtI) : Statement (.gshli f) := fun w h e => by
  obtain rfl : putI 1 0x1B f = w := Option.some.inj e
  have s : Slot 1 0x1B (putI 1 0x1B f) := (slot_pack ..).1
  exact decode_of (by rw [assemble, s.set, s.row, s.col]; exact congrArg (fun x => some (Instr.gshli x)) (getI_putI ..)) h
theorem gshri (f : FmtI) : Statement (.gshri f) := fun w h e => by
  obtain rfl : putI 1 0x1C f = w := Option.some.inj e
  have s : Slot 1 0x1C (putI 1 0x1C f) := (slot_pack ..).1
  exact decode_of (by rw [assemble, s.set, s.row, s.col]; exact congrArg (fun x => some (Instr.gshri x)) (getI_putI ..)) h
theorem gsari (f : FmtI) : Statement (.gsari f) := fun w h e => by
  obtain rfl : putI 1 0x1D f = w := Option.some.inj e
  have s : Slot 1 0x1D (putI 1 0x1D f) := (slot_pack ..).1
  exact decode_of (by rw [assemble, s.set, s.row, s.col]; exact congrArg (fun x => some (Instr.gsari x)) (getI_putI ..)) h
theorem gmovi (f : FmtW) : Statement (.gmovi f) := fun w h e => by
  obtain rfl : putW 1 0x1E f = w := Option.some.inj e
  have s : Slot 1 0x1E (putW 1 0x1E f) := (slot_pack ..).1
  exact decode_of (by rw [assemble, s.set, s.row, s.col]; exact congrArg (fun x => some (Instr.gmovi x)) (getW_putW ..)) h
theorem gmovhi (f : FmtH) : Statement (.gmovhi f) := fun w h e => by
  obtain rfl : putH 1 0x1F f = w := Option.some.inj e
  have s : Slot 1 0x1F (putH 1 0x1F f) := (slot_pack ..).1
  exact decode_of (by rw [assemble, s.set, s.row, s.col]; exact congrArg (fun x => some (Instr.gmovhi x)) (getH_putH ..)) h
theorem gaddpc (f : FmtH) : Statement (.gaddpc f) := fun w h e => by
  obtain rfl : putH 1 0x20 f = w := Option.some.inj e
  have s : Slot 1 0x20 (putH 1 0x20 f) := (slot_pack ..).1
  exact decode_of (by rw [assemble, s.set, s.row, s.col]; exact congrArg (fun x => some (Instr.gaddpc x)) (getH_putH ..)) h
theorem gfadd (f : FmtR) : Statement (.gfadd f) := fun w h e => by
  obtain rfl : putR 1 0x21 f = w := Option.some.inj e
  have s : Slot 1 0x21 (putR 1 0x21 f) := (slot_pack ..).1
  exact decode_of (by rw [assemble, s.set, s.row, s.col]; exact congrArg (fun x => some (Instr.gfadd x)) (getR_putR ..)) h
theorem gfsub (f : FmtR) : Statement (.gfsub f) := fun w h e => by
  obtain rfl : putR 1 0x22 f = w := Option.some.inj e
  have s : Slot 1 0x22 (putR 1 0x22 f) := (slot_pack ..).1
  exact decode_of (by rw [assemble, s.set, s.row, s.col]; exact congrArg (fun x => some (Instr.gfsub x)) (getR_putR ..)) h
theorem gfmul (f : FmtR) : Statement (.gfmul f) := fun w h e => by
  obtain rfl : putR 1 0x23 f = w := Option.some.inj e
  have s : Slot 1 0x23 (putR 1 0x23 f) := (slot_pack ..).1
  exact decode_of (by rw [assemble, s.set, s.row, s.col]; exact congrArg (fun x => some (Instr.gfmul x)) (getR_putR ..)) h
theorem gfma (f : FmtR) : Statement (.gfma f) := fun w h e => by
  obtain rfl : putR 1 0x24 f = w := Option.some.inj e
  have s : Slot 1 0x24 (putR 1 0x24 f) := (slot_pack ..).1
  exact decode_of (by rw [assemble, s.set, s.row, s.col]; exact congrArg (fun x => some (Instr.gfma x)) (getR_putR ..)) h
theorem gfdiv (f : FmtR) : Statement (.gfdiv f) := fun w h e => by
  obtain rfl : putR 1 0x25 f = w := Option.some.inj e
  have s : Slot 1 0x25 (putR 1 0x25 f) := (slot_pack ..).1
  exact decode_of (by rw [assemble, s.set, s.row, s.col]; exact congrArg (fun x => some (Instr.gfdiv x)) (getR_putR ..)) h
theorem gfsqrt (f : FmtR) : Statement (.gfsqrt f) := fun w h e => by
  obtain rfl : putR 1 0x26 f = w := Option.some.inj e
  have s : Slot 1 0x26 (putR 1 0x26 f) := (slot_pack ..).1
  exact decode_of (by rw [assemble, s.set, s.row, s.col]; exact congrArg (fun x => some (Instr.gfsqrt x)) (getR_putR ..)) h
theorem gfmnx (f : FmtR) : Statement (.gfmnx f) := fun w h e => by
  obtain rfl : putR 1 0x27 f = w := Option.some.inj e
  have s : Slot 1 0x27 (putR 1 0x27 f) := (slot_pack ..).1
  exact decode_of (by rw [assemble, s.set, s.row, s.col]; exact congrArg (fun x => some (Instr.gfmnx x)) (getR_putR ..)) h
theorem gfcvt (f : FmtR) : Statement (.gfcvt f) := fun w h e => by
  obtain rfl : putR 1 0x28 f = w := Option.some.inj e
  have s : Slot 1 0x28 (putR 1 0x28 f) := (slot_pack ..).1
  exact decode_of (by rw [assemble, s.set, s.row, s.col]; exact congrArg (fun x => some (Instr.gfcvt x)) (getR_putR ..)) h
theorem gfcmp (f : FmtR) : Statement (.gfcmp f) := fun w h e => by
  obtain rfl : putR 1 0x29 f = w := Option.some.inj e
  have s : Slot 1 0x29 (putR 1 0x29 f) := (slot_pack ..).1
  exact decode_of (by rw [assemble, s.set, s.row, s.col]; exact congrArg (fun x => some (Instr.gfcmp x)) (getR_putR ..)) h
theorem gtgt (f : FmtT) : Statement (.gtgt f) := fun w h e => by
  obtain rfl : putT 1 0x2A f = w := Option.some.inj e
  have s : Slot 1 0x2A (putT 1 0x2A f) := (slot_pack ..).1
  exact decode_of (by rw [assemble, s.set, s.row, s.col]; exact congrArg (fun x => some (Instr.gtgt x)) (getT_putT ..)) h
theorem gtgtr (f : FmtR) : Statement (.gtgtr f) := fun w h e => by
  obtain rfl : putR 1 0x2B f = w := Option.some.inj e
  have s : Slot 1 0x2B (putR 1 0x2B f) := (slot_pack ..).1
  exact decode_of (by rw [assemble, s.set, s.row, s.col]; exact congrArg (fun x => some (Instr.gtgtr x)) (getR_putR ..)) h
theorem gloop (f : FmtR) : Statement (.gloop f) := fun w h e => by
  obtain rfl : putR 1 0x2C f = w := Option.some.inj e
  have s : Slot 1 0x2C (putR 1 0x2C f) := (slot_pack ..).1
  exact decode_of (by rw [assemble, s.set, s.row, s.col]; exact congrArg (fun x => some (Instr.gloop x)) (getR_putR ..)) h
theorem gloopi (f : FmtH) : Statement (.gloopi f) := fun w h e => by
  obtain rfl : putH 1 0x2D f = w := Option.some.inj e
  have s : Slot 1 0x2D (putH 1 0x2D f) := (slot_pack ..).1
  exact decode_of (by rw [assemble, s.set, s.row, s.col]; exact congrArg (fun x => some (Instr.gloopi x)) (getH_putH ..)) h
theorem gbrk (f : FmtR) : Statement (.gbrk f) := fun w h e => by
  obtain rfl : putR 1 0x2E f = w := Option.some.inj e
  have s : Slot 1 0x2E (putR 1 0x2E f) := (slot_pack ..).1
  exact decode_of (by rw [assemble, s.set, s.row, s.col]; exact congrArg (fun x => some (Instr.gbrk x)) (getR_putR ..)) h
theorem gldGlN32 (f : FmtM) : Statement (.gldGlN32 f) := fun w h e => by
  obtain rfl : putM 1 0x30 f = w := Option.some.inj e
  have s : Slot 1 0x30 (putM 1 0x30 f) := (slot_pack ..).1
  exact decode_of (by rw [assemble, s.set, s.row, s.col]; exact congrArg (fun x => some (Instr.gldGlN32 x)) (getM_putM ..)) h
theorem gldGlN64 (f : FmtM) : Statement (.gldGlN64 f) := fun w h e => by
  obtain rfl : putM 1 0x31 f = w := Option.some.inj e
  have s : Slot 1 0x31 (putM 1 0x31 f) := (slot_pack ..).1
  exact decode_of (by rw [assemble, s.set, s.row, s.col]; exact congrArg (fun x => some (Instr.gldGlN64 x)) (getM_putM ..)) h
theorem gldVtN32 (f : FmtM) : Statement (.gldVtN32 f) := fun w h e => by
  obtain rfl : putM 1 0x32 f = w := Option.some.inj e
  have s : Slot 1 0x32 (putM 1 0x32 f) := (slot_pack ..).1
  exact decode_of (by rw [assemble, s.set, s.row, s.col]; exact congrArg (fun x => some (Instr.gldVtN32 x)) (getM_putM ..)) h
theorem gldVtN64 (f : FmtM) : Statement (.gldVtN64 f) := fun w h e => by
  obtain rfl : putM 1 0x33 f = w := Option.some.inj e
  have s : Slot 1 0x33 (putM 1 0x33 f) := (slot_pack ..).1
  exact decode_of (by rw [assemble, s.set, s.row, s.col]; exact congrArg (fun x => some (Instr.gldVtN64 x)) (getM_putM ..)) h
theorem gstGlN32 (f : FmtM) : Statement (.gstGlN32 f) := fun w h e => by
  obtain rfl : putM 1 0x34 f = w := Option.some.inj e
  have s : Slot 1 0x34 (putM 1 0x34 f) := (slot_pack ..).1
  exact decode_of (by rw [assemble, s.set, s.row, s.col]; exact congrArg (fun x => some (Instr.gstGlN32 x)) (getM_putM ..)) h
theorem gstGlN64 (f : FmtM) : Statement (.gstGlN64 f) := fun w h e => by
  obtain rfl : putM 1 0x35 f = w := Option.some.inj e
  have s : Slot 1 0x35 (putM 1 0x35 f) := (slot_pack ..).1
  exact decode_of (by rw [assemble, s.set, s.row, s.col]; exact congrArg (fun x => some (Instr.gstGlN64 x)) (getM_putM ..)) h
theorem gstVtN32 (f : FmtM) : Statement (.gstVtN32 f) := fun w h e => by
  obtain rfl : putM 1 0x36 f = w := Option.some.inj e
  have s : Slot 1 0x36 (putM 1 0x36 f) := (slot_pack ..).1
  exact decode_of (by rw [assemble, s.set, s.row, s.col]; exact congrArg (fun x => some (Instr.gstVtN32 x)) (getM_putM ..)) h
theorem gstVtN64 (f : FmtM) : Statement (.gstVtN64 f) := fun w h e => by
  obtain rfl : putM 1 0x37 f = w := Option.some.inj e
  have s : Slot 1 0x37 (putM 1 0x37 f) := (slot_pack ..).1
  exact decode_of (by rw [assemble, s.set, s.row, s.col]; exact congrArg (fun x => some (Instr.gstVtN64 x)) (getM_putM ..)) h
theorem gldsGlN32 (f : FmtA) : Statement (.gldsGlN32 f) := fun w h e => by
  obtain rfl : putA 1 0x38 f = w := Option.some.inj e
  have s : Slot 1 0x38 (putA 1 0x38 f) := (slot_pack ..).1
  exact decode_of (by rw [assemble, s.set, s.row, s.col]; exact congrArg (fun x => some (Instr.gldsGlN32 x)) (getA_putA ..)) h
theorem gldsGlN64 (f : FmtA) : Statement (.gldsGlN64 f) := fun w h e => by
  obtain rfl : putA 1 0x39 f = w := Option.some.inj e
  have s : Slot 1 0x39 (putA 1 0x39 f) := (slot_pack ..).1
  exact decode_of (by rw [assemble, s.set, s.row, s.col]; exact congrArg (fun x => some (Instr.gldsGlN64 x)) (getA_putA ..)) h
theorem gldsVtN32 (f : FmtA) : Statement (.gldsVtN32 f) := fun w h e => by
  obtain rfl : putA 1 0x3A f = w := Option.some.inj e
  have s : Slot 1 0x3A (putA 1 0x3A f) := (slot_pack ..).1
  exact decode_of (by rw [assemble, s.set, s.row, s.col]; exact congrArg (fun x => some (Instr.gldsVtN32 x)) (getA_putA ..)) h
theorem gstsGlN32 (f : FmtA) : Statement (.gstsGlN32 f) := fun w h e => by
  obtain rfl : putA 1 0x3B f = w := Option.some.inj e
  have s : Slot 1 0x3B (putA 1 0x3B f) := (slot_pack ..).1
  exact decode_of (by rw [assemble, s.set, s.row, s.col]; exact congrArg (fun x => some (Instr.gstsGlN32 x)) (getA_putA ..)) h
theorem gstsGlN64 (f : FmtA) : Statement (.gstsGlN64 f) := fun w h e => by
  obtain rfl : putA 1 0x3C f = w := Option.some.inj e
  have s : Slot 1 0x3C (putA 1 0x3C f) := (slot_pack ..).1
  exact decode_of (by rw [assemble, s.set, s.row, s.col]; exact congrArg (fun x => some (Instr.gstsGlN64 x)) (getA_putA ..)) h
theorem gstsVtN32 (f : FmtA) : Statement (.gstsVtN32 f) := fun w h e => by
  obtain rfl : putA 1 0x3D f = w := Option.some.inj e
  have s : Slot 1 0x3D (putA 1 0x3D f) := (slot_pack ..).1
  exact decode_of (by rw [assemble, s.set, s.row, s.col]; exact congrArg (fun x => some (Instr.gstsVtN32 x)) (getA_putA ..)) h
theorem gfence (f : FmtA) : Statement (.gfence f) := fun w h e => by
  obtain rfl : putA 1 0x3E f = w := Option.some.inj e
  have s : Slot 1 0x3E (putA 1 0x3E f) := (slot_pack ..).1
  exact decode_of (by rw [assemble, s.set, s.row, s.col]; exact congrArg (fun x => some (Instr.gfence x)) (getA_putA ..)) h
theorem gprf (f : FmtM) : Statement (.gprf f) := fun w h e => by
  obtain rfl : putM 1 0x3F f = w := Option.some.inj e
  have s : Slot 1 0x3F (putM 1 0x3F f) := (slot_pack ..).1
  exact decode_of (by rw [assemble, s.set, s.row, s.col]; exact congrArg (fun x => some (Instr.gprf x)) (getM_putM ..)) h
theorem gatomAddN32 (f : FmtA) : Statement (.gatomAddN32 f) := fun w h e => by
  obtain rfl : putA 1 0x40 f = w := Option.some.inj e
  have s : Slot 1 0x40 (putA 1 0x40 f) := (slot_pack ..).1
  exact decode_of (by rw [assemble, s.set, s.row, s.col]; exact congrArg (fun x => some (Instr.gatomAddN32 x)) (getA_putA ..)) h
theorem gatomAddN64 (f : FmtA) : Statement (.gatomAddN64 f) := fun w h e => by
  obtain rfl : putA 1 0x41 f = w := Option.some.inj e
  have s : Slot 1 0x41 (putA 1 0x41 f) := (slot_pack ..).1
  exact decode_of (by rw [assemble, s.set, s.row, s.col]; exact congrArg (fun x => some (Instr.gatomAddN64 x)) (getA_putA ..)) h
theorem gatomAndN32 (f : FmtA) : Statement (.gatomAndN32 f) := fun w h e => by
  obtain rfl : putA 1 0x42 f = w := Option.some.inj e
  have s : Slot 1 0x42 (putA 1 0x42 f) := (slot_pack ..).1
  exact decode_of (by rw [assemble, s.set, s.row, s.col]; exact congrArg (fun x => some (Instr.gatomAndN32 x)) (getA_putA ..)) h
theorem gatomOrN32 (f : FmtA) : Statement (.gatomOrN32 f) := fun w h e => by
  obtain rfl : putA 1 0x43 f = w := Option.some.inj e
  have s : Slot 1 0x43 (putA 1 0x43 f) := (slot_pack ..).1
  exact decode_of (by rw [assemble, s.set, s.row, s.col]; exact congrArg (fun x => some (Instr.gatomOrN32 x)) (getA_putA ..)) h
theorem gatomXorN32 (f : FmtA) : Statement (.gatomXorN32 f) := fun w h e => by
  obtain rfl : putA 1 0x44 f = w := Option.some.inj e
  have s : Slot 1 0x44 (putA 1 0x44 f) := (slot_pack ..).1
  exact decode_of (by rw [assemble, s.set, s.row, s.col]; exact congrArg (fun x => some (Instr.gatomXorN32 x)) (getA_putA ..)) h
theorem gatomMinS32 (f : FmtA) : Statement (.gatomMinS32 f) := fun w h e => by
  obtain rfl : putA 1 0x45 f = w := Option.some.inj e
  have s : Slot 1 0x45 (putA 1 0x45 f) := (slot_pack ..).1
  exact decode_of (by rw [assemble, s.set, s.row, s.col]; exact congrArg (fun x => some (Instr.gatomMinS32 x)) (getA_putA ..)) h
theorem gatomMinN32 (f : FmtA) : Statement (.gatomMinN32 f) := fun w h e => by
  obtain rfl : putA 1 0x46 f = w := Option.some.inj e
  have s : Slot 1 0x46 (putA 1 0x46 f) := (slot_pack ..).1
  exact decode_of (by rw [assemble, s.set, s.row, s.col]; exact congrArg (fun x => some (Instr.gatomMinN32 x)) (getA_putA ..)) h
theorem gatomMaxS32 (f : FmtA) : Statement (.gatomMaxS32 f) := fun w h e => by
  obtain rfl : putA 1 0x47 f = w := Option.some.inj e
  have s : Slot 1 0x47 (putA 1 0x47 f) := (slot_pack ..).1
  exact decode_of (by rw [assemble, s.set, s.row, s.col]; exact congrArg (fun x => some (Instr.gatomMaxS32 x)) (getA_putA ..)) h
theorem gatomMaxN32 (f : FmtA) : Statement (.gatomMaxN32 f) := fun w h e => by
  obtain rfl : putA 1 0x48 f = w := Option.some.inj e
  have s : Slot 1 0x48 (putA 1 0x48 f) := (slot_pack ..).1
  exact decode_of (by rw [assemble, s.set, s.row, s.col]; exact congrArg (fun x => some (Instr.gatomMaxN32 x)) (getA_putA ..)) h
theorem gcasN32 (f : FmtA) : Statement (.gcasN32 f) := fun w h e => by
  obtain rfl : putA 1 0x49 f = w := Option.some.inj e
  have s : Slot 1 0x49 (putA 1 0x49 f) := (slot_pack ..).1
  exact decode_of (by rw [assemble, s.set, s.row, s.col]; exact congrArg (fun x => some (Instr.gcasN32 x)) (getA_putA ..)) h
theorem gcasN64 (f : FmtA) : Statement (.gcasN64 f) := fun w h e => by
  obtain rfl : putA 1 0x4A f = w := Option.some.inj e
  have s : Slot 1 0x4A (putA 1 0x4A f) := (slot_pack ..).1
  exact decode_of (by rw [assemble, s.set, s.row, s.col]; exact congrArg (fun x => some (Instr.gcasN64 x)) (getA_putA ..)) h
theorem gqpush (f : FmtE) : Statement (.gqpush f) := fun w h e => by
  obtain rfl : putE 1 0x4B f = w := Option.some.inj e
  have s : Slot 1 0x4B (putE 1 0x4B f) := (slot_pack ..).1
  exact decode_of (by rw [assemble, s.set, s.row, s.col]; exact congrArg (fun x => some (Instr.gqpush x)) (getE_putE ..)) h
theorem gqpop (f : FmtE) : Statement (.gqpop f) := fun w h e => by
  obtain rfl : putE 1 0x4C f = w := Option.some.inj e
  have s : Slot 1 0x4C (putE 1 0x4C f) := (slot_pack ..).1
  exact decode_of (by rw [assemble, s.set, s.row, s.col]; exact congrArg (fun x => some (Instr.gqpop x)) (getE_putE ..)) h
theorem gqtryPop (f : FmtE) : Statement (.gqtryPop f) := fun w h e => by
  obtain rfl : putE 1 0x4D f = w := Option.some.inj e
  have s : Slot 1 0x4D (putE 1 0x4D f) := (slot_pack ..).1
  have c : ∀ c : BitVec 5, (c &&& 8 == 0) = true → c.extractLsb' 3 1 = 0 := by decide
  have k : (putE 1 0x4D f).extractLsb' 3 1 = 0 := (low_c (getE_putE ..) 3 1 (by decide)).trans (c _ h)
  have g := getE_putE 1 0x4D f
  generalize putE 1 0x4D f = w at s k g ⊢
  exact decode_of (by rw [assemble, s.set, s.row, s.col]; simp [groupRow4, k, g]) h
theorem gqtryPush (f : FmtE) : Statement (.gqtryPush f) := fun w h e => by
  obtain rfl : putE 1 0x4D f = w := Option.some.inj e
  have s : Slot 1 0x4D (putE 1 0x4D f) := (slot_pack ..).1
  have c : ∀ c : BitVec 5, (c &&& 8 == 8) = true → c.extractLsb' 3 1 = 1 := by decide
  have k : (putE 1 0x4D f).extractLsb' 3 1 = 1 := (low_c (getE_putE ..) 3 1 (by decide)).trans (c _ h)
  have g := getE_putE 1 0x4D f
  generalize putE 1 0x4D f = w at s k g ⊢
  exact decode_of (by rw [assemble, s.set, s.row, s.col]; simp [groupRow4, k, g]) h
theorem gbar (f : FmtE) : Statement (.gbar f) := fun w h e => by
  obtain rfl : putE 1 0x4E f = w := Option.some.inj e
  have s : Slot 1 0x4E (putE 1 0x4E f) := (slot_pack ..).1
  exact decode_of (by rw [assemble, s.set, s.row, s.col]; exact congrArg (fun x => some (Instr.gbar x)) (getE_putE ..)) h
theorem gbarm (f : FmtE) : Statement (.gbarm f) := fun w h e => by
  obtain rfl : putE 1 0x4F f = w := Option.some.inj e
  have s : Slot 1 0x4F (putE 1 0x4F f) := (slot_pack ..).1
  exact decode_of (by rw [assemble, s.set, s.row, s.col]; exact congrArg (fun x => some (Instr.gbarm x)) (getE_putE ..)) h
theorem gbwait (f : FmtE) : Statement (.gbwait f) := fun w h e => by
  obtain rfl : putE 1 0x50 f = w := Option.some.inj e
  have s : Slot 1 0x50 (putE 1 0x50 f) := (slot_pack ..).1
  exact decode_of (by rw [assemble, s.set, s.row, s.col]; exact congrArg (fun x => some (Instr.gbwait x)) (getE_putE ..)) h
theorem gbadd (f : FmtE) : Statement (.gbadd f) := fun w h e => by
  obtain rfl : putE 1 0x51 f = w := Option.some.inj e
  have s : Slot 1 0x51 (putE 1 0x51 f) := (slot_pack ..).1
  exact decode_of (by rw [assemble, s.set, s.row, s.col]; exact congrArg (fun x => some (Instr.gbadd x)) (getE_putE ..)) h
theorem gcopy (f : FmtE) : Statement (.gcopy f) := fun w h e => by
  obtain rfl : putE 1 0x52 f = w := Option.some.inj e
  have s : Slot 1 0x52 (putE 1 0x52 f) := (slot_pack ..).1
  have c : ∀ c : BitVec 5, (c &&& 3 == 0) = true → c.extractLsb' 0 1 = 0 := by decide
  have k : (putE 1 0x52 f).extractLsb' 0 1 = 0 := (low_c (getE_putE ..) 0 1 (by decide)).trans (c _ (Bool.and_eq_true_iff.1 h).2)
  have g := getE_putE 1 0x52 f
  generalize putE 1 0x52 f = w at s k g ⊢
  exact decode_of (by rw [assemble, s.set, s.row, s.col]; simp [groupRow5, k, g]) h
theorem gcopyFill (f : FmtE) : Statement (.gcopyFill f) := fun w h e => by
  obtain rfl : putE 1 0x52 f = w := Option.some.inj e
  have s : Slot 1 0x52 (putE 1 0x52 f) := (slot_pack ..).1
  have c : ∀ c : BitVec 5, (c &&& 3 == 1) = true → c.extractLsb' 0 1 = 1 := by decide
  have k : (putE 1 0x52 f).extractLsb' 0 1 = 1 := (low_c (getE_putE ..) 0 1 (by decide)).trans (c _ (Bool.and_eq_true_iff.1 h).2)
  have g := getE_putE 1 0x52 f
  generalize putE 1 0x52 f = w at s k g ⊢
  exact decode_of (by rw [assemble, s.set, s.row, s.col]; simp [groupRow5, k, g]) h
theorem ggather (f : FmtE) : Statement (.ggather f) := fun w h e => by
  obtain rfl : putE 1 0x53 f = w := Option.some.inj e
  have s : Slot 1 0x53 (putE 1 0x53 f) := (slot_pack ..).1
  exact decode_of (by rw [assemble, s.set, s.row, s.col]; exact congrArg (fun x => some (Instr.ggather x)) (getE_putE ..)) h
theorem gscatter (f : FmtE) : Statement (.gscatter f) := fun w h e => by
  obtain rfl : putE 1 0x54 f = w := Option.some.inj e
  have s : Slot 1 0x54 (putE 1 0x54 f) := (slot_pack ..).1
  have c : ∀ c : BitVec 5, (c &&& 3 == 0) = true → c.extractLsb' 0 2 = 0 := by decide
  have k : (putE 1 0x54 f).extractLsb' 0 2 = 0 := (low_c (getE_putE ..) 0 2 (by decide)).trans (c _ (Bool.and_eq_true_iff.1 h).2)
  have g := getE_putE 1 0x54 f
  generalize putE 1 0x54 f = w at s k g ⊢
  exact decode_of (by rw [assemble, s.set, s.row, s.col]; simp [groupRow5, k, g]) h
theorem gscatterAddf (f : FmtE) : Statement (.gscatterAddf f) := fun w h e => by
  obtain rfl : putE 1 0x54 f = w := Option.some.inj e
  have s : Slot 1 0x54 (putE 1 0x54 f) := (slot_pack ..).1
  have c : ∀ c : BitVec 5, (c &&& 3 == 1) = true → c.extractLsb' 0 2 = 1 := by decide
  have k : (putE 1 0x54 f).extractLsb' 0 2 = 1 := (low_c (getE_putE ..) 0 2 (by decide)).trans (c _ (Bool.and_eq_true_iff.1 h).2)
  have g := getE_putE 1 0x54 f
  generalize putE 1 0x54 f = w at s k g ⊢
  exact decode_of (by rw [assemble, s.set, s.row, s.col]; simp [groupRow5, k, g]) h
theorem gscatterAddn (f : FmtE) : Statement (.gscatterAddn f) := fun w h e => by
  obtain rfl : putE 1 0x54 f = w := Option.some.inj e
  have s : Slot 1 0x54 (putE 1 0x54 f) := (slot_pack ..).1
  have c : ∀ c : BitVec 5, (c &&& 3 == 2) = true → c.extractLsb' 0 2 = 2 := by decide
  have k : (putE 1 0x54 f).extractLsb' 0 2 = 2 := (low_c (getE_putE ..) 0 2 (by decide)).trans (c _ (Bool.and_eq_true_iff.1 h).2)
  have g := getE_putE 1 0x54 f
  generalize putE 1 0x54 f = w at s k g ⊢
  exact decode_of (by rw [assemble, s.set, s.row, s.col]; simp [groupRow5, k, g]) h
theorem gcollAllreduce (f : FmtE) : Statement (.gcollAllreduce f) := fun w h e => by
  obtain rfl : putE 1 0x55 f = w := Option.some.inj e
  have s : Slot 1 0x55 (putE 1 0x55 f) := (slot_pack ..).1
  have c : ∀ c : BitVec 5, (c &&& 3 == 0) = true → c.extractLsb' 0 2 = 0 := by decide
  have k : (putE 1 0x55 f).extractLsb' 0 2 = 0 := (low_c (getE_putE ..) 0 2 (by decide)).trans (c _ (Bool.and_eq_true_iff.1 h).2)
  have g := getE_putE 1 0x55 f
  generalize putE 1 0x55 f = w at s k g ⊢
  exact decode_of (by rw [assemble, s.set, s.row, s.col]; simp [groupRow5, k, g]) h
theorem gcollAllgather (f : FmtE) : Statement (.gcollAllgather f) := fun w h e => by
  obtain rfl : putE 1 0x55 f = w := Option.some.inj e
  have s : Slot 1 0x55 (putE 1 0x55 f) := (slot_pack ..).1
  have c : ∀ c : BitVec 5, (c &&& 3 == 1) = true → c.extractLsb' 0 2 = 1 := by decide
  have k : (putE 1 0x55 f).extractLsb' 0 2 = 1 := (low_c (getE_putE ..) 0 2 (by decide)).trans (c _ (Bool.and_eq_true_iff.1 h).2)
  have g := getE_putE 1 0x55 f
  generalize putE 1 0x55 f = w at s k g ⊢
  exact decode_of (by rw [assemble, s.set, s.row, s.col]; simp [groupRow5, k, g]) h
theorem gcollReducescatter (f : FmtE) : Statement (.gcollReducescatter f) := fun w h e => by
  obtain rfl : putE 1 0x55 f = w := Option.some.inj e
  have s : Slot 1 0x55 (putE 1 0x55 f) := (slot_pack ..).1
  have c : ∀ c : BitVec 5, (c &&& 3 == 2) = true → c.extractLsb' 0 2 = 2 := by decide
  have k : (putE 1 0x55 f).extractLsb' 0 2 = 2 := (low_c (getE_putE ..) 0 2 (by decide)).trans (c _ (Bool.and_eq_true_iff.1 h).2)
  have g := getE_putE 1 0x55 f
  generalize putE 1 0x55 f = w at s k g ⊢
  exact decode_of (by rw [assemble, s.set, s.row, s.col]; simp [groupRow5, k, g]) h
theorem gcollBroadcast (f : FmtE) : Statement (.gcollBroadcast f) := fun w h e => by
  obtain rfl : putE 1 0x55 f = w := Option.some.inj e
  have s : Slot 1 0x55 (putE 1 0x55 f) := (slot_pack ..).1
  have c : ∀ c : BitVec 5, (c &&& 3 == 3) = true → c.extractLsb' 0 2 = 3 := by decide
  have k : (putE 1 0x55 f).extractLsb' 0 2 = 3 := (low_c (getE_putE ..) 0 2 (by decide)).trans (c _ (Bool.and_eq_true_iff.1 h).2)
  have g := getE_putE 1 0x55 f
  generalize putE 1 0x55 f = w at s k g ⊢
  exact decode_of (by rw [assemble, s.set, s.row, s.col]; simp [groupRow5, k, g]) h
theorem gmfence (f : FmtR) : Statement (.gmfence f) := fun w h e => by
  obtain rfl : putR 1 0x56 f = w := Option.some.inj e
  have s : Slot 1 0x56 (putR 1 0x56 f) := (slot_pack ..).1
  exact decode_of (by rw [assemble, s.set, s.row, s.col]; exact congrArg (fun x => some (Instr.gmfence x)) (getR_putR ..)) h
theorem gmwait (f : FmtI) : Statement (.gmwait f) := fun w h e => by
  obtain rfl : putI 1 0x57 f = w := Option.some.inj e
  have s : Slot 1 0x57 (putI 1 0x57 f) := (slot_pack ..).1
  exact decode_of (by rw [assemble, s.set, s.row, s.col]; exact congrArg (fun x => some (Instr.gmwait x)) (getI_putI ..)) h
theorem gewait (f : FmtE) : Statement (.gewait f) := fun w h e => by
  obtain rfl : putE 1 0x58 f = w := Option.some.inj e
  have s : Slot 1 0x58 (putE 1 0x58 f) := (slot_pack ..).1
  exact decode_of (by rw [assemble, s.set, s.row, s.col]; exact congrArg (fun x => some (Instr.gewait x)) (getE_putE ..)) h
theorem gevpost (f : FmtE) : Statement (.gevpost f) := fun w h e => by
  obtain rfl : putE 1 0x59 f = w := Option.some.inj e
  have s : Slot 1 0x59 (putE 1 0x59 f) := (slot_pack ..).1
  exact decode_of (by rw [assemble, s.set, s.row, s.col]; exact congrArg (fun x => some (Instr.gevpost x)) (getE_putE ..)) h
theorem gpin (f : FmtR) : Statement (.gpin f) := fun w h e => by
  obtain rfl : putR 1 0x5A f = w := Option.some.inj e
  have s : Slot 1 0x5A (putR 1 0x5A f) := (slot_pack ..).1
  exact decode_of (by rw [assemble, s.set, s.row, s.col]; exact congrArg (fun x => some (Instr.gpin x)) (getR_putR ..)) h
theorem gunpin (f : FmtR) : Statement (.gunpin f) := fun w h e => by
  obtain rfl : putR 1 0x5B f = w := Option.some.inj e
  have s : Slot 1 0x5B (putR 1 0x5B f) := (slot_pack ..).1
  exact decode_of (by rw [assemble, s.set, s.row, s.col]; exact congrArg (fun x => some (Instr.gunpin x)) (getR_putR ..)) h
theorem ghint (f : FmtR) : Statement (.ghint f) := fun w h e => by
  obtain rfl : putR 1 0x5C f = w := Option.some.inj e
  have s : Slot 1 0x5C (putR 1 0x5C f) := (slot_pack ..).1
  exact decode_of (by rw [assemble, s.set, s.row, s.col]; exact congrArg (fun x => some (Instr.ghint x)) (getR_putR ..)) h
theorem gwhere (f : FmtR) : Statement (.gwhere f) := fun w h e => by
  obtain rfl : putR 1 0x5D f = w := Option.some.inj e
  have s : Slot 1 0x5D (putR 1 0x5D f) := (slot_pack ..).1
  exact decode_of (by rw [assemble, s.set, s.row, s.col]; exact congrArg (fun x => some (Instr.gwhere x)) (getR_putR ..)) h
theorem gdup (f : FmtR) : Statement (.gdup f) := fun w h e => by
  obtain rfl : putR 1 0x5E f = w := Option.some.inj e
  have s : Slot 1 0x5E (putR 1 0x5E f) := (slot_pack ..).1
  exact decode_of (by rw [assemble, s.set, s.row, s.col]; exact congrArg (fun x => some (Instr.gdup x)) (getR_putR ..)) h
theorem gspawn (f : FmtR) : Statement (.gspawn f) := fun w h e => by
  obtain rfl : putR 1 0x5F f = w := Option.some.inj e
  have s : Slot 1 0x5F (putR 1 0x5F f) := (slot_pack ..).1
  exact decode_of (by rw [assemble, s.set, s.row, s.col]; exact congrArg (fun x => some (Instr.gspawn x)) (getR_putR ..)) h
theorem gcpush (f : FmtR) : Statement (.gcpush f) := fun w h e => by
  obtain rfl : putR 1 0x60 f = w := Option.some.inj e
  have s : Slot 1 0x60 (putR 1 0x60 f) := (slot_pack ..).1
  exact decode_of (by rw [assemble, s.set, s.row, s.col]; exact congrArg (fun x => some (Instr.gcpush x)) (getR_putR ..)) h
theorem gcjoin (f : FmtR) : Statement (.gcjoin f) := fun w h e => by
  obtain rfl : putR 1 0x61 f = w := Option.some.inj e
  have s : Slot 1 0x61 (putR 1 0x61 f) := (slot_pack ..).1
  exact decode_of (by rw [assemble, s.set, s.row, s.col]; exact congrArg (fun x => some (Instr.gcjoin x)) (getR_putR ..)) h
theorem glaunch (f : FmtR) : Statement (.glaunch f) := fun w h e => by
  obtain rfl : putR 1 0x62 f = w := Option.some.inj e
  have s : Slot 1 0x62 (putR 1 0x62 f) := (slot_pack ..).1
  exact decode_of (by rw [assemble, s.set, s.row, s.col]; exact congrArg (fun x => some (Instr.glaunch x)) (getR_putR ..)) h
theorem gapon (f : FmtR) : Statement (.gapon f) := fun w h e => by
  obtain rfl : putR 1 0x63 f = w := Option.some.inj e
  have s : Slot 1 0x63 (putR 1 0x63 f) := (slot_pack ..).1
  exact decode_of (by rw [assemble, s.set, s.row, s.col]; exact congrArg (fun x => some (Instr.gapon x)) (getR_putR ..)) h
theorem gapoff (f : FmtR) : Statement (.gapoff f) := fun w h e => by
  obtain rfl : putR 1 0x64 f = w := Option.some.inj e
  have s : Slot 1 0x64 (putR 1 0x64 f) := (slot_pack ..).1
  exact decode_of (by rw [assemble, s.set, s.row, s.col]; exact congrArg (fun x => some (Instr.gapoff x)) (getR_putR ..)) h
theorem gid (f : FmtI) : Statement (.gid f) := fun w h e => by
  obtain rfl : putI 1 0x65 f = w := Option.some.inj e
  have s : Slot 1 0x65 (putI 1 0x65 f) := (slot_pack ..).1
  exact decode_of (by rw [assemble, s.set, s.row, s.col]; exact congrArg (fun x => some (Instr.gid x)) (getI_putI ..)) h
theorem gyield (f : FmtR) : Statement (.gyield f) := fun w h e => by
  obtain rfl : putR 1 0x66 f = w := Option.some.inj e
  have s : Slot 1 0x66 (putR 1 0x66 f) := (slot_pack ..).1
  exact decode_of (by rw [assemble, s.set, s.row, s.col]; exact congrArg (fun x => some (Instr.gyield x)) (getR_putR ..)) h
theorem gsplice (f : FmtE) : Statement (.gsplice f) := fun w h e => by
  obtain rfl : putE 1 0x67 f = w := Option.some.inj e
  have s : Slot 1 0x67 (putE 1 0x67 f) := (slot_pack ..).1
  exact decode_of (by rw [assemble, s.set, s.row, s.col]; exact congrArg (fun x => some (Instr.gsplice x)) (getE_putE ..)) h
theorem gkvwalk (f : FmtE) : Statement (.gkvwalk f) := fun w h e => by
  obtain rfl : putE 1 0x68 f = w := Option.some.inj e
  have s : Slot 1 0x68 (putE 1 0x68 f) := (slot_pack ..).1
  have c : ∀ c : BitVec 5, (c == 0) = true → c.extractLsb' 0 1 = 0 := by decide
  have k : (putE 1 0x68 f).extractLsb' 0 1 = 0 := (low_c (getE_putE ..) 0 1 (by decide)).trans (c _ h)
  have g := getE_putE 1 0x68 f
  generalize putE 1 0x68 f = w at s k g ⊢
  exact decode_of (by rw [assemble, s.set, s.row, s.col]; simp [groupRow6, k, g]) h
theorem gkvwalkNode (f : FmtE) : Statement (.gkvwalkNode f) := fun w h e => by
  obtain rfl : putE 1 0x68 f = w := Option.some.inj e
  have s : Slot 1 0x68 (putE 1 0x68 f) := (slot_pack ..).1
  have c : ∀ c : BitVec 5, (c == 1) = true → c.extractLsb' 0 1 = 1 := by decide
  have k : (putE 1 0x68 f).extractLsb' 0 1 = 1 := (low_c (getE_putE ..) 0 1 (by decide)).trans (c _ h)
  have g := getE_putE 1 0x68 f
  generalize putE 1 0x68 f = w at s k g ⊢
  exact decode_of (by rw [assemble, s.set, s.row, s.col]; simp [groupRow6, k, g]) h
theorem gkvref (f : FmtE) : Statement (.gkvref f) := fun w h e => by
  obtain rfl : putE 1 0x69 f = w := Option.some.inj e
  have s : Slot 1 0x69 (putE 1 0x69 f) := (slot_pack ..).1
  exact decode_of (by rw [assemble, s.set, s.row, s.col]; exact congrArg (fun x => some (Instr.gkvref x)) (getE_putE ..)) h
theorem gkvnew (f : FmtE) : Statement (.gkvnew f) := fun w h e => by
  obtain rfl : putE 1 0x6A f = w := Option.some.inj e
  have s : Slot 1 0x6A (putE 1 0x6A f) := (slot_pack ..).1
  exact decode_of (by rw [assemble, s.set, s.row, s.col]; exact congrArg (fun x => some (Instr.gkvnew x)) (getE_putE ..)) h
theorem grepair (f : FmtE) : Statement (.grepair f) := fun w h e => by
  obtain rfl : putE 1 0x6B f = w := Option.some.inj e
  have s : Slot 1 0x6B (putE 1 0x6B f) := (slot_pack ..).1
  exact decode_of (by rw [assemble, s.set, s.row, s.col]; exact congrArg (fun x => some (Instr.grepair x)) (getE_putE ..)) h
theorem grepwm (f : FmtE) : Statement (.grepwm f) := fun w h e => by
  obtain rfl : putE 1 0x6C f = w := Option.some.inj e
  have s : Slot 1 0x6C (putE 1 0x6C f) := (slot_pack ..).1
  have c : ∀ c : BitVec 5, (c == 0) = true → c.extractLsb' 0 1 = 0 := by decide
  have k : (putE 1 0x6C f).extractLsb' 0 1 = 0 := (low_c (getE_putE ..) 0 1 (by decide)).trans (c _ h)
  have g := getE_putE 1 0x6C f
  generalize putE 1 0x6C f = w at s k g ⊢
  exact decode_of (by rw [assemble, s.set, s.row, s.col]; simp [groupRow6, k, g]) h
theorem grepwmAbort (f : FmtE) : Statement (.grepwmAbort f) := fun w h e => by
  obtain rfl : putE 1 0x6C f = w := Option.some.inj e
  have s : Slot 1 0x6C (putE 1 0x6C f) := (slot_pack ..).1
  have c : ∀ c : BitVec 5, (c == 1) = true → c.extractLsb' 0 1 = 1 := by decide
  have k : (putE 1 0x6C f).extractLsb' 0 1 = 1 := (low_c (getE_putE ..) 0 1 (by decide)).trans (c _ h)
  have g := getE_putE 1 0x6C f
  generalize putE 1 0x6C f = w at s k g ⊢
  exact decode_of (by rw [assemble, s.set, s.row, s.col]; simp [groupRow6, k, g]) h
theorem gprov (f : FmtE) : Statement (.gprov f) := fun w h e => by
  obtain rfl : putE 1 0x6D f = w := Option.some.inj e
  have s : Slot 1 0x6D (putE 1 0x6D f) := (slot_pack ..).1
  have c : ∀ c : BitVec 5, (c == 0) = true → c.extractLsb' 0 1 = 0 := by decide
  have k : (putE 1 0x6D f).extractLsb' 0 1 = 0 := (low_c (getE_putE ..) 0 1 (by decide)).trans (c _ h)
  have g := getE_putE 1 0x6D f
  generalize putE 1 0x6D f = w at s k g ⊢
  exact decode_of (by rw [assemble, s.set, s.row, s.col]; simp [groupRow6, k, g]) h
theorem gprovEnt (f : FmtE) : Statement (.gprovEnt f) := fun w h e => by
  obtain rfl : putE 1 0x6D f = w := Option.some.inj e
  have s : Slot 1 0x6D (putE 1 0x6D f) := (slot_pack ..).1
  have c : ∀ c : BitVec 5, (c == 1) = true → c.extractLsb' 0 1 = 1 := by decide
  have k : (putE 1 0x6D f).extractLsb' 0 1 = 1 := (low_c (getE_putE ..) 0 1 (by decide)).trans (c _ h)
  have g := getE_putE 1 0x6D f
  generalize putE 1 0x6D f = w at s k g ⊢
  exact decode_of (by rw [assemble, s.set, s.row, s.col]; simp [groupRow6, k, g]) h
theorem gring (f : FmtE) : Statement (.gring f) := fun w h e => by
  obtain rfl : putE 1 0x6E f = w := Option.some.inj e
  have s : Slot 1 0x6E (putE 1 0x6E f) := (slot_pack ..).1
  exact decode_of (by rw [assemble, s.set, s.row, s.col]; exact congrArg (fun x => some (Instr.gring x)) (getE_putE ..)) h
theorem gtrap (f : FmtI) : Statement (.gtrap f) := fun w h e => by
  obtain rfl : putI 1 0x6F f = w := Option.some.inj e
  have s : Slot 1 0x6F (putI 1 0x6F f) := (slot_pack ..).1
  exact decode_of (by rw [assemble, s.set, s.row, s.col]; exact congrArg (fun x => some (Instr.gtrap x)) (getI_putI ..)) h
theorem gtfence (f : FmtR) : Statement (.gtfence f) := fun w h e => by
  obtain rfl : putR 1 0x70 f = w := Option.some.inj e
  have s : Slot 1 0x70 (putR 1 0x70 f) := (slot_pack ..).1
  exact decode_of (by rw [assemble, s.set, s.row, s.col]; exact congrArg (fun x => some (Instr.gtfence x)) (getR_putR ..)) h
theorem gtret (f : FmtR) : Statement (.gtret f) := fun w h e => by
  obtain rfl : putR 1 0x71 f = w := Option.some.inj e
  have s : Slot 1 0x71 (putR 1 0x71 f) := (slot_pack ..).1
  exact decode_of (by rw [assemble, s.set, s.row, s.col]; exact congrArg (fun x => some (Instr.gtret x)) (getR_putR ..)) h
theorem gsrr (f : FmtI) : Statement (.gsrr f) := fun w h e => by
  obtain rfl : putI 1 0x72 f = w := Option.some.inj e
  have s : Slot 1 0x72 (putI 1 0x72 f) := (slot_pack ..).1
  exact decode_of (by rw [assemble, s.set, s.row, s.col]; exact congrArg (fun x => some (Instr.gsrr x)) (getI_putI ..)) h
theorem gsrw (f : FmtI) : Statement (.gsrw f) := fun w h e => by
  obtain rfl : putI 1 0x73 f = w := Option.some.inj e
  have s : Slot 1 0x73 (putI 1 0x73 f) := (slot_pack ..).1
  exact decode_of (by rw [assemble, s.set, s.row, s.col]; exact congrArg (fun x => some (Instr.gsrw x)) (getI_putI ..)) h
theorem gsrxSet (f : FmtI) : Statement (.gsrxSet f) := fun w h e => by
  obtain rfl : putI 1 0x74 f = w := Option.some.inj e
  have s : Slot 1 0x74 (putI 1 0x74 f) := (slot_pack ..).1
  exact decode_of (by rw [assemble, s.set, s.row, s.col]; exact congrArg (fun x => some (Instr.gsrxSet x)) (getI_putI ..)) h
theorem gsrxClr (f : FmtI) : Statement (.gsrxClr f) := fun w h e => by
  obtain rfl : putI 1 0x75 f = w := Option.some.inj e
  have s : Slot 1 0x75 (putI 1 0x75 f) := (slot_pack ..).1
  exact decode_of (by rw [assemble, s.set, s.row, s.col]; exact congrArg (fun x => some (Instr.gsrxClr x)) (getI_putI ..)) h
theorem gtinv (f : FmtR) : Statement (.gtinv f) := fun w h e => by
  obtain rfl : putR 1 0x76 f = w := Option.some.inj e
  have s : Slot 1 0x76 (putR 1 0x76 f) := (slot_pack ..).1
  exact decode_of (by rw [assemble, s.set, s.row, s.col]; exact congrArg (fun x => some (Instr.gtinv x)) (getR_putR ..)) h
theorem gtsync (f : FmtR) : Statement (.gtsync f) := fun w h e => by
  obtain rfl : putR 1 0x77 f = w := Option.some.inj e
  have s : Slot 1 0x77 (putR 1 0x77 f) := (slot_pack ..).1
  exact decode_of (by rw [assemble, s.set, s.row, s.col]; exact congrArg (fun x => some (Instr.gtsync x)) (getR_putR ..)) h
theorem gwaitt (f : FmtR) : Statement (.gwaitt f) := fun w h e => by
  obtain rfl : putR 1 0x78 f = w := Option.some.inj e
  have s : Slot 1 0x78 (putR 1 0x78 f) := (slot_pack ..).1
  exact decode_of (by rw [assemble, s.set, s.row, s.col]; exact congrArg (fun x => some (Instr.gwaitt x)) (getR_putR ..)) h
theorem gtime (f : FmtI) : Statement (.gtime f) := fun w h e => by
  obtain rfl : putI 1 0x79 f = w := Option.some.inj e
  have s : Slot 1 0x79 (putI 1 0x79 f) := (slot_pack ..).1
  exact decode_of (by rw [assemble, s.set, s.row, s.col]; exact congrArg (fun x => some (Instr.gtime x)) (getI_putI ..)) h
theorem gsleep (f : FmtI) : Statement (.gsleep f) := fun w h e => by
  obtain rfl : putI 1 0x7A f = w := Option.some.inj e
  have s : Slot 1 0x7A (putI 1 0x7A f) := (slot_pack ..).1
  exact decode_of (by rw [assemble, s.set, s.row, s.col]; exact congrArg (fun x => some (Instr.gsleep x)) (getI_putI ..)) h
theorem gecall (f : FmtI) : Statement (.gecall f) := fun w h e => by
  obtain rfl : putI 1 0x7B f = w := Option.some.inj e
  have s : Slot 1 0x7B (putI 1 0x7B f) := (slot_pack ..).1
  exact decode_of (by rw [assemble, s.set, s.row, s.col]; exact congrArg (fun x => some (Instr.gecall x)) (getI_putI ..)) h
theorem ghcall (f : FmtI) : Statement (.ghcall f) := fun w h e => by
  obtain rfl : putI 1 0x7C f = w := Option.some.inj e
  have s : Slot 1 0x7C (putI 1 0x7C f) := (slot_pack ..).1
  exact decode_of (by rw [assemble, s.set, s.row, s.col]; exact congrArg (fun x => some (Instr.ghcall x)) (getI_putI ..)) h
theorem gctxsv (f : FmtE) : Statement (.gctxsv f) := fun w h e => by
  obtain rfl : putE 1 0x7D f = w := Option.some.inj e
  have s : Slot 1 0x7D (putE 1 0x7D f) := (slot_pack ..).1
  have c : ∀ c : BitVec 5, (c == 0) = true → c.extractLsb' 0 1 = 0 := by decide
  have k : (putE 1 0x7D f).extractLsb' 0 1 = 0 := (low_c (getE_putE ..) 0 1 (by decide)).trans (c _ h)
  have g := getE_putE 1 0x7D f
  generalize putE 1 0x7D f = w at s k g ⊢
  exact decode_of (by rw [assemble, s.set, s.row, s.col]; simp [groupRow7, k, g]) h
theorem gctxsvTarget (f : FmtE) : Statement (.gctxsvTarget f) := fun w h e => by
  obtain rfl : putE 1 0x7D f = w := Option.some.inj e
  have s : Slot 1 0x7D (putE 1 0x7D f) := (slot_pack ..).1
  have c : ∀ c : BitVec 5, (c == 1) = true → c.extractLsb' 0 1 = 1 := by decide
  have k : (putE 1 0x7D f).extractLsb' 0 1 = 1 := (low_c (getE_putE ..) 0 1 (by decide)).trans (c _ h)
  have g := getE_putE 1 0x7D f
  generalize putE 1 0x7D f = w at s k g ⊢
  exact decode_of (by rw [assemble, s.set, s.row, s.col]; simp [groupRow7, k, g]) h
theorem gctxld (f : FmtE) : Statement (.gctxld f) := fun w h e => by
  obtain rfl : putE 1 0x7E f = w := Option.some.inj e
  have s : Slot 1 0x7E (putE 1 0x7E f) := (slot_pack ..).1
  exact decode_of (by rw [assemble, s.set, s.row, s.col]; exact congrArg (fun x => some (Instr.gctxld x)) (getE_putE ..)) h
theorem ghalt (f : FmtR) : Statement (.ghalt f) := fun w h e => by
  obtain rfl : putR 1 0x7F f = w := Option.some.inj e
  have s : Slot 1 0x7F (putR 1 0x7F f) := (slot_pack ..).1
  exact decode_of (by rw [assemble, s.set, s.row, s.col]; exact congrArg (fun x => some (Instr.ghalt x)) (getR_putR ..)) h
theorem resultReturn x0 x1 x2 : Statement (.resultReturn x0 x1 x2) := fun _ h _ => nomatch h
theorem trapEntry x0 x1 : Statement (.trapEntry x0 x1) := fun _ h _ => nomatch h
theorem groupEnd x0 x1 : Statement (.groupEnd x0 x1) := fun _ h _ => nomatch h
theorem recordDispatch x0 x1 : Statement (.recordDispatch x0 x1) := fun _ h _ => nomatch h
theorem holdReached x0 x1 : Statement (.holdReached x0 x1) := fun _ h _ => nomatch h
theorem gangAdmission x0 x1 : Statement (.gangAdmission x0 x1) := fun _ h _ => nomatch h
theorem overflowRetry x0 : Statement (.overflowRetry x0) := fun _ h _ => nomatch h
theorem graphNodeLaunch x0 x1 : Statement (.graphNodeLaunch x0 x1) := fun _ h _ => nomatch h
theorem dieLinkLoss x0 : Statement (.dieLinkLoss x0) := fun _ h _ => nomatch h
theorem queueWaiterServed x0 x1 x2 : Statement (.queueWaiterServed x0 x1 x2) := fun _ h _ => nomatch h
theorem barrierWaitEnd x0 x1 x2 : Statement (.barrierWaitEnd x0 x1 x2) := fun _ h _ => nomatch h
theorem byteBarrierWaitEnd x0 x1 x2 : Statement (.byteBarrierWaitEnd x0 x1 x2) := fun _ h _ => nomatch h
theorem eventWaitEnd x0 x1 x2 : Statement (.eventWaitEnd x0 x1 x2) := fun _ h _ => nomatch h
theorem timedWaitExpiry x0 x1 x2 : Statement (.timedWaitExpiry x0 x1 x2) := fun _ h _ => nomatch h
theorem sleepEnd x0 x1 x2 : Statement (.sleepEnd x0 x1 x2) := fun _ h _ => nomatch h
theorem deadlineReached x0 x1 x2 : Statement (.deadlineReached x0 x1 x2) := fun _ h _ => nomatch h
theorem assayAudit x0 : Statement (.assayAudit x0) := fun _ h _ => nomatch h
theorem leaseRenewal x0 : Statement (.leaseRenewal x0) := fun _ h _ => nomatch h
theorem engineChunkComplete x0 x1 x2 : Statement (.engineChunkComplete x0 x1 x2) := fun _ h _ => nomatch h
theorem arrayEntryBegin x0 : Statement (.arrayEntryBegin x0) := fun _ h _ => nomatch h
theorem arrayRowWrite x0 : Statement (.arrayRowWrite x0) := fun _ h _ => nomatch h
theorem tileWriteApply x0 x1 : Statement (.tileWriteApply x0 x1) := fun _ h _ => nomatch h
theorem sideLogReplay x0 : Statement (.sideLogReplay x0) := fun _ h _ => nomatch h
theorem epochEnd x0 : Statement (.epochEnd x0) := fun _ h _ => nomatch h
theorem ladleMoveBegin x0 x1 : Statement (.ladleMoveBegin x0 x1) := fun _ h _ => nomatch h
theorem moveCopyComplete x0 x1 : Statement (.moveCopyComplete x0 x1) := fun _ h _ => nomatch h
theorem moveRetire x0 x1 : Statement (.moveRetire x0 x1) := fun _ h _ => nomatch h
theorem duplicateCreate x0 x1 : Statement (.duplicateCreate x0 x1) := fun _ h _ => nomatch h
theorem dupCollapse x0 x1 : Statement (.dupCollapse x0 x1) := fun _ h _ => nomatch h
theorem collapseEnd x0 x1 : Statement (.collapseEnd x0 x1) := fun _ h _ => nomatch h
theorem ladleRingAction x0 : Statement (.ladleRingAction x0) := fun _ h _ => nomatch h
theorem invalidationComplete x0 x1 : Statement (.invalidationComplete x0 x1) := fun _ h _ => nomatch h
theorem layerJoinComplete x0 : Statement (.layerJoinComplete x0) := fun _ h _ => nomatch h
theorem quantumRowBoundary : Statement .quantumRowBoundary := fun _ h _ => nomatch h
theorem quantumTableTake : Statement .quantumTableTake := fun _ h _ => nomatch h
theorem qctlLoad x0 : Statement (.qctlLoad x0) := fun _ h _ => nomatch h
theorem vfctlWrite x0 x1 : Statement (.vfctlWrite x0 x1) := fun _ h _ => nomatch h
theorem sldiscWrite x0 x1 x2 : Statement (.sldiscWrite x0 x1 x2) := fun _ h _ => nomatch h
theorem addressRangeEnable x0 x1 : Statement (.addressRangeEnable x0 x1) := fun _ h _ => nomatch h
theorem poolRelease x0 x1 : Statement (.poolRelease x0 x1) := fun _ h _ => nomatch h
theorem poolReleaseDone : Statement .poolReleaseDone := fun _ h _ => nomatch h
theorem poolTake x0 x1 : Statement (.poolTake x0 x1) := fun _ h _ => nomatch h
theorem poolQuery x0 x1 : Statement (.poolQuery x0 x1) := fun _ h _ => nomatch h
theorem extentActivate x0 : Statement (.extentActivate x0) := fun _ h _ => nomatch h
theorem extentOrderlyRelease x0 : Statement (.extentOrderlyRelease x0) := fun _ h _ => nomatch h
theorem extentReleaseAck x0 : Statement (.extentReleaseAck x0) := fun _ h _ => nomatch h
theorem forcedWithdrawal x0 x1 : Statement (.forcedWithdrawal x0 x1) := fun _ h _ => nomatch h
theorem extentFree x0 : Statement (.extentFree x0) := fun _ h _ => nomatch h
theorem peerDown x0 x1 : Statement (.peerDown x0 x1) := fun _ h _ => nomatch h
theorem peerUp x0 x1 x2 : Statement (.peerUp x0 x1 x2) := fun _ h _ => nomatch h
theorem coldStart x0 x1 x2 x3 x4 : Statement (.coldStart x0 x1 x2 x3 x4) := fun _ h _ => nomatch h
theorem warmStart x0 x1 x2 x3 x4 x5 x6 : Statement (.warmStart x0 x1 x2 x3 x4 x5 x6) := fun _ h _ => nomatch h
theorem unitPowerUp : Statement .unitPowerUp := fun _ h _ => nomatch h
theorem attestationRequest x0 : Statement (.attestationRequest x0) := fun _ h _ => nomatch h
theorem attestationReport : Statement .attestationReport := fun _ h _ => nomatch h
theorem pcapWrite x0 : Statement (.pcapWrite x0) := fun _ h _ => nomatch h
theorem powerCapSample x0 : Statement (.powerCapSample x0) := fun _ h _ => nomatch h
theorem powerCapFallback : Statement .powerCapFallback := fun _ h _ => nomatch h
theorem thermalTrip x0 x1 : Statement (.thermalTrip x0 x1) := fun _ h _ => nomatch h
theorem scrubRead x0 x1 x2 : Statement (.scrubRead x0 x1 x2) := fun _ h _ => nomatch h
theorem linkPacketCorrupt x0 x1 x2 x3 x4 x5 : Statement (.linkPacketCorrupt x0 x1 x2 x3 x4 x5) := fun _ h _ => nomatch h
theorem heartbeatSample : Statement .heartbeatSample := fun _ h _ => nomatch h
theorem mcmdResume x0 : Statement (.mcmdResume x0) := fun _ h _ => nomatch h
theorem mcmdDiscard x0 : Statement (.mcmdDiscard x0) := fun _ h _ => nomatch h
theorem checkpointStart x0 : Statement (.checkpointStart x0) := fun _ h _ => nomatch h
theorem restore : Statement .restore := fun _ h _ => nomatch h
theorem servoLock x0 : Statement (.servoLock x0) := fun _ h _ => nomatch h
theorem sensorSample x0 x1 x2 x3 : Statement (.sensorSample x0 x1 x2 x3) := fun _ h _ => nomatch h
theorem tgRegister x0 x1 x2 : Statement (.tgRegister x0 x1 x2) := fun _ h _ => nomatch h
theorem tgRegisterAck x0 x1 x2 x3 x4 : Statement (.tgRegisterAck x0 x1 x2 x3 x4) := fun _ h _ => nomatch h
theorem tgWithdraw x0 x1 x2 : Statement (.tgWithdraw x0 x1 x2) := fun _ h _ => nomatch h
theorem tgRequest x0 x1 x2 x3 : Statement (.tgRequest x0 x1 x2 x3) := fun _ h _ => nomatch h
theorem tgDwellExpiry x0 : Statement (.tgDwellExpiry x0) := fun _ h _ => nomatch h
theorem tgAckTimeout x0 x1 : Statement (.tgAckTimeout x0 x1) := fun _ h _ => nomatch h
theorem tgAnnouncement x0 x1 x2 x3 x4 : Statement (.tgAnnouncement x0 x1 x2 x3 x4) := fun _ h _ => nomatch h
theorem tgStepApply x0 : Statement (.tgStepApply x0) := fun _ h _ => nomatch h
theorem tgDetach x0 x1 : Statement (.tgDetach x0 x1) := fun _ h _ => nomatch h
theorem tgLocalStep x0 : Statement (.tgLocalStep x0) := fun _ h _ => nomatch h
theorem tgRegisterRetry x0 : Statement (.tgRegisterRetry x0) := fun _ h _ => nomatch h
theorem counterCopy : Statement .counterCopy := fun _ h _ => nomatch h
theorem counterClear : Statement .counterClear := fun _ h _ => nomatch h
theorem registerWrite x0 x1 : Statement (.registerWrite x0 x1) := fun _ h _ => nomatch h
theorem wordNotInstruction x0 : Statement (.wordNotInstruction x0) := fun _ h _ => nomatch h
theorem fetchTranslationFault : Statement .fetchTranslationFault := fun _ h _ => nomatch h
theorem grandmasterLoss : Statement .grandmasterLoss := fun _ h _ => nomatch h
theorem tnowAgreement : Statement .tnowAgreement := fun _ h _ => nomatch h
theorem collectiveMismatch x0 : Statement (.collectiveMismatch x0) := fun _ h _ => nomatch h
theorem signedFuseCommand x0 x1 x2 x3 : Statement (.signedFuseCommand x0 x1 x2 x3) := fun _ h _ => nomatch h

end RoundTrip

end Sys2Proof.Laws
end

