-- ==== Sys2Proof/Laws/Registers.lean ====
section
/-! SUPPORT. What writing registers does: each write changes its own lanes and nothing else. -/

namespace Sys2Proof.Machine

theorem mem_lanesOf (m : Mask) (l : Nat) : l ∈ lanesOf m ↔ l < 32 ∧ lane m l = true := by simp [lanesOf]

theorem lane_lt {m : Mask} {l : Nat} (h : lane m l = true) : l < 32 := by
  by_contra hl
  simp [lane, BitVec.getLsbD_of_ge m l (by omega)] at h

/-- `t` is `s` but for the registers of the group. -/
def RegsOnly (s t : State) : Prop := t = { s with g := { s.g with regs := t.g.regs } }

theorem RegsOnly.refl (s : State) : RegsOnly s s := rfl

theorem RegsOnly.trans {s t u : State} (h : RegsOnly s t) (k : RegsOnly t u) : RegsOnly s u := by
  unfold RegsOnly at *
  rw [h] at k
  exact k

theorem regsOnly_putReg (s : State) (key : Nat) (x : Word) : RegsOnly s (putReg s key x) := rfl

theorem putReg_get (s : State) (key k : Nat) (x : Word) :
    storeGet 0 (putReg s key x).g.regs k = if k = key then x else storeGet 0 s.g.regs k := storeGet_set ..

theorem regsOnly_foldl {β : Type} (f : State → β → State) (hf : ∀ s x, RegsOnly s (f s x)) (l : List β) (s : State) :
    RegsOnly s (l.foldl f s) := by
  induction l generalizing s with
  | nil => rfl
  | cons x t ih => exact (hf s x).trans (ih _)

theorem regsOnly_putLanes (s : State) (i : Nat) (m : Mask) (f : Nat → Word) : RegsOnly s (putLanes s i m f) :=
  regsOnly_foldl _ (fun _ _ => regsOnly_putReg ..) _ _

theorem putLanes_fold (i : Nat) (f : Nat → Word) (ls : List Nat) (hl : ∀ l ∈ ls, l < 32) (s : State) (key : Nat) :
    storeGet 0 (ls.foldl (fun s l => putV s i l (f l)) s).g.regs key =
      if key / 32 = i ∧ key % 32 ∈ ls then f (key % 32) else storeGet 0 s.g.regs key := by
  induction ls generalizing s with
  | nil => simp
  | cons l t ih =>
    have hl0 := hl l (by simp)
    rw [List.foldl_cons, ih (fun x hx => hl x (by simp [hx]))]
    simp only [putV, putReg_get, vKey, List.mem_cons]
    by_cases h1 : key / 32 = i ∧ key % 32 ∈ t
    · simp [h1]
    · rw [if_neg h1]
      by_cases h2 : key = 32 * i + l
      · subst h2
        have hd : (32 * i + l) / 32 = i := by omega
        have hm : (32 * i + l) % 32 = l := by omega
        simp [hd, hm]
      · have h3 : ¬(key / 32 = i ∧ (key % 32 = l ∨ key % 32 ∈ t)) := by
          rintro ⟨h4, h5 | h5⟩
          · omega
          · exact h1 ⟨h4, h5⟩
        rw [if_neg h2, if_neg h3]

/-- A read after a lane result (R10). -/
theorem putLanes_get (s : State) (i : Nat) (m : Mask) (f : Nat → Word) (key : Nat) :
    storeGet 0 (putLanes s i m f).g.regs key =
      if key / 32 = i ∧ lane m (key % 32) = true then f (key % 32) else storeGet 0 s.g.regs key := by
  have h := putLanes_fold i f (lanesOf m) (fun l hl => ((mem_lanesOf m l).1 hl).1) s key
  have hk : key % 32 < 32 := Nat.mod_lt _ (by omega)
  simp only [mem_lanesOf, hk, true_and] at h
  exact h

/-- Lane results of some words in consecutive registers. -/
theorem putWords_get (d : Nat) (m : Mask) (f : Nat → Nat → Word) (w : Nat) (s : State) (key : Nat) :
    storeGet 0 ((upto w).foldl (fun s i => putLanes s (d + i) m (f i)) s).g.regs key =
      if 32 * d ≤ key ∧ key < 32 * (d + w) ∧ lane m (key % 32) = true then f (key / 32 - d) (key % 32)
      else storeGet 0 s.g.regs key := by
  induction w with
  | zero => simp [upto]; intros; omega
  | succ w ih =>
    simp only [upto, List.foldl_append, List.foldl_cons, List.foldl_nil, putLanes_get, ih]
    by_cases hm : lane m (key % 32) = true
    · simp only [hm, and_true]
      by_cases h1 : key / 32 = d + w
      · rw [if_pos h1, if_pos (by omega), h1]; congr 1; omega
      · rw [if_neg h1]
        by_cases h2 : 32 * d ≤ key ∧ key < 32 * (d + w)
        · rw [if_pos h2, if_pos (by omega)]
        · rw [if_neg h2, if_neg (by omega)]
    · simp [hm]

theorem regsOnly_putWords (d : Nat) (m : Mask) (f : Nat → Nat → Word) (w : Nat) (s : State) :
    RegsOnly s ((upto w).foldl (fun s i => putLanes s (d + i) m (f i)) s) :=
  regsOnly_foldl _ (fun _ _ => regsOnly_putLanes ..) _ _

/-- The state after a lane result: the acting lanes of the destination, and FLAGS, are all that changes (R10, R198). -/
theorem putLaneResult_eq (s : State) (m : Mask) (d w : Nat) (f : Nat → List Word × Word) :
    ∃ r, LaneWritten s.g.regs r d w m (fun i l => (f l).1.getD i 0) ∧
      putLaneResult s m d w f = withRegs s r (s.g.flags ||| orLanes m fun l => (f l).2) := by
  let t := (upto w).foldl (fun s i => putLanes s (d + i) m fun l => (f l).1.getD i 0) s
  refine ⟨t.g.regs, fun key => putWords_get d m (fun i l => (f l).1.getD i 0) w s key, ?_⟩
  have h : RegsOnly s t := regsOnly_putWords d m (fun i l => (f l).1.getD i 0) w s
  show orFlags t _ = _
  unfold RegsOnly at h
  rw [h]
  rfl

theorem regsOnly_putK {s : State} (h : s.onAp = false) (i : Nat) (x : Word) : RegsOnly s (putK s i x) := by
  unfold putK; rw [h]; exact regsOnly_putReg ..

theorem putK_get {s : State} (h : s.onAp = false) (i : Nat) (x : Word) (key : Nat) :
    storeGet 0 (putK s i x).g.regs key = if key = kKey i then x else storeGet 0 s.g.regs key := by
  unfold putK; rw [h]; exact putReg_get ..

theorem RegsOnly.onAp {s t : State} (h : RegsOnly s t) : t.onAp = s.onAp := by unfold RegsOnly at h; rw [h]

theorem RegsOnly.lanes {s t : State} (h : RegsOnly s t) : allLanes t.g = allLanes s.g := by unfold RegsOnly at h; rw [h]; rfl

theorem putUniform_eq {s : State} (h : s.onAp = false) (c : Nat) (x : Word) : RegsOnly s (putUniform s c x) := by
  unfold putUniform; split
  · exact regsOnly_putLanes ..
  · exact regsOnly_putK h ..

theorem putUniforms_regs {s : State} (h : s.onAp = false) (c : Nat) (xs : List Word) : RegsOnly s (putUniforms s c xs) := by
  induction xs generalizing s c with
  | nil => rfl
  | cons x t ih => exact (putUniform_eq h c x).trans (ih (by rw [(putUniform_eq h c x).onAp, h]) _)

/-- A uniform result in k registers. -/
theorem putUniformsK_get {s : State} (h : s.onAp = false) (xs : List Word) (c : Nat) (hc : 48 ≤ c) (key : Nat) :
    storeGet 0 (putUniforms s c xs).g.regs key =
      if 1536 + (c - 48) ≤ key ∧ key < 1536 + (c - 48 + xs.length) then xs.getD (key - (1536 + (c - 48))) 0
      else storeGet 0 s.g.regs key := by
  induction xs generalizing s c with
  | nil => simp [putUniforms]
  | cons x t ih =>
    have hu : putUniform s c x = putK s (c - 48) x := by unfold putUniform; rw [if_neg (by omega)]
    have hr := regsOnly_putK h (c - 48) x
    simp only [putUniforms, hu]
    rw [ih (s := putK s (c - 48) x) (by rw [hr.onAp, h]) (c + 1) (by omega), putK_get h]
    simp only [List.length_cons]
    have hk : kKey (c - 48) = 1536 + (c - 48) := rfl
    rw [hk]
    by_cases h1 : key = 1536 + (c - 48)
    · rw [if_neg (by omega), if_pos h1, if_pos (by omega)]
      have : key - (1536 + (c - 48)) = 0 := by omega
      simp [this]
    · by_cases h2 : 1536 + (c + 1 - 48) ≤ key ∧ key < 1536 + (c + 1 - 48 + t.length)
      · rw [if_pos h2, if_pos (by omega)]
        have : key - (1536 + (c - 48)) = (key - (1536 + (c + 1 - 48))) + 1 := by omega
        simp [this]
      · rw [if_neg h2, if_neg h1, if_neg (by omega)]

/-- The state after a uniform result that lies on one side of the boundary between v and k. -/
theorem putUniforms_get {s : State} (h : s.onAp = false) (d : RegCode) (xs : List Word)
    (hs : d.toNat < 48 → d.toNat + xs.length ≤ 48) :
    UniformWritten s.g s.g.regs (putUniforms s d.toNat xs).g.regs d xs.length (fun i => xs.getD i 0) := by
  unfold UniformWritten isV
  by_cases hd : d.toNat < 48
  · simp only [hd, decide_true, if_true]
    specialize hs hd
    generalize d.toNat = c at hs
    clear hd d
    induction xs generalizing s c with
    | nil => intro key; simp [putUniforms]; intros; omega
    | cons x t ih =>
      simp only [List.length_cons] at hs
      have hu : putUniform s c x = putLanes s c (allLanes s.g) fun _ => x := by unfold putUniform; rw [if_pos (by omega)]
      have hr := regsOnly_putLanes s c (allLanes s.g) fun _ => x
      intro key
      simp only [putUniforms, hu]
      rw [ih (s := putLanes s c (allLanes s.g) fun _ => x) (by rw [hr.onAp, h]) (c + 1) (by omega) key, hr.lanes, putLanes_get]
      by_cases hm : lane (allLanes s.g) (key % 32) = true
      · simp only [hm, and_true, List.length_cons]
        by_cases h1 : key / 32 = c
        · rw [if_neg (by omega), if_pos h1, if_pos (by omega)]
          have : key / 32 - c = 0 := by omega
          simp [this]
        · by_cases h2 : 32 * (c + 1) ≤ key ∧ key < 32 * (c + 1 + t.length)
          · rw [if_pos h2, if_pos (by omega)]
            have : key / 32 - c = (key / 32 - (c + 1)) + 1 := by omega
            simp [this]
          · rw [if_neg h2, if_neg h1, if_neg (by omega)]
      · simp [hm]
  · simp only [hd, decide_false]
    have hd' : 48 ≤ d.toNat := by omega
    generalize d.toNat = c at hd'
    clear hd hs d
    show ∀ key, storeGet 0 (putUniforms s c xs).g.regs key =
      if 1536 + (c - 48) ≤ key ∧ key < 1536 + (c - 48 + xs.length) then xs.getD (key - (1536 + (c - 48))) 0
      else storeGet 0 s.g.regs key
    exact putUniformsK_get h xs c hd'

theorem putMask_get (s : State) (i : Nat) (x : Mask) :
    MaskWritten s.g.regs (putMask s i x).g.regs i x ∧ RegsOnly s (putMask s i x) := by
  unfold putMask MaskWritten
  split
  · exact ⟨by simp_all, rfl⟩
  · rename_i hi
    exact ⟨fun key => by rw [putReg_get]; exact if_congr (by simp [hi]) rfl rfl, regsOnly_putReg ..⟩

end Sys2Proof.Machine
end

