-- ==== Sys2Proof/Tests/Slice0.lean ====
section
/-! SUPPORT. Tests: for every statement with hypotheses a state that meets them, the words of the encoding tables, and the spec's
worked examples. -/

namespace Sys2Proof.Tests
open Sys2Proof.Machine

-- The kernel checks the tests one after another, since side by side they take the memory of too many threads.
set_option Elab.async false

/-- The placed machine with the group on one lane: k0, k1 hold 0x20000, v2 and v3 hold 3 and 4 in lane 0, and k2 holds 16. -/
def tS : State :=
  let p := placed State.reset 0
  { p with agenda := [], g := { p.g with
      s0 := ⟨true, 0x10000, 1, .none⟩, mode := .mch, regs := [(64, 3), (96, 4), (1536, 0x20000), (1538, 16), (1540, 0x40000)] } }

/-- `tS` after its windows closed. -/
def ready (s : State) (nas : Nas) (io : Io) (srcs : List (Nat × RegCode × Nat)) : Bool :=
  s.g.live && io.bad.isEmpty && (closing s io.writes).all (fun w => w.gone == 0) &&
    !debugRead (closed s io.writes) nas io.reads && (takeAll srcs (closed s io.writes)).isOk

theorem ready_spec {s : State} {nas : Nas} {io : Io} {srcs : List (Nat × RegCode × Nat)} (h : ready s nas io srcs = true) :
    ∃ t s' os, t = closed s io.writes ∧ Clear s nas io ∧ takeAll srcs t = .ok (os, s') := by
  simp only [ready, Bool.and_eq_true, List.isEmpty_iff, List.all_eq_true, Bool.not_eq_true'] at h
  obtain ⟨⟨⟨⟨a, b⟩, c⟩, d⟩, e⟩ := h
  cases k : takeAll srcs (closed s io.writes) with
  | error x => simp [k, Except.isOk, Except.toBool] at e
  | ok x => exact ⟨_, x.2, x.1, rfl, ⟨a, b, fun w hw => by simpa using c w hw, d⟩, k⟩

def fr : FmtR := ⟨.seq, 8, 2, 4, 0⟩
theorem wit_lane_rows : ((Claims.laneInteger ++ Claims.laneField ++ Claims.laneMove ++ Claims.laneFloat).all fun r =>
    ready tS .seq (r.io fr tS) (r.srcs fr)) = true := by decide +kernel

/-- ArithmeticRounds and ConversionsRound: every format has a NaN, and all but E4M3 an infinity, zeros and other finite values of both
signs; codes, elements and pairs in their ranges. -/
theorem wit_number_formats :
    (Claims.formats.all fun p => Claims.nan p.1 p.2 && decide (p.2 < 2 ^ (p.1.ebits + p.1.fbits + 1)) && Claims.finite p.1 1 &&
      Claims.finite p.1 (2 ^ (p.1.ebits + p.1.fbits)) && Claims.negative p.1 (2 ^ (p.1.ebits + p.1.fbits)) &&
      (p.1.e4m3 || Claims.infinite p.1 (Claims.infPattern p.1 true))) = true ∧
    (∀ p ∈ Claims.formats, Claims.number p.1 0 = 0) ∧ Claims.number f32 0x3F800000 = 1 ∧
    (List.range 40).length = 40 ∧ Claims.elementSpecial 0 [0x3F80] 0 = false := by
  refine ⟨by decide +kernel, fun p _ => ?_, ?_, rfl, by decide +kernel⟩
  · simp [Claims.number, Claims.fracField, Claims.expField]
  · have n : Claims.negative f32 0x3F800000 = false := by decide +kernel
    have e : Claims.expField f32 0x3F800000 = 127 := by decide +kernel
    have m : Claims.fracField f32 0x3F800000 = 0 := by decide +kernel
    have b : f32.bias = 127 := by decide +kernel
    simp [Claims.number, n, e, m, b]

/-- What Passes asks, as a test. -/
def passes (s : State) (op : MemOp) (reqs : List Req) : Bool :=
  (match op.scope with | some n => !scopeRefused s n | none => true) &&
  reqs.all (fun r => (!op.strong || r.va % op.z == 0) &&
    if op.vt then decide (r.va < 2 ^ 29)
    else decide (r.va < 2 ^ 57) && (reqPages op.z r).all fun p =>
      match translate s (accOf s.g) op.use (p * 4096) with
      | .ok g => (op.cls == .load || (!bit g.pte 12 && !bit g.pte 13)) &&
          !peerGone s (g.pa + (if p = r.va / 4096 then r.va % 4096 else 0)) &&
          !linkLost s s.g.who.vf s.g.who.ident s.g.who.loc.die r.lane (g.pa + (if p = r.va / 4096 then r.va % 4096 else 0))
      | _ => false) &&
  (op.cls != .side || op.vt || decide (logUsed s (coreId s.g.who.loc) + unitsOf op.z reqs ≤ 64)) &&
  (!op.strong || (winsOf s).all (fun w => w.gone &&& active s == 0) && (ownLog s).all fun e => e.kind == .plain &&
    (op.vt || reqs.all fun r => (List.range op.z).all fun i => !e.holds (r.va + i))) &&
  !(vfReg s s.g.who.vf 0x030).getLsbD 1 && migMode s s.g.who.vf != 2

theorem passes_spec {s : State} {op : MemOp} {reqs : List Req} (h : passes s op reqs = true) : Claims.Passes s op reqs := by
  simp only [passes, Bool.and_eq_true, List.all_eq_true, Bool.not_eq_true', bne_iff_ne] at h
  obtain ⟨⟨⟨⟨⟨a, b⟩, c⟩, o⟩, d⟩, e⟩ := h
  refine ⟨?_, ?_, ?_, ?_, d, e⟩
  · intro n hn; simpa [hn] using a
  · intro r hr
    obtain ⟨x, y⟩ := b r hr
    refine ⟨fun hs => by simpa [hs] using x, ?_⟩
    split <;> rename_i hv
    · simpa [hv] using y
    · simp only [hv, Bool.and_eq_true, List.all_eq_true, decide_eq_true_eq, if_false, Bool.false_eq_true] at y
      refine ⟨y.1, fun p hp => ?_⟩
      have k := y.2 p hp
      split at k
      · rename_i g hg
        refine ⟨g, hg, fun hc => ?_, ?_⟩ <;> simp_all
      · cases k
  · intro hc hv; simpa [hc, hv] using c
  · intro hs
    simp only [hs, Bool.not_true, Bool.false_or, Bool.and_eq_true, List.all_eq_true] at o
    refine ⟨fun w hw => by simpa using o.1 w hw, fun x hx => ⟨by simpa using (o.2 x hx).1, fun hv r hr i hi => ?_⟩⟩
    have k := (o.2 x hx).2
    simp only [hv, Bool.false_or, List.all_eq_true] at k
    simpa using k r hr i (List.mem_range.2 hi)

/-- A lane access of each size at k0, k1 and in the vault at k2 meets what LaneLoads, LaneStores, LaneAtomics, LaneReductions,
GroupLoads, GroupStores and GroupAtomics ask; nothing holds back a release, and every write has arrived. -/
theorem wit_memory : ([(false, 1), (false, 2), (false, 4), (false, 8), (false, 16), (true, 4), (true, 16)].all fun x =>
    let a : RegCode := if x.1 then 50 else 48
    let wa := if x.1 then 1 else 2
    [AClass.load, .side, .rmw].all fun c => [true, false].all fun strong =>
      let op : MemOp := ⟨x.1, x.2, c, strong, if strong then some 2 else none⟩
      let io : Io := ⟨spaceBad tS op.vt ++ vBad 8 (sizeRegs op.z) ++ baseBad a op.vt, codes a wa, codes 8 (sizeRegs op.z)⟩
      let va := laneVa tS (Opnd.k [storeGet 0 tS.g.regs (kKey (a.toNat - 48)), 0]) op.vt op.z 0 0
      ready tS .seq io [(0, 8, sizeRegs op.z), (1, a, wa)] && passes (closed tS []) op [⟨0, va⟩]) = true ∧
    winsOf tS = [] ∧ tS.g.unres = false ∧ ownLog tS = [] ∧ tS.ms.hist = [] ∧ tS.ms.undef = [] := by decide +kernel

/-- The words of LaneImmediateResults and LaneCompareResults: vshli v1, v2 by 32 (reserved, 0x02) and by 31; vcmps with x = 6 and 5. -/
theorem wit_lane_words :
    let w := putI 0 0x1A ⟨.seq, 1, 2, 32⟩
    w.getLsbD 31 = false ∧ w.extractLsb' 21 7 = 0x1A ∧ (w.extractLsb' 0 9).extractLsb' 5 4 ≠ 0 ∧ tS.g.live = true ∧ tS.onAp = false ∧
    (decode w).toOption = none ∧ (decode (putI 0 0x1A ⟨.seq, 1, 2, 31⟩)).toOption = some (.vshli ⟨.seq, 1, 2, 31⟩) ∧
    (decode (putR 0 0x1E ⟨.seq, 1, 2, 4, 6⟩)).toOption = none ∧
    (decode (putR 0 0x1E ⟨.seq, 1, 2, 4, 5⟩)).toOption = some (.vcmps ⟨.seq, 1, 2, 4, 5⟩) := by
  decide +kernel

/-- LaneImmediateResults, LaneCompareResults with its masks, LaneReduceResults. -/
theorem wit_lane_masks :
    ready tS .seq ⟨noAp tS ++ vBad 8 1, codes 2 1 ++ [64], codes 8 1⟩ [(1, 2, 1)] = true ∧
    ready tS .seq ⟨noAp tS ++ maskBad 1, codes 2 1 ++ codes 4 1, [65]⟩ [(1, 2, 1), (2, 4, 1)] = true ∧
    ready tS .seq ⟨noAp tS ++ maskBad 1 ++ maskBad 2 ++ maskBad 3, [66, 67], [65]⟩ [] = true ∧
    (Instr.vcmps ⟨.seq, 1, 2, 4, 5⟩).wellFormed = true ∧ (Instr.vmop ⟨.seq, 1, 2, 0, 6⟩).wellFormed = true ∧
    ready tS .seq ⟨coreOnly tS, codes 2 1, codes 8 1⟩ [(1, 2, 1)] = true ∧
    ready tS .seq ⟨coreOnly tS ++ vBad 8 1, codes 2 1, codes 8 1⟩ [(1, 2, 1)] = true ∧
    ready tS .seq ⟨coreOnly tS ++ maskBad 1, [65], codes 8 1⟩ [] = true ∧ (Instr.vvote ⟨.seq, 8, 1, 0, 3⟩).wellFormed = true := by
  decide +kernel

/-- `tS` with an access processor that issues. -/
def tAp : State :=
  { tS with onAp := true, g := { tS.g with ap := some ⟨0, 0x20000, [(2, 16)], noCtx.seq, .running, List.replicate 4 [], [], [], []⟩ } }

/-- `tAp` with its access queues full. -/
def tFull : State := { tAp with g := { tAp.g with ap := tAp.g.ap.map fun a => { a with aq := List.replicate 4 (List.replicate 16 ⟨0, [], []⟩) } } }

/-- GroupLoads by an access processor, into its own registers, its access queues with and without room, and a v register. -/
theorem wit_slice_loads :
    ([tAp, tFull].all fun s => [(52 : RegCode), 62, 8].all fun d => [(false, (48 : RegCode), 2), (true, 50, 1)].all fun x => [4, 8].all fun z =>
      ready s .seq ⟨(if x.1 then noScalar s else []) ++ kBad x.2.1 x.2.2 ++ alignBad d (sizeRegs z), codes x.2.1 x.2.2, codes d (sizeRegs z)⟩
        [(1, x.2.1, x.2.2)] &&
      passes (closed s []) ⟨x.1, z, .load, false, none⟩ [⟨0, 0x20000⟩]) = true ∧
    (tFull.g.ap.map fun a => (a.aq.getD 2 []).length) = some 16 ∧ (tAp.g.ap.map fun a => a.aq.length) = some 4 := by decide +kernel

def gr : FmtR := ⟨.seq, 52, 50, 48, 0⟩
def gi : FmtI := ⟨.seq, 52, 50, 1⟩

/-- GroupIntegerResults by a group and by an access processor, whose destination k14 and k15 have room; GroupFloatResults,
GroupCompareResults. -/
theorem wit_group_rows :
    (Claims.groupInteger.all fun r => ready tS .seq (r.io gr) (r.srcs gr) &&
      ready tAp .seq (r.io { gr with d := 62 }) (r.srcs { gr with d := 62 }) && isK (r.dest { gr with d := 62 }) &&
      match takeAll (r.srcs { gr with d := 62 }) tAp with | .ok x => x.2 == tAp | .error _ => false) = true ∧
    (∀ w ∈ [1, 2], ready tAp .seq ⟨alignBad 52 w, [], codes 52 w⟩ [] = true ∧
      ready tAp .seq ⟨srcsBad [(1, 50, w), (2, 48, w)] ++ alignBad 52 w, srcCodes [(1, 50, w), (2, 48, w)], codes 52 w⟩ [(1, 50, w), (2, 48, w)] = true) ∧
    ready tS .seq ⟨srcsBad [(1, gi.a, 1)] ++ alignBad gi.d 1, srcCodes [(1, gi.a, 1)], codes gi.d 1⟩ [(1, gi.a, 1)] = true ∧
    ready tS .seq ⟨alignBad 52 1, [], codes 52 1⟩ [] = true ∧ ready tS .seq ⟨alignBad 52 2, [], codes 52 2⟩ [] = true ∧
    (∀ x : Fin 2, ready tS .seq ⟨srcsBad [(1, 50, gfRegs (BitVec.ofNat 3 x)), (2, 48, gfRegs (BitVec.ofNat 3 x))] ++
        alignBad 52 (gfRegs (BitVec.ofNat 3 x)), srcCodes [(1, 50, gfRegs (BitVec.ofNat 3 x)), (2, 48, gfRegs (BitVec.ofNat 3 x))],
        codes 52 (gfRegs (BitVec.ofNat 3 x))⟩ [(1, 50, gfRegs (BitVec.ofNat 3 x)), (2, 48, gfRegs (BitVec.ofNat 3 x))] = true) ∧
    ready tS .seq ⟨maskBad 1 ++ srcsBad (Claims.two gr), srcCodes (Claims.two gr), [65]⟩ (Claims.two gr) = true ∧
    (Instr.gcmp ⟨.seq, 1, 50, 48, 5⟩).wellFormed = true ∧ (Instr.gfcmp ⟨.seq, 1, 50, 48, 5⟩).wellFormed = true := by
  decide +kernel

/-- SequencingForms, with room and with a full target queue and a full loop stack. -/
theorem wit_sequencing :
    let full : State := { tS with g := { tS.g with seq := { tS.g.seq with tqn := 4, lsn := 4 } } }
    ∀ s ∈ [tS, full], ready s .seq ⟨[], [], []⟩ [] = true ∧ ready s .seq ⟨srcsBad [(1, 48, 2)], srcCodes [(1, 48, 2)], []⟩ [(1, 48, 2)] = true ∧
      ready s .seq ⟨srcsBad [(1, 50, 1)], srcCodes [(1, 50, 1)], []⟩ [(1, 50, 1)] = true ∧ (applyNas (selectorMask s) s .seq).isOk = true := by
  decide +kernel

/-- FencesAndPrefetches: each order at device scope, with nothing in the side log. -/
theorem wit_fences :
    ready tS .seq ⟨[], [], []⟩ [] = true ∧ scopeRefused (closed tS []) 2 = false ∧ tS.g.unres = false ∧ ownLog (closed tS []) = [] ∧
    ready tAp .seq ⟨[], [], []⟩ [] = true ∧ scopeRefused (closed tAp []) 2 = false ∧ (closed tAp []).g.ap.isSome = true ∧ winsOf tS = [] ∧
    (let e : LogEntry := ⟨0, 0, 0, 0x20010, List.replicate 16 7, 1, .plain, 7, 0, 0, 1, [], [], .mch, false⟩
     let logged : State := { tAp with ms := { tAp.ms with log := [e] }, g := { tAp.g with ap := tAp.g.ap.map fun a => { a with ids := [1] } } }
     ownLog (closed logged []) = [e] ∧ logged.g.ap.map (·.ids) = some [1] ∧ ready logged .seq ⟨[], [], []⟩ [] = true) ∧
    ready tS .seq ⟨noAp tS ++ alignBad 48 2, codes 48 2, []⟩ [(1, 48, 2)] = true ∧ migMode tS 0 ≠ 2 := by decide +kernel

/-- `tS` with a tile, BF16 weights and an array queue of n entries. -/
def tM (n : Nat) (pidx : Word) : State :=
  let w : Weights := ⟨0, [], []⟩
  { tS with
    arrays := [⟨0, List.replicate n ⟨0, 0, 1, 0, false, 16, List.replicate 16 (List.replicate 32 0), true, w, 0, 0, [(0, List.replicate 16 0)]⟩,
      [⟨0, 0, 1, 0, 0, 0, false, List.replicate 32 (0, 0)⟩], none⟩]
    g := { tS.g with pidx := pidx, mx := { tS.g.mx with held := 1, weights := some w, writes := [⟨0, 5, 0, true, []⟩] } } }

/-- MatrixForms: PIDX 0 and 1, an empty and a full queue. -/
theorem wit_matrix : ∀ s ∈ [tM 0 0, tM 0 1, tM 8 0],
    ready s .seq ⟨coreOnly s ++ vmmqBad s ⟨.seq, 0, 16, 0, 0, 0⟩, codes 0 1 ++ codes 16 16, []⟩ [] = true ∧
    aRegs 0 (streamFmt (closed s []) 0) = some 16 ∧ (0 : Nat) < (closed s []).g.mx.held ∧
    ready s .seq ⟨coreOnly s ++ (if weightCode 8 then [] else [0x02]) ++ rangeBad 16 (bRegs 8), codes 16 (bRegs 8), []⟩ [] = true ∧
    ready tS .seq (Claims.vdev.io fr tS) (Claims.vdev.srcs fr) = true := by decide +kernel

/-- TileForms: rows that are final, room for a tile write, and four that wait. -/
theorem wit_tiles :
    let s : State := { tM 0 0 with arrays := [], g := { (tM 0 0).g with mx := { (tM 0 0).g.mx with writes := [] } } }
    let four : State := { s with g := { s.g with mx := { s.g.mx with writes := List.replicate 4 ⟨0, 5, 0, true, []⟩ } } }
    ready s .seq ⟨coreOnly s ++ vBad 8 1, codes 2 1, codes 8 1⟩ [(1, 2, 1)] = true ∧
    (∀ l < 32, rowFinal s s.g 0 l = true) ∧ s.g.mx.writes.length < 4 ∧
    ready s .seq ⟨coreOnly s, codes 2 1 ++ codes 4 1, []⟩ [(0, 2, 1), (1, 4, 1)] = true ∧
    ready four .seq ⟨coreOnly s, [], []⟩ [] = true ∧ 4 ≤ (closed four []).g.mx.writes.length := by decide +kernel

/-- ArraySteps: an operation at the head, a row to write, a tile write that is due. -/
theorem wit_arrays :
    let s := tM 1 0
    let later : State := { s with g := { s.g with mx := { s.g.mx with writes := [] } }, arrays := [{ arrayOf s 0 with rows := [] }] }
    (arrayOf later 0).queue ≠ [] ∧ (arrayOf later 0).part = 0 ∧ (∀ x ∈ (arrayOf later 0).queue, entryHeld later x = false) ∧
    (arrayOf s 0).rows ≠ [] ∧ isCtx 0 0 s.g = true ∧
    ctxOf s 0 0 = some s.g ∧ (s.g.mx.writes.find? (writeDue { s with arrays := [] } s.g)).isSome = true := by decide +kernel

/-- The cells of values of n bytes at rising addresses from a key on. -/
def cells (base : Nat) (l : List (Nat × Nat × Nat)) : List Host.Cell :=
  l.flatMap fun x => ((upto x.2.1).zip (bytesOfNat x.2.1 x.2.2)).filterMap fun e => if e.2 = 0 then none else some (base + x.1 + e.1, e.2)

/-- A context-table entry and three tables that map the first GiB to itself. -/
def tTables : List (Nat × Nat × Nat) := [(0, 8, 0x1001), (0x1000, 8, 0x7000000000020001), (0x2000, 8, 0x7000000000030001), (0x3000, 8, 0x6F)]

/-- The group of `tS` on memory of its own die, with key/value structures in the page at 0x20000, whose translation is held: a sequence
of one token in node 0 and block 0, the root, sixteen table entries, a tag, a splice and a repair descriptor, a ring of two. -/
def tK : State :=
  let s := setDevReg (setDevReg (setDevReg State.reset 0x140 0x8000000000000000) 0x141 0x7FE00000) 0x142 0xFE000101
  let s := setVfReg s 0 0x050 (0x8000000000020040)
  { s with
    ms := { s.ms with
      tlb := [⟨0, some 0, 0x1001, 0x20, 3, 0x6F⟩]
      mem := cells (2 ^ 62) (tTables ++ [
        (0x20000, 24, 2 ^ 32 + 2 ^ 40 + 2 ^ 64 + 0x20800 * 2 ^ 128),
        (0x20040, 48, 0x20100 + 4 * 2 ^ 64 + 2 * 2 ^ 96 + 0x20200 * 2 ^ 128 + 4 * 2 ^ 192 + 0x20900 * 2 ^ 256 + 0x20A00 * 2 ^ 320),
        (0x20100, 16, 2 ^ 48 + 2 ^ 80 + 2 ^ 82 + none32 * 2 ^ 96),
        (0x20110, 16, 2 ^ 48 + 2 ^ 80 + 2 ^ 82),
        (0x20120, 16, none32 * 2 ^ 96),
        (0x20130, 16, 2 ^ 48 + 2 ^ 64 + 2 ^ 80 + none32 * 2 ^ 96),
        (0x20200, 24, 2 ^ 32 + none32 * 2 ^ 96 + none32 * 2 ^ 128 + none32 * 2 ^ 160),
        (0x20D00, 40, 0x20000 + 2 ^ 64 + 2 ^ 96 + 2 ^ 128 + none32 * 2 ^ 160 + none32 * 2 ^ 192 + none32 * 2 ^ 224 + 2 ^ 256 + 2 * 2 ^ 288),
        (0x20D40, 48, 0x20000 + 2 ^ 96 + 0x20E00 * 2 ^ 192 + 0x30000 * 2 ^ 256 + 0x20E80 * 2 ^ 320),
        (0x20F80, 48, 2 + 2 ^ 128 * (5 + 2 ^ 64) + 2 ^ 256 * (6 + 2 ^ 64))]) }
    g := { tS.g with regs := [(1536, 0x20000), (1540, 1), (1541, 3), (1542, 0x20D00), (1544, 0x20D40), (1546, 0x20F80)] } }

/-- A computation for the group of `tK` gives a value and changes nothing. -/
def gives {α : Type} [DecidableEq α] (m : Kv α) (x : α) : Bool :=
  match m tK with
  | .ok r => decide (r.1 = x) && decide (r.2 = tK)
  | .error _ => false

def tA : Acc := accOf tK.g

theorem test_tk : (uniteActive tK == tK && (kvRd tA 0x20000 64 tK).isOk && gives (readRoot tA) ⟨0x20040, 0x20100, 16, 0x20200, 4, 0x20900, 0x20A00⟩) = true := by
  decide +kernel

def tRoot : KvRoot := ⟨0x20040, 0x20100, 16, 0x20200, 4, 0x20900, 0x20A00⟩

/-- A form of the group of `tK` passes what issue checks, and its operands leave the state as it is. -/
def kvReady (io : Io) (srcs : List (Nat × RegCode × Nat)) (ops : List Nat) : Bool :=
  ready tK .seq io srcs && !tK.g.unres && (ownLog tK).isEmpty && tK.g.pidx == 0 && tK.g.mode != .usr && migMode tK 0 != 2 &&
  match takeAll srcs (closed tK io.writes) with
  | .ok x => uniteActive x.2 == tK && (List.range ops.length).all fun i => (src tK x.1 i 0 0).toNat == ops.getD i 0
  | .error _ => false

/-- A load of `tK` at an address gives a value that meets a test, and changes nothing. -/
def kvReads (va n : Nat) (p : Nat → Bool) : Bool :=
  match vaPlain tK tA va n with
  | .ok r => p r.1 && r.2 == tK
  | .error _ => false

/-- A read of a structure of `tK` gives a value that meets a test, and changes nothing. -/
def kvLooks (va n : Nat) (p : Nat → Bool) : Bool :=
  match vaStruct tK tA va n with
  | .ok r => p r.1 && r.2 == tK
  | .error _ => false

/-- The root register names a root of sixteen entries. -/
def kvRootOk : Bool := bit (vfReg tK 0 0x050).toNat 63 && bits (vfReg tK 0 0x050).toNat 56 6 * 64 == 0x20040 &&
  kvLooks 0x20040 64 fun y => bits y 68 64 == 4 && bits y 95 69 == 0 && bits y 511 448 == 0 && bits y 56 0 == 0x20100 &&
    bits y 184 128 == 0x20200 && bits y 223 192 == 4 && bits y 312 256 == 0x20900

/-- KvWalks: position 0, which node 0 covers. -/
theorem wit_kv_walks :
    kvReady ⟨(if isK 50 then [] else [0x03]) ++ srcsBad [(0, 50, 1), (1, 48, 2)] ++ alignBad 50 2,
      srcCodes [(0, 50, 1), (1, 48, 2)], codes 50 2⟩ [(0, 50, 1), (1, 48, 2)] [0, 0x20000] = true ∧ kvRootOk = true ∧
    kvLooks 0x20000 64 (fun x => bits x 39 32 == 1 && bits x 47 40 == 1 && bits x 55 53 == 0 && bits x 63 56 == 0 &&
      bits x 95 64 == 1 && bits x 127 96 == 0 && bits x 184 128 == 0x20800 && bits x 511 185 == 0) = true ∧
    kvLooks 0x20200 64 (fun x => bits x 31 0 == 0 && bits x 38 32 == 1 && bits x 63 39 == 0 && nBlk x 0 == 0) = true ∧
    kvLooks 0x20100 16 (fun e => bit e 80) = true := by decide +kernel

/-- KvReads: an entry without a tag, one with tag 0, and a ring of two normal entries. -/
theorem wit_kv_reads :
    (∀ w ∈ [1, 2, 4], kvReady ⟨noAp tK ++ srcsBad [(1, 50, 1)] ++ alignBad 52 w, srcCodes [(1, 50, 1)], codes 52 w⟩
      [(1, 50, 1)] [0] = true ∧
     kvReady ⟨noAp tK ++ srcsBad [(1, 52, 1)] ++ alignBad 52 w, srcCodes [(1, 52, 1)], codes 52 w⟩ [(1, 52, 1)] [1] = true) ∧
    kvRootOk = true ∧ tK.ms.hist = [] ∧ tK.ms.undef = [] ∧ kvReads 0x20100 16 (fun e => bits e 127 96 == none32) = true ∧
    kvReads 0x20110 16 (fun e => bits e 127 96 == 0) = true ∧ kvReads 0x20900 16 (fun _ => true) = true ∧
    (match vaKeys tK tA .load 0x20100 16 with | .ok x => x.2 == tK | .error _ => false) = true ∧
    kvReady ⟨(if isK 52 then [] else [0x03]) ++ srcsBad [(0, 52, 2), (1, 58, 2)] ++ alignBad 52 4,
      srcCodes [(0, 52, 2), (1, 58, 2)], codes 52 4⟩ [(0, 52, 2), (1, 58, 2)] [1, 0x20F80] = true ∧
    kvReads 0x20F80 16 (· == 2) = true ∧ kvReads 0x20F90 16 (· == 5 + 2 ^ 64) = true ∧ kvReads 0x20FA0 16 (· == 6 + 2 ^ 64) = true ∧
    (let es := [5 + 2 ^ 64, 6 + 2 ^ 64]
     ringBad 2 es 1 = false ∧ ((List.range 2).filter fun i => ringKind (es.getD i 0) ≠ 1) = [0, 1]) := by decide +kernel

/-- A computation goes through in `tK`. -/
def runs {α : Type} (m : Kv α) (p : α → Bool) : Bool :=
  match m tK with
  | .ok r => p r.1
  | .error _ => false

/-- DeviceAccesses. -/
theorem wit_device_accesses : (match vaKeys tK tA .store 0x20100 16 with | .ok x => x.2 == tK | .error _ => false) = true ∧
    migMode tK 0 ≠ 2 ∧ tK.onAp = false ∧ (physKeys tK 0x20FF8 8).Nodup := by decide +kernel

/-- `tK` with -1 in k4. -/
def tMinus (b : Word) : State := { tK with g := { tK.g with regs := storeSet 0 (storeSet 0 tK.g.regs 1540 0xFFFFFFFF) 1541 b } }

/-- KvReferences: a reference added to block 1, the last one of block 0 taken away, that of the pinned block 3, and an append. -/
theorem wit_kv_references :
    kvReady ⟨noAp tK ++ srcsBad [(0, 52, 1), (1, 52, 1)] ++ alignBad 52 1, srcCodes [(0, 52, 1), (1, 52, 1)], codes 52 1⟩
      [(0, 52, 1), (1, 52, 1)] [1, 1] = true ∧ kvRootOk = true ∧
    runs (do let x ← kvHome tA 0x20110 16; kvRmw tA 0x20110 16 (x + 2 ^ 48); pure x)
      (fun x => bit x 80 && !bit x 90 && bits x 63 48 == 1) = true ∧
    ([(0 : Word), 3].all fun b => match takeAll [(0, 52, 1), (1, 53, 1)] (closed (tMinus b) (codes 52 1)) with
      | .ok x => (src (tMinus b) x.1 0 0 0).toInt == -1 && src (tMinus b) x.1 1 0 0 == b && uniteActive x.2 == tMinus b
      | .error _ => false) = true ∧
    runs (do
      let x ← kvHome tA 0x20100 16
      let f ← kvHome tA 0x2004C 4
      kvRmw tA 0x20100 16 ((x - 2 ^ 48 - 2 ^ 80) % 2 ^ 96 + f * 2 ^ 96)
      kvRmw tA 0x2004C 4 0
      pure x) (fun x => bits x 63 48 == 1 && bits x 71 64 == 0) = true ∧
    runs (do
      let x ← kvHome tA 0x20130 16
      kvRmw tA 0x20130 16 (x - 2 ^ 48 + 2 ^ 90)
      let k ← kvHome tA 0x2005C 4
      kvRmw tA 0x2005C 4 (min (k + 1) 0xFFFFFFFF)
      pure x) (fun x => bits x 63 48 == 1 && bits x 71 64 == 1) = true ∧
    kvReady ⟨noAp tK ++ srcsBad [(1, 48, 2)] ++ alignBad 52 4, srcCodes [(1, 48, 2)], codes 52 4⟩ [(1, 48, 2)] [0x20000] = true ∧
    runs (append tA 0x20000) (fun r => r == (0x20A00, 1, 0)) = true ∧
    runs (do let d ← readSeq tA 0x20000; let r ← readRoot tA; leafOf tA r d) (fun r => r.1 == 0 && r.2.2 == 1 && !bit r.2.1 46) = true ∧
    kvReads 0x20100 16 (fun e => bit e 80 && bits e 63 48 == 1) = true := by decide +kernel

/-- KvLoads, and BlockTests of an entry that is read, one that a repair is at, one that failed. -/
theorem wit_kv_loads :
    kvReady ⟨coreOnly tK ++ vBad 8 1 ++ kBad 48 4, codes 48 4, codes 8 1⟩ [(1, 48, 4)] [0x20000] = true ∧ active tK ≠ 0 ∧
    tK.g.akv.toNat % 4 = 0 ∧
    (match openBlock tA 0x20000 0 0 0 0 tK with
      | .ok x => x.1 == (0x20A00, 64, false) && passes x.2 ⟨false, 4, .load, false, none⟩ [⟨0, 0x20A00⟩]
      | .error _ => false) = true := by decide +kernel

/-- KvSplices: a splice of block 1 at the end of the sequence from its first step, and a progress point beyond the last. -/
theorem wit_kv_splices :
    kvReady ⟨noAp tK ++ kBad 54 2, codes 54 2, codes 52 1⟩ [(1, 54, 2)] [0x20D00] = true ∧
    (match spliceSteps tA 0x20D00 0 tK with
      | .ok x => x.1.2.1.length == 4 && match runSteps x.1.2.1 0 0 x.2 with
        | (none, e) => (vaRmw e tA 0x20008 4 (1 + x.1.1)).isOk
        | _ => false
      | .error _ => false) = true ∧
    (match spliceSteps tA 0x20D00 9 tK with | .ok x => x.1.2.1.length == 4 | .error _ => false) = true := by decide +kernel

/-- A repair of `tK` at its last layer, which has picked nothing. -/
def tRepair : Repair := ⟨7, 0, 0, .mch, 0, 0, 0x20000, 0x20D40, 0, 0, 1, 0x30000, 0x20E80, 0, 0x20100, 1, [], [], .layers, 1, 0x20F00, false, []⟩

/-- `tK` with that repair, on a core that VF 0 holds. -/
def tRep : State := { tK with en := { tK.en with repairs := [tRepair] }, qt := { tK.qt with rows := [⟨0, [0x80]⟩] } }

/-- KvRepairs: one token measured (its deviation is 0, so it is not selected), the end of a layer, and a repair abandoned. -/
theorem wit_kv_repairs :
    kvReady ⟨noAp tK ++ kBad 56 2, codes 56 2, codes 52 1⟩ [(1, 56, 2)] [0x20D40] = true ∧ tK.en.repairs = [] ∧
    (match readRepair tA 0x20D40 tK, readSeq tA 0x20000 tK with
      | .ok q, .ok d => q.2 == tK && d.2 == tK && q.1.seq == 0x20000 && decide (q.1.cp < d.1.layers) &&
          match repairChecks tA tRoot d.1 q.1 tK with
          | .ok x => (match selectedOf tA q.1 0 x.2 with | .ok y => y.1 == [] && y.2 == x.2 | .error _ => false) &&
              match runSteps (repairSteps tA tRoot d.1 q.1) 0 0 { x.2 with fresh := x.2.fresh + 1 } with
              | (none, e1) => (match selectedOf tA q.1 q.1.n e1 with
                | .ok l => l.1 == [] && l.2 == e1 && (match markedBlocks tA tRoot d.1 q.1 l.1 e1 with
                  | .ok b => b.1 == [] && (annealGo b.2 { tRepair with stage := .measure, num := 1 }).isOk
                  | .error _ => false)
                | .error _ => false)
              | _ => false
          | .error _ => false
      | _, _ => false) = true ∧
      tRep.en.repairs.find? (fun x => x.num = 7 ∧ x.stage = .layers) = some tRepair ∧
      coreVf tRep 0 = some 0 ∧
      (match vaKeys tRep tRepair.acc .load tRepair.joinAt 4 with
        | .ok k => k.1.length == 4 && homeNat tRep k.1 == 0 &&
          match runAs tRep tRepair.acc (gained (enter tRep tRepair.acc []) (k.1.headD 0)) (kvEach (fun b => do
            let x ← kvHome tRepair.acc (tRepair.tbl + 16 * b) 16
            kvRmw tRepair.acc (tRepair.tbl + 16 * b) 16 (setBits x 79 72 (tRepair.layer + 1))) tRepair.blocks) with
          | .ok x => (annealGo (stepMade x.2.2) { tRepair with layer := 2, ids := x.2.1 }).isOk
          | .error _ => false
        | .error _ => false) = true := by decide +kernel

/-- `tS` as a group of origin SPAWN with values in the vault of its die, k2 = `a` and k4 = `x`. -/
def tV (l : List (Nat × Nat × Nat)) (a x : Word) : State :=
  { tS with
    ms := { tS.ms with mem := cells (vaultKey 0 0) l ++ tS.ms.mem }
    g := { tS.g with who := { tS.g.who with origin := .spawn }, regs := [(1536, 0x20000), (1538, a), (1540, x)] } }

/-- A queue of two slots of 8 bytes for one producer, whose allowance and occupancy are given. -/
def tQ (allow occ : Nat) : State := tV [(0x400, 10, 4 + 2 ^ 17 + 2 ^ 32 * (2 ^ 16 * occ) + 2 ^ 64 * allow)] 0x400 0x600

/-- A wait of the group of `s`, with its issue. -/
def waiting (s : State) (w : Wait) : State := { s with g := { s.g with s0 := { s.g.s0 with wait := w } } }

/-- That wait can be brought to issue, and the windows of its form close. -/
theorem wit_waiting (s : State) (w : Wait) (nas : Nas) (io : Io) (srcs : List (Nat × RegCode × Nat)) (h : isCtx 0 0 s.g = true)
    (v : s.g.s0.valid = true) (o : s.onAp = false) (i : s.g.iss = false) (r : ready (waiting s w) nas { io with bad := [] } srcs = true) :
    Claims.Waiting (waiting s w) (closed (waiting s w) io.writes) 0 0 false w nas io := by
  have e : waiting s w = { waiting s w with onAp := s.onAp, g := { (waiting s w).g with iss := s.g.iss } } := rfl
  obtain ⟨-, -, -, -, c, -⟩ := ready_spec r
  refine ⟨waiting s w, waiting s w, ?_, by rw [o, i] at e; exact e, by simp [curSlot, waiting, i, v], by simp [curSlot, waiting, i], rfl, c⟩
  have k : isCtx 0 0 (waiting s w).g = true := h
  simp [bring, k]

/-- What QueueOk asks of the queue of `tQ`, as a test. -/
def queueOk (t : State) (f : FmtE) (push : Bool) : Bool :=
  let q := qHead t 0 0x400
  !sizeChanged t (vaultKey 0 0x400) q.size t.g.iss && !lostPermit t (vaultKey 0 0x400) false &&
    !qDataBad f q && !scopeRefused t (f.c &&& 7).toNat && !q.bad t && t.ms.hist.isEmpty && t.ms.undef.isEmpty &&
    (winsOf t).isEmpty && !(vfReg t 0 0x030).getLsbD 1 && decide (bits q.w 24 16 ≤ q.ns + 1) && !t.g.unres && (ownLog t).isEmpty &&
    !t.g.who.recClass && t.g.who.origin == .spawn && t.g.who.loc.die == 0 && (!push || decide (0 ≤ bits q.w 12 10)) &&
    (match qAddr ⟨push, false⟩ f t with | .ok a => a == 0x400 | .error _ => false)

/-- QueueForms: a push and a pop that act, in registers and in memory, and that find the queue full or empty; and a waiter of each. -/
theorem wit_queues : ([(tQ 1 1, false), (tQ 0 2, true)].all fun x => [(tQ 1 1, false), (tQ 2 0, true)].all fun y =>
    [(2 : BitVec 5), 18].all fun c =>
    let f : FmtE := ⟨.seq, 52, 50, 0, c⟩
    ready x.1 .seq (queueIo ⟨true, false⟩ f x.1) [(1, 50, 1)] && ready y.1 .seq (queueIo ⟨false, true⟩ f y.1) [(1, 50, 1)] &&
    ready (waiting x.1 (.queue true f)) .seq (queueIo ⟨true, false⟩ f x.1) [(1, 50, 1)] &&
    (takeAll [(0, 52, qRegs f (qHead x.1 0 0x400)), (1, 50, 1)] x.1).isOk &&
    (takeAll [(0, 52, if c.getLsbD 4 then 1 else 0), (1, 50, 1)] y.1).isOk && queueOk x.1 f true && queueOk y.1 f false &&
    (qBlocked x.1 (qHead x.1 0 0x400) true 0 || qBehind x.1 (vaultKey 0 0x400) true false) == x.2 &&
    (qBlocked y.1 (qHead y.1 0 0x400) false 0 || qBehind y.1 (vaultKey 0 0x400) false false) == y.2 &&
    !qWaits y.1 (vaultKey 0 0x400) false && isCtx 0 0 x.1.g && x.1.g.s0.valid && !x.1.onAp && !x.1.g.iss) = true := by decide +kernel

/-- TeamBarriers: an arrival that is the last and one that is not, waits whose phase has flipped and has not, and one that was stopped. -/
theorem wit_barriers : ([1, 2].all fun left => [(0 : Word), 1, 2].all fun pidx =>
    let s0 := tV [(0x500, 4, Claims.barrierWord 2 left 0)] 0x500 0
    let s : State := { s0 with g := { s0.g with pidx := pidx } }
    let t := waiting s (.barrier ⟨.seq, 0, 50, 0, 0⟩ (vaultKey 0 0x500) true)
    ready s .seq ⟨coreOnly s ++ kBad 50 1, codes 50 1, []⟩ [(1, 50, 1)] && ready t .seq ⟨[], [], []⟩ [] &&
    vaultNat s 0 0x500 4 == Claims.barrierWord 2 left 0 && !lostPermit s (vaultKey 0 0x500) true && !s.g.who.recClass &&
    s.g.who.origin == .spawn && !barWordBad (Claims.barrierWord 2 left 0) && !s.g.unres && (ownLog s).isEmpty &&
    !bit (stepNat t ((List.range 4).map (vaultKey 0 0x500 + ·))) 10 && !(vfReg s 0 0x030).getLsbD 1 && (winsOf s).isEmpty) = true := by
  decide +kernel

/-- ByteBarriers and EventWords: an object in the vault and one in global memory, whose bits are 0, or whose phase is 1. -/
theorem wit_objects : ∀ x ∈ [(tV [] 0x400 1, (9 : BitVec 5), (50 : RegCode)), (tV [] 0x400 0, 9, 50), (tV [(0x400, 16, 2 ^ 65 + 1)] 0x400 1, 11, 50),
      (tV [(0x400, 16, 2 ^ 65)] 0x400 0, 11, 50), (tV [] 0 1, 8, 48), (tV [] 0 0, 8, 48)],
    let f : FmtE := ⟨.seq, 52, x.2.2, 0, x.2.1⟩
    let at_ := if x.2.1.getLsbD 0 then 0x400 else 0x20000
    ready x.1 .seq ⟨noAp x.1 ++ objBad x.1 f ++ kBad 52 1, codes 52 1 ++ codes x.2.2 (objWidth f), codes 52 1⟩
      [(0, 52, 1), (1, x.2.2, objWidth f)] = true ∧
    ready x.1 .seq ⟨noAp x.1 ++ objBad x.1 f ++ kBad 52 2, codes 52 2 ++ codes x.2.2 (objWidth f), codes 52 1⟩
      [(0, 52, 2), (1, x.2.2, objWidth f)] = true ∧
    ready (waiting x.1 (.flip f none 0)) .seq { waitIo f with bad := [] } [(0, 52, 1), (1, x.2.2, objWidth f)] = true ∧
    ready (waiting x.1 (.event f (some 0))) .seq { waitIo f with bad := [] } [(0, 52, 1), (1, x.2.2, objWidth f)] = true ∧
    passes (closed x.1 []) (Claims.objectOp f 32) [⟨0, at_⟩] = true ∧ passes (closed x.1 []) (Claims.objectOp f 4) [⟨0, at_⟩] = true ∧
    x.1.en.cmds = [] ∧ x.1.acnt = 0 ∧ x.1.g.unres = false ∧ ownLog x.1 = [] ∧ isCtx 0 0 x.1.g = true ∧ x.1.g.s0.valid = true ∧
    (byteBarBad x.1 ((upto 32).map (vaultKey 0 0x400 + ·)) = false) ∧ (byteBar x.1 ((upto 32).map (vaultKey 0 0x400 + ·))).armed = false ∧
    ((byteBar x.1 ((upto 32).map (vaultKey 0 0x400 + ·))).phase = (x.2.1 == 11)) := by
  decide +kernel

/-- The group of `tK` with descriptors of a copy, a gather and a collective, two join blocks, a gang of one team, a collective
group of the package alone, and a record queue with `tail` of its 16 places written. -/
def tC (tail : Nat) (regs : Store Word) : State :=
  { setVfReg (setVfReg (setVfReg tK 0 0x10B 0x21000) 0 0x100 0x8000000000021100) 0 0x107 0x10000 with
    ms := { tK.ms with mem := cells (2 ^ 62) (tTables ++ [
      (0x20000, 36, 64 * 2 ^ 192 + none32 * 2 ^ 256),
      (0x20040, 40, 2 ^ 256 + 2 ^ 289),
      (0x20080, 36, 4 * 2 ^ 192),
      (0x200C0, 8, 2), (0x20100, 8, 1),
      (0x20200, 4, 1), (0x20220, 20, 2 ^ 128),
      (0x21000, 9, 1 + 0x7F * 2 ^ 64),
      (0x21100, 20, 0x22000 + 4 * 2 ^ 64 + tail * 2 ^ 128)]) }
    qt := { tK.qt with rows := [⟨0, [0x80]⟩] }
    g := { tK.g with regs := regs, who := { tK.g.who with origin := .spawn } } }

/-- A form of a group passes what issue checks, its operands are these, and they leave the state as it is. -/
def takes (s : State) (io : Io) (srcs : List (Nat × RegCode × Nat)) (ops : List Nat) : Bool :=
  ready s .seq io srcs && !s.g.unres && (ownLog s).isEmpty && !s.onAp && s.g.pidx == 0 && migMode s 0 != 2 &&
  match takeAll srcs (closed s io.writes) with
  | .ok x => uniteActive x.2 == s && (List.range ops.length).all fun i => (src s x.1 i 0 0).toNat == ops.getD i 0
  | .error _ => false

/-- EngineStarts: every form on a descriptor that it does not refuse. -/
theorem wit_engines :
    let s := tC 0 [(1536, 0x20000), (1538, 0x20040), (1540, 0x20080)]
    ([(48, 0x20000, Claims.commands.take 2), (50, 0x20040, (Claims.commands.drop 2).take 4), (52, 0x20080, Claims.commands.drop 6)].all
      fun (x : RegCode × Nat × List Claims.CmdRow) =>
        takes s ⟨noAp s ++ kBad x.1 2, codes x.1 2, []⟩ [(1, x.1, 2)] [x.2.1] && !scopeRefused s 2 &&
        match vaPlain s tA x.2.1 64 with
        | .ok r => r.2 == s && x.2.2.all fun y => !y.refused s 0 r.1 && decide (0 < y.chunks s 0 r.1) && bits r.1 191 128 == 0 &&
            !y.bv r.1 && !y.vault r.1 && y.pin r.1 == none && s.en.cmds.isEmpty
        | .error _ => false) = true := by decide +kernel

/-- A fill of two chunks into the page of `tC`, and a collective that waits for a chunk. -/
def tCmd (todo : List Nat) (kind : CmdKind) : Cmd :=
  ⟨5, 0, 0, 0, .mch, 0, kind, 7 + 0x20400 * 2 ^ 64 + 128 * 2 ^ 192 + none32 * 2 ^ 256, none, false, 2, 2, todo, none, none, false, []⟩

/-- EngineChunks: a chunk that is not the last, the last one, and a mismatch. -/
theorem wit_chunks :
    (let s := tC 0 []
     let c := tCmd [0, 1] .fill
     (match runAs s c.acc c.ids (chunkBody c 0 []) with | .ok x => x.1 == none | .error _ => false) &&
     match chunkWrites c 0 [] s with
     | .ok x => (match barKeys x.2 c.acc c.die (bits c.desc 191 128) c.barVault with
         | .ok k => k.1 == [] && (kvMap (engWrite c) x.1 k.2).isOk
         | .error _ => false)
     | .error _ => false) = true ∧ (tCmd [0, 1] .fill).todo.filter (· ≠ 0) ≠ [] ∧ (tCmd [0] .fill).todo.filter (· ≠ 0) = [] ∧
    (tCmd [0] .fill).chunks ≤ (tCmd [0] .fill).accepted ∧ (tCmd [0] .fill).pin = none ∧
    isColl (tCmd [0] .allReduce) = true ∧ (tCmd [0] .allReduce).todo ≠ [] := by decide +kernel

/-- GroupSpawn: with room, without an identifier, and in a team of sixteen. -/
theorem wit_spawn :
    let s := tC 0 []
    let who : Who := { s.g.who with team := some 0 }
    let full : State := { s with g := { s.g with who := who }, others := List.replicate 15 { s.g with who := who } }
    takes s ⟨coreOnly s ++ kBad 52 1 ++ [] ++ kBad 56 2, codes 8 8 ++ codes 56 2, codes 52 1⟩ [(1, 8, 8), (2, 56, 2)] [0, 0] = true ∧
    bestPart s 0 = some 1 ∧ freeIdent s 0 = some 1 ∧ s.g.who.team = none ∧ freeIdent tK 0 = none ∧
    16 ≤ ((allCtx full).filter fun c => c.who.vf = full.g.who.vf ∧ c.who.teamId = full.g.who.teamId).length ∧
    (takeAll [(1, 8, 8), (2, 56, 2)] full).isOk = true := by decide +kernel

/-- GroupServices: selectors into k4 and into v8, an access processor attached, kept, and not free, a batch that ends and one
with work left. -/
theorem wit_services :
    let s := tC 0 []
    let busy : State := { s with g := { s.g with mx := { s.g.mx with batch := 1, writes := [⟨0, 5, 0, true, []⟩] } } }
    let both : State := { s with others := [{ tAp.g with who := { tAp.g.who with ident := 3 } },
      { tAp.g with who := { tAp.g.who with ident := 4 }, ap := some ⟨1, 0x20000, [], noCtx.seq, .running, List.replicate 4 [], [], [], []⟩ }] }
    (∀ n < 8, (Instr.gid ⟨.seq, 52, 0, BitVec.ofNat _ n⟩).wellFormed = true) ∧
    ready tFull .seq ⟨[], [], codes 62 1⟩ [] = true ∧ ready tAp .seq ⟨[], [], codes 62 1⟩ [] = true ∧
    ready s .seq ⟨[], [], codes 52 1⟩ [] = true ∧ ready s .seq ⟨[], [], codes 8 1⟩ [] = true ∧ ready s .seq ⟨noAp s, [], []⟩ [] = true ∧
    takes s ⟨coreOnly s ++ kBad 52 1 ++ kBad 56 2, codes 56 2, codes 52 1⟩ [(1, 56, 2)] [0] = true ∧ s.g.ap = none ∧ tAp.g.ap ≠ none ∧
    ((usedCtx both 0 0).filterMap (·.ap)).map (·.num) = [0, 1] ∧
    ready s .seq ⟨coreOnly s ++ kBad 52 1, [], codes 52 1⟩ [] = true ∧
    takes busy ⟨coreOnly s ++ kBad 56 1, codes 56 1, []⟩ [(1, 56, 1)] [0] = true ∧ matrixBusy busy busy.g (some 0) = true ∧
    matrixBusy { busy with g := s.g } s.g (some 0) = false := by decide +kernel

/-- RecordPushes: a record and a gang request, into a queue with room and a full one, and a record for a node that is not there. -/
theorem wit_pushes : ([0, 16].all fun tail =>
    let s := tC tail [(1540, 0x20200)]
    let data := 2 ^ 64 * 0x20200 + 2 ^ 192 * 8
    takes s ⟨noAp s ++ kBad 50 1 ++ kBad 56 8 ++ [], codes 56 8, codes 50 1⟩ [(1, 56, 8)] [0] &&
    takes s ⟨noAp s ++ kBad 50 1 ++ kBad 52 2 ++ kBad 56 2, codes 52 2 ++ codes 56 2, codes 50 1⟩ [(1, 52, 2), (2, 56, 2)] [0x20200, 0] &&
    [0, data].all fun d =>
      (match pushCheck s 0 d with | .ok x => x.1 == none | .error _ => false) && queueOf s 0 0 d == some 0x21100 &&
      !qReserved s 0x21100 && qFull s 0x21100 == (tail == 16)) = true ∧
    (let node := 2 ^ 192 * 240
     queueOf (tC 0 []) 0 0 node = none ∧ (match pushCheck (tC 0 []) 0 node with | .ok x => x.1 == none | .error _ => false) = true) := by
  decide +kernel

/-- Joins: blocks with COUNT 2, 1 and 0; the latter's continuation goes into the queue. -/
theorem wit_joins :
    let s := tC 0 [(1540, 0x200C0)]
    takes s ⟨noAp s ++ kBad 52 2 ++ kBad 56 1, codes 52 2 ++ codes 56 1, []⟩ [(1, 52, 2), (2, 56, 1)] [0x200C0, 0] = true ∧
    ([(0x200C0, 2), (0x20100, 1), (0x20140, 0)].all fun x => match vaKeys s tA .store x.1 8 with
      | .ok k => k.2 == s && homeNat s (k.1.take 4) == x.2
      | .error _ => false) = true ∧ s.en.repairs = [] ∧ StateInv s ∧
    (match vaHome s tA .load 0x20120 32 with
      | .ok x => x.2 == s && (enqueueAs s tA 0 x.1 0 []).1 == []
      | .error _ => false) = true := by
  dsimp only [StateInv]
  decide +kernel

/-- The machine with a word placed, and what to do next. -/
def tP (w : Nat) (agenda : List Act) : State := { placed State.reset w with agenda := agenda }

/-- What a plan fetches, as a test. -/
noncomputable def fetches (s : State) (p : Option (Nat × DWord) → Except Reject Instr → Bool) : Bool :=
  match plan s with
  | .issue t => p (fetchCause t) (decode (fetchWord t).1)
  | .redo t pc m => p (fetchCause (redoStart t pc m)) (decode (fetchWord (redoStart t pc m)).1)
  | .slice t _ => p (fetchCause t) (decode (fetchWord t).1)
  | _ => false

/-- StepRunsDecoded: an instruction, a word that is none, a misaligned pc, an access to issue again, an access processor, an
event of the agenda. -/
theorem wit_steps :
    let s := tP 0x8DE00042 [.issue 0 0 false]
    let gtrap (c : Option (Nat × DWord)) (d : Except Reject Instr) : Bool :=
      c.isNone && match d with | .ok (.gtrap f) => f.imm == 0x42 | _ => false
    fetches s gtrap = true ∧ fetches (tP 0x09E00000 [.issue 0 0 false]) (fun c d => c.isNone && !d.isOk) = true ∧
    fetches { s with g := { s.g with s0 := { s.g.s0 with pc := 0x10001 } } } (fun c _ => c.isSome) = true ∧
    fetches { s with g := { s.g with redo := some (0x10000, 1) } } gtrap = true ∧
    fetches { s with agenda := [.issueAp 0 0], g := { s.g with ap := some ⟨0, 0x10000, [], emptySeq, .running, [], [], [], []⟩ } } gtrap = true ∧
    (match translate s (accOf s.g) .fetch (curPc s).toNat with | .ok p => p.pa % 4096 == 0 | _ => false) = true ∧
    (curPc s).toNat % 256 ≤ 252 ∧ encode (.sleepEnd 0 0 false) = none ∧ fetchEvent (.sleepEnd 0 0 false) = false ∧
    isCtx 0 0 s.g = true ∧ mayAct s s.g = true ∧ dueTrap s.g = none ∧ s.g.redo = none ∧ slotFor s.g false = some false ∧
    (let due : State := { s with agenda := [], round := [(0, 0, false)], g := { s.g with pend := some ⟨0x41, 0, 1, 0, 0⟩ } }
     stillActs due (0, 0, false) = true ∧ (dueTrap due.g).isSome = true) ∧
    s.g.ap = none ∧ s.others = [] ∧ stillActs { s with agenda := [], round := [(0, 0, false)] } (0, 0, false) = true ∧
    (let halted : State := { s with agenda := [], mg := { s.mg with cores := [0] } }
     halted.round = [] ∧ allCtx halted = [s.g] ∧ mayAct halted s.g = false) := by
  decide +kernel

/-- The group of `tS` with sequencing state and mask 7. -/
def tN (q : Seq) (m7 : Word) : State := { tS with g := { tS.g with seq := q, s0 := ⟨true, 0x10000, 3, .none⟩, regs := [(mKey 7, m7)] } }

/-- SelectorsSequence: a loop that goes on and one that ends, a full and an empty target queue, every, no and one lane of two; a spilled
return address; and a split beside a path at the target, at PC + 4, and where each of the three pcs is the highest. -/
theorem wit_selectors :
    let q : Seq := ⟨[0x20000, 0, 0, 0], 1, [(0x10000, 1), (0, 0), (0, 0), (0, 0)], 1, [0x30000, 0, 0, 0, 0, 0, 0, 0], 1, 0⟩
    ([q, { q with loops := setAt q.loops 0 (0x10000, 0) }, { q with tqn := 0, lsn := 0, csn := 0 }, { q with css := 1 },
        { q with csn := 0, css := 1 }, { q with csn := 8, css := 512 }].all fun q => [(3 : Word), 0, 1].all fun m =>
      let s := tN q m
      !s.onAp && (curSlot s.g).valid && !(otherSlot s.g).valid && depthOf (activeDs s.g) == 0 && seqOf s == q && active s == 3 &&
        (curSlot s.g).mask == 3 && selectorMask s &&& 3 == m && (groupLoad s 0x09 (callAreaAt s.g 0) 8).isOk) = true ∧
    ([((0x20000 : Addr), (0x20000 : Addr)), (0x10004, 0x20000), (0x10800, 0x20000), (0x30000, 0x20000), (0x9000, 0x8000), (0x9000, 0x10004)].map
      fun x =>
        let s := tN { q with tq := [x.2, 0, 0, 0] } 1
        let s : State := { s with g := { s.g with s1 := ⟨true, x.1, 4, .none⟩ } }
        let next := curPc s + 4
        [x.2 == next, x.2 != next && x.1 == x.2, x.2 != next && x.1 == next,
          decide (next.toNat < x.2.toNat) && decide (x.1.toNat < x.2.toNat) && x.1 != next,
          decide (next.toNat < x.1.toNat) && decide (x.2.toNat < x.1.toNat) && x.2 != next,
          decide (x.2.toNat < next.toNat) && decide (x.1.toNat < next.toNat) && x.1 != x.2].idxOf true) = [1, 2, 3, 4, 5, 0] ∧
    (match Claims.pushed (tN q 1) 0x30000 4 with | .ok u => depthOf (activeDs u.g) == 1 && u.g.top == some (0x30000, 4) | .error _ => false) = true ∧
    (tAp.g.ap.map fun a => a.seq.tqn) = some 0 := by decide +kernel

/-- CompletionCounts: a group, an access processor, a state with ports off, and a port with an entry and without. -/
theorem wit_completion :
    let a : Ap := ⟨0, 0x10000, [], emptySeq, .running, [[⟨7, [], []⟩], [], [], []], [], [], []⟩
    let s : State := { tS with g := { tS.g with ap := some a } }
    tS.onAp = false ∧ tAp.onAp = true ∧ portsOn tS = false ∧ tS.g.wins = [] ∧ portsOn s = true ∧ (a.aq.getD 0 []).length = 1 ∧
      a.aq.getD 1 [] = [] := by decide +kernel

/-- The group of `tS` in a mode, in a handler or not. -/
def tH (mode : Mode) (h : Bool) : State :=
  { tS with g := { tS.g with mode := mode, trap := { tS.g.trap with tcause := if h then 0x4000 else 0, tepc0 := 0x8000000000010000, tmsk0 := 1 } } }

/-- TrapEntry: outside a handler and inside one. -/
theorem wit_trap_entry : hmode (tH .usr false).g = false ∧ (tH .usr false).g.wins = [] ∧ (tH .usr false).g.s0.wait = .none ∧
    (tH .usr false).g.s1.wait = .none ∧ hmode (tH .sup true).g = true := by decide +kernel

/-- A load at `tS` whose window awaits its result, with or without lanes that have none. -/
def tWin (gone : Mask) : State := { tS with g := { tS.g with wins := [⟨3, 0x10000, [8], [(256, 0)], gone, 0, [], false, 1, 0⟩] } }

/-- TrapForms: gtrap with the last and the first codes beyond its range, calls, forms in too low a mode, a failed fetch, a pending trap,
a result that returns whole and one that does not. -/
theorem wit_trap_forms :
    let s := tH .usr false
    ready s .seq ⟨noAp s ++ [], [], []⟩ [] = true ∧ (applyNas (selectorMask s) s .seq).isOk = true ∧ s.g.live = true ∧ s.onAp = false ∧
    kBad 48 2 ++ kBad 50 1 = [] ∧ kBad 52 1 ++ kBad 48 2 = [] ∧
    (fetchCause { s with g := { s.g with s0 := { s.g.s0 with pc := 0x10001 } } }).isSome = true ∧
    (dueTrap { s.g with pend := some ⟨0x41, 0, 1, 0, 0⟩ }).isSome = true ∧ isCtx 0 0 s.g = true ∧
    (tWin 0).g.wins.length = 1 ∧ (tWin 1).g.wins.length = 1 ∧ (bring (tWin 0) 0 0).isSome = true ∧
    (let slice : State := { tAp with g := { tAp.g with ap := tAp.g.ap.map fun a => { a with wins := (tWin 0).g.wins } } }
     (bring slice 0 0).map (fun b => (b.g.wins, b.g.ap.map (·.wins))) = some ([], some (tWin 0).g.wins)) := by decide +kernel

/-- TrapReturns: a handler of one path and of two, a fence that waits and one that does not, and each cause that it delivers. -/
theorem wit_trap_returns :
    let s := tH .sup true
    let two : State := { s with g := { s.g with s1 := ⟨true, 0x10010, 2, .none⟩ } }
    let cmd : Cmd := { tCmd [0] .fill with fault := some (0x21, 0) }
    ready s .seq ⟨noAp s, [], []⟩ [] = true ∧ (otherSlot s.g).valid = false ∧ depthOf s.g.dsh = 0 ∧ (otherSlot two.g).valid = true ∧
    (settled (endPath two)).isOk = true ∧
    (settled { s with g := { s.g with mode := .usr, s0 := ⟨true, 0x10000, 1, .none⟩, top := none } }).isOk = true ∧
    matrixBusy s s.g none = false ∧ ownLog s = [] ∧ s.en.cmds = [] ∧ matrixBusy (tM 1 0) (tM 1 0).g none = true ∧ (applyNas (selectorMask s) s .seq).isOk = true ∧
    apFault s.g = none ∧ s.g.unres = false ∧ s.g.flags = 0 ∧
    (faultedCmd { s with en := { s.en with cmds := [cmd] } } none) = some cmd ∧
    apFault { tAp.g with ap := tAp.g.ap.map fun a => { a with run := .faulted 0x21 0 false } } = some (0x21, 0) := by decide +kernel

/-- SystemRegisters: narrow and wide registers in modes that may reach them; one that USR may not. -/
theorem wit_system_registers :
    (([((0x000 : BitVec 21), Mode.usr), (0x000, .sup), (0x008, .sup), (0x008, .hyp), (0x101, .hyp), (0x1CF, .mch)].all fun (n, m) =>
      let s := tH m false
      let w := if regWide n.toNat then 2 else 1
      ready s .seq ⟨noAp s ++ alignBad 52 w, [], codes 52 w⟩ [] && ready s .seq ⟨noAp s ++ kBad 50 w, codes 50 w, []⟩ [(1, 50, w)] &&
        ready s .seq ⟨noAp s ++ kBad 52 w ++ kBad 50 w, codes 50 w, codes 52 w⟩ [(1, 50, w)] && (applyNas (selectorMask s) s .seq).isOk &&
        regCause s.g.mode n.toNat false == none && regCause s.g.mode n.toNat true == none &&
        !(writeSys s n.toNat 5).onAp) = true) ∧
    regCause .usr 0x04C false = some 0x0C ∧ regCause .usr 0x04C true = some 0x0C ∧ alignBad 52 2 = [] ∧ kBad 52 2 = [] ∧
    isVfReg 0x0F0 = false := by decide +kernel

/-- A sleep, a deadline and an invalidation of the group of `tS`. -/
def tI : State := { tS with en := { tS.en with invals := [⟨9, 0, 1, 0, 0, 12, 0⟩] } }

/-- TimeForms: at once and with a wait; kinds 0 and 3 of an invalidation; one that is outstanding. -/
theorem wit_time_forms :
    let s := tH .sup false
    ready s .seq ⟨alignBad 52 2, [], codes 52 2⟩ [] = true ∧ ready s .seq ⟨noAp s ++ kBad 50 1, codes 50 1, []⟩ [(1, 50, 1)] = true ∧
    isCtx 0 0 s.g = true ∧ s.acnt = 0 ∧ s.tnow = 0 ∧ (takeAll [(1, 50, 1)] s).isOk = true ∧
    ready s .seq ⟨noAp s ++ kBad 52 1 ++ kBad 54 2, codes 54 2, codes 52 1⟩ [(1, 54, 2)] = true ∧
    (takes s ⟨noAp s ++ kBad 48 2 ++ kBad 50 1, codes 48 2 ++ codes 50 1, []⟩ [(1, 48, 2), (2, 50, 1)] [0x20000, 16]) = true ∧
    ready s .seq ⟨noAp s ++ kBad 52 1, [], codes 52 1⟩ [] = true ∧ s.en.invals = [] ∧
    tI.en.invals.find? (fun x => x.num = 9) = some ⟨9, 0, 1, 0, 0, 12, 0⟩ ∧ tI.ms.dirty = [] ∧ winsOf s = [] ∧
    (let stuck : State := { s with ms := { s.ms with log := [⟨0, 0, 0, 0x20010, List.replicate 16 7, 1, .plain, 7, 0, 0, 1, [], [], .mch, true⟩] } }
     logStuck stuck = true ∧ ownLog stuck ≠ []) := by decide +kernel

/-- `tC` with a second context, and an area at its page whose header is that of a saved group. -/
def tX : State := 
  let s := tC 0 [(1536, 0x40000), (1540, 5)]
  { s with
    ms := { s.ms with mem := cells (2 ^ 62) (tTables ++ [(0x40000, 4, 1)]), tlb := (upto 3).map fun i => ⟨0, some 0, 0x1001, 0x40 + i, 3, 0x6F⟩ }
    others := [{ s.g with who := { s.g.who with ident := 5, loc := ⟨0, 0, 0, 1, 0⟩ } }] }

/-- ContextForms: a group that saves itself, a target that is there and one that is not, an area that loads, a core that halts. -/
theorem wit_context_forms :
    let s := tX
    takes s ⟨noAp s ++ kBad 52 1 ++ kBad 48 2, codes 52 1 ++ codes 48 2, codes 52 1⟩ [(0, 52, 1), (1, 48, 2)] [5, 0x40000] = true ∧
    takes s ⟨noAp s ++ kBad 52 1 ++ kBad 48 2, codes 48 2, []⟩ [(1, 48, 2)] [0x40000] = true ∧
    takes s ⟨noAp s ++ kBad 52 1 ++ kBad 48 2, codes 48 2, codes 52 1⟩ [(1, 48, 2)] [0x40000] = true ∧
    hmode s.g = false ∧ s.g.iss = false ∧ s.g.s1.valid = false ∧ depthOf s.g.dsp = 0 ∧ s.g.mx.held = 0 ∧ s.g.mode = .mch ∧
    (ctxOf s 0 5).isSome = true ∧ (ctxOf s 0 6) = none ∧ s.g.live = true ∧ s.ms.dirty = [] ∧ migMode s 0 ≠ 2 ∧
    (∀ d ∈ s.others, isCtx 0 0 d = false) ∧ (applyNas (selectorMask s) s .seq).isOk = true ∧
    (match vaKeys s (accOf s.g) .store 0x40000 0x3000 with
      | .ok x => x.2 == s && homeNat s (x.1.take 4) == 1 &&
          (match loadAt s x.1 0 with | some r => r.1 == 1 && !r.2.onAp | none => false)
      | .error _ => false) = true := by decide +kernel

/-- ContextForms, of a save: a target brought to rest, and the keys of an area. -/
theorem wit_saves : (match ctxOf (bringToRest (uniteActive tX) false 0 5) 0 5 with | some c => c.who.vf == 0 && c.who.ident == 5 && c.who.gang == none | none => false) = true ∧
    let keys := (List.range 0x3000).map (2 ^ 62 + 0x40000 + ·)
    (∀ i < 0x3000, keys.getD i 0 = keys.getD (i / 64 * 64) 0 + i % 64) ∧
      ∀ i < 0x3000, ∀ j < 0x3000, keys.getD i 0 = keys.getD j 0 → i = j := by
  refine ⟨by decide +kernel, fun i hi => ?_, fun i hi j hj => ?_⟩
  · have : i / 64 * 64 < 0x3000 := by omega
    simp [List.getD_eq_getElem?_getD, hi, this]; omega
  · simp [List.getD_eq_getElem?_getD, hi, hj]

/-- `tC` with one record in its queue, a graph node that takes it, and its units held by VF 0 or by none. -/
def tD (data : Nat) (units : List Nat) : State :=
  let s := setDevReg (tC 1 []) 0x112 0x23001
  { s with
    ms := { s.ms with mem := s.ms.mem ++ cells (2 ^ 62) [(0x22000, 32, data), (0x23000, 20, 0x10000 + 0x21100 * 2 ^ 64 + 2 ^ 128)] }
    qt := { s.qt with rows := [⟨0, units⟩] } }

/-- Units of which VF 0 holds one of the other compute die. -/
def tFar : List Nat := List.replicate 64 0 ++ [0x80]

/-- A gang request for the gang at an address. -/
def gangAt (va : Nat) : Nat := 2 ^ 64 * va + 2 ^ 192 * 8

/-- The record of `tD` is at the head of its dispatcher. -/
def headIs (s : State) (data : Nat) : Bool :=
  served s 0 && !s.wk.gangs.any (waitingGang s 0) && dispatchOrder s 0 0 == [.record 0x21100 0 data] && !waitingAny s 0 &&
    passTaken s 0 0 == none

/-- A gang of two teams, one on each die. -/
def tGang : Gang := ⟨4, 0, 0, 0, 0, true, true, [⟨⟨0, 0, 1, 0, 0⟩, 0, 0⟩, ⟨⟨0, 0, 1, 0, 0⟩, 256, 0⟩], none, false, 0, 0, [], []⟩

/-- WorkEvents: a group that has ended, with and without an unresolved entry, and one of a gang that goes on. -/
theorem wit_group_end :
    let s : State := { tC 0 [] with g := { (tC 0 []).g with s0 := emptySlot } }
    let c := s.g
    ctxOf s 0 0 = some c ∧ c.s0.valid = false ∧ c.s1.valid = false ∧ depthOf c.dsp = 0 ∧ c.pend = none ∧ c.redo = none ∧ c.replays = [] ∧
      c.wins = [] ∧ c.endCause = none ∧ c.unres = false ∧ s.ms.log = [] ∧ c.who.gang = none ∧ isCtx 0 0 s.g = true ∧ (bring s 0 0).isSome = true ∧
      let mate : Ctx := { c with who := { c.who with ident := 5, gang := some 4 } }
      let t : State := { s with g := { c with who := { c.who with gang := some 4 } }, others := [mate], wk := { s.wk with gangs := [tGang] } }
      t.g.who.gang = some 4 ∧ t.others = [mate] ∧ isCtx 0 0 mate = false := by decide +kernel

/-- WorkEvents: a record that is discarded for each cause and one that finds its place; a gang that does not read, is inadmissible, is
admitted, and finds no usable core; its hold; an overflowed record; a node; the loss of the link with no gang and with one that spans. -/
theorem wit_work_events :
    let rd := tD 0 [0x80]
    let gang := tD (gangAt 0x20200) [0x80]
    let stopped : State := { gang with mg := { gang.mg with cores := [0, 1, 2, 3] } }
    let look (s : State) (va : Nat) := let n := noteOf s 0 0 0x21100 0; runAs s (n.acc 0 0) n.ids fun t => readGang t (n.acc 0 0) va
    let asked (d : GangDesc) : Gang :=
      let n := noteOf gang 0 0 0x21100 0
      ⟨0, 0, 0, 0, 0, d.span, d.restart, [], none, false, n.ident, n.issuer, n.ids, []⟩
    headIs (tD (2 ^ 57) [0x80]) (2 ^ 57) = true ∧ recBad 0 (2 ^ 57) = true ∧
    (let node := 2 ^ 64 * 5 + 2 ^ 192 * 240
     headIs (tD node [0x80]) node = true ∧ recBad 0 node = false ∧ recClass node = 15 ∧ nodeCount (tD node [0x80]) ≤ recFrame node) ∧
    headIs rd 0 = true ∧ recBad 0 0 = false ∧ recClass 0 ≠ 15 ∧ recKind 0 ≠ 2 ∧ recordCore rd 0 0 = some 1 ∧ freeIdent rd 0 = some 1 ∧
    bestPart rd 1 = some 0 ∧ recKind (gangAt 0x20200) = 2 ∧ recBad 0 (gangAt 0x20200) = false ∧ recClass (gangAt 0x20200) ≠ 15 ∧
    headIs (tD (gangAt 0x20210) tFar) (gangAt 0x20210) = true ∧
    (match look (tD (gangAt 0x20210) tFar) 0x20210 with | .ok (none, _) => true | _ => false) = true ∧
    headIs (tD (gangAt 0x20200) tFar) (gangAt 0x20200) = true ∧
    (match look (tD (gangAt 0x20200) tFar) 0x20200 with | .ok (some d, _, v) => inadmissible v 0 0 d.span d.teams | _ => false) = true ∧
    headIs gang (gangAt 0x20200) = true ∧
    (match look gang 0x20200 with
      | .ok (some d, _, v) => !inadmissible v 0 0 d.span d.teams && (admitGang (dropHead v 0 0 0 0) (asked d) d.teams).isSome
      | _ => false) = true ∧
    (match look stopped 0x20200 with
      | .ok (some d, _, v) => !inadmissible v 0 0 d.span d.teams &&
          (placeTeams d.teams (((searchCores d.span 0).filter (usableCore v 0)).map (openRoom v))).isNone
      | _ => false) = true ∧
    headGang gang 0 0 = some (.record 0x21100 0 (gangAt 0x20200)) ∧
    headWait { gang with wk := { gang.wk with heads := [⟨0, 0, 0, 0, 1200000, false, []⟩] } } 0 0 0 0 =
      some ⟨0, 0, 0, 0, 1200000, false, []⟩ ∧
    (askedTeams gang 0 0 (.record 0x21100 0 (gangAt 0x20200))).isSome = true ∧
    queueOf rd 0 0 0 = some 0x21100 ∧ qReserved rd 0x21100 = false ∧ qFull rd 0x21100 = false ∧ recReserved 0 = false ∧
    recTaken 0 = false ∧
    served rd 0 = true ∧ nodeQueue rd 0 = 0x21100 ∧ 0 < nodeCount rd ∧ nodeBad rd 0 = false ∧ (nodeN rd 0).1 = 1 ∧
    queued rd 0x21100 = [(0, 0)] ∧ headerCluster rd 0 0x21100 = 0 ∧
    rd.wk.gangs = [] ∧ [tGang].filter (fun g => spansDies g && !g.saved) = [tGang] ∧ tGang.restart = true ∧ rd.others = [] ∧
    qReserved rd (headerAt rd 0 (32 * (0 % 2) + tGang.cluster % 32) 0) = false := by decide +kernel

/-- The group of `tK` with one page of 4 KiB at 0x20000 whose table entry has these flags, a Ladle block with a frame on the stacks of
its die and of tier 2 and three entries in its ring. -/
def tL (flags pinq : Nat) : State :=
  let s := setVfReg (setVfReg (setVfReg tK 0 0x106 (BitVec.ofNat 64 pinq)) 0 0x105 0x1FFFF) 0 0x10C 0x24000
  { s with
    acnt := 200000
    ms := { s.ms with
      tlb := []
      mem := cells (2 ^ 62) [
        (0, 8, 0x1001), (0x1000, 8, 0x7000000000020001), (0x2000, 8, 0x7000000000030001), (0x3000, 8, 0x7000000000040001),
        (0x4000, 8, 0x7000000000050001), (0x5100, 8, 0x20006F + flags),
        (0x24000, 24, 0x25100 + 4 * 2 ^ 64 + 3 * 2 ^ 160), (0x24040, 16, 0x25000 + 2 ^ 64 + 4 * 2 ^ 96),
        (0x24080, 16, 0x25010 + 2 ^ 64 + 4 * 2 ^ 96), (0x25000, 8, 0x30), (0x25010, 8, 0x40), (0x25100, 14, 2 ^ 104),
        (0x25140, 14, 2 * 2 ^ 104)] }
    g := { s.g with regs := [(1536, 0x20000), (1540, 1)] } }

/-- A side-log entry of the group for bytes 0 and 15 of a unit of the page. -/
def tEntry : LogEntry := ⟨0, 0, 0, 0x20010, List.replicate 16 7, 0x8001, .plain, 7, 0, 0, 1, [], [], .mch, false⟩

/-- A move in a phase, and a duplicate whose collapse has begun or not. -/
def tMove (phase : Nat) : Move := ⟨0, 0x1001, 0x20000, 0x5100, 0x20106F, 0x20, 0x30, 1, 0x24040, phase, 0, false⟩
/-- A duplicate whose collapse has begun or not. -/
def tDup (c : Bool) : Dup := ⟨0, 0x1001, 0x20000, 0x5100, 0x20, 1, [(0, 0x30)], c⟩

/-- PlaceForms: a page pinned, moving, strict elsewhere and plain, a quota with room and one used up, an address without a page. -/
theorem wit_place_forms :
    let s := tL 0 1
    let leaf (flags : Nat) (p : Nat → Bool) : Bool :=
      match checkedLeaf (tL flags 1) tA 0x20000 with | .ok l => l.level == 5 && p l.pte | .error _ => false
    let moving : Bool :=
      match checkedLeaf { tL 0x1000 1 with ld := { s.ld with moves := [tMove 1] } } tA 0x20000 with
      | .ok l => !l.pte.testBit 11 && l.pte.testBit 12
      | .error _ => false
    takes s ⟨noAp s ++ kBad 54 1 ++ kBad 48 2 ++ [], codes 48 2 ++ [], codes 54 1⟩ [(1, 48, 2)] [0x20000] = true ∧
    takes s ⟨noAp s ++ [] ++ kBad 48 2 ++ [], codes 48 2 ++ [], []⟩ [(1, 48, 2)] [0x20000] = true ∧
    takes s ⟨noAp s ++ [] ++ kBad 48 2 ++ kBad 52 1, codes 48 2 ++ codes 52 1, []⟩ [(1, 48, 2), (2, 52, 1)] [0x20000, 1] = true ∧
    takes s ⟨kBad 48 2, codes 48 2, codes 54 1⟩ [(1, 48, 2)] [0x20000] = true ∧
    leaf 0 (fun p => !p.testBit 11 && !p.testBit 12 && !p.testBit 10) = true ∧ leaf 0x800 (fun p => p.testBit 11) = true ∧
    moving = true ∧ leaf 0x600 (fun p => p.testBit 10 && p / 2 ^ 8 % 4 == 2) = true ∧
    (vfReg s 0 0x106).toNat % 2 ^ 16 = 1 ∧ (vfReg (tL 0 0x10001) 0 0x106).toNat / 2 ^ 16 = 1 ∧ s.ld.proposals = [] ∧
    (match leafOfVa s tA 0x20000 with | some p => (placeOf s p.pa).isSome | none => false) = true ∧ leafOfVa s tA 0x30000 = none := by
  decide +kernel

/-- PlaceEvents: an epoch that ends, entries that replay and that cannot, proposals of both kinds, a page pinned and one that is not, a move
in both phases, a collapse, and actions 2 and 0 in the ring. -/
theorem wit_place_events :
    let s := tL 0 1
    let logged : State := { s with ms := { s.ms with log := [tEntry] } }
    let bad : State := { logged with hub := { s.hub with extents := [(1, 2 ^ 21), (2, 3)] } }
    let p (act tier die : Nat) (asked : Bool) : Proposal := ⟨0, 0x1001, 0x20000, false, 0, 0, act, tier, die, asked, false⟩
    (vfReg s 0 0x105).toNat / 2 ^ 16 % 2 ^ 16 = 1 ∧ storeGet 0 s.mg.last 100 + 120000 ≤ s.acnt.toNat ∧ storeWf 0 s.ld.hot = true ∧
    headEntry logged 0 = some tEntry ∧ migMode s 0 = 0 ∧
    (match translate logged ⟨0, 0, .mch, 0⟩ .store 0x20010 with | .ok g => !g.pte.testBit 12 && !g.pte.testBit 13 && g.pa == 0x20000 | _ => false) = true ∧
    tEntry.waits = false ∧ tEntry.ev ≠ 0 ∧ logged.ms.hist = [] ∧
    (∀ i ∈ [0, 15], ∀ j < 16, j ≠ i → physKey s (0x20010 + i) ≠ physKey s (0x20010 + j)) ∧
    (match translate bad ⟨0, 0, .mch, 0⟩ .store 0x20010 with | .bad cs => cs.contains 0x48 | _ => false) = true ∧ ctxOf bad 0 0 = some s.g ∧
    migMode (setVfReg s 0 0x103 2) 0 = 1 ∧ s.ld.moves = [] ∧ s.ld.dups = [] ∧ (p 1 2 0 false).action 0x20006F = 1 ∧
    (match leafOfVa s (ladleAcc (p 1 2 0 false)) 0x20000 with
      | some l => l.pteAt == 0x5100 && !l.pte.testBit 11 && !l.pte.testBit 12 && !l.pte.testBit 13 && !l.pte.testBit 14 &&
          !strictForbids l.pte 2 && !atHome s (p 1 2 0 false) l && leafPages l.level l.pte == 1 && (p 1 2 0 false).action l.pte == 1 &&
          (p 2 2 0 true).action l.pte == 2
      | none => false) = true ∧
    (popFrame s (stackAt s 0 2 0 false)).isSome = true ∧
    (match leafOfVa (tL 0x800 1) (ladleAcc (p 1 1 0 false)) 0x20000 with | some l => l.pte.testBit 11 | none => false) = true ∧
    physNat s 0x5100 8 ||| 96 ≠ (tMove 1).pte.toNat ||| 96 ∧ physNat (tL 0x1000 1) 0x5100 8 ||| 96 = (tMove 1).pte.toNat ||| 96 ∧
    s.ms.log = [] ∧ (rootOf logged tEntry.acc == 0x1001) = true ∧ 0x20000 ≤ tEntry.va ∧ tEntry.va < 0x21000 ∧ s.en.invals = [] ∧
        physNat s (ladleBlock s 0 + 20) 4 = 3 ∧ physNat s (ladleBlock s 0 + 8) 4 % 16 = 4 ∧
    (let decision (n : Nat) := physNat s (physNat s (ladleBlock s 0) 8 + 32 * n) 32 / 2 ^ 104 % 2 ^ 8
     decision 0 = 1 ∧ decision 1 = 0 ∧ decision 2 = 2) ∧
    leafOfVa s (ladleAcc ⟨0, 0x1001, 0, false, 0, 0, 0, 0, 0, true, true⟩) 0 = none := by decide +kernel

/-- PlaceEvents: a move of each phase, and duplicates of a page whose collapse has begun or not. -/
theorem wit_place_phases (s : State) (phase : Nat) (c : Bool) :
    Claims.FirstMove { s with ld := { s.ld with moves := [tMove phase] } } 0 0x20000 (fun x => x.phase = phase ∧ x.abandoned = false) (tMove phase) ∧
    Claims.FirstDup { s with ld := { s.ld with dups := [tDup c] } } 0 0x20000 (fun x => x.collapsing = c) (tDup c) :=
  ⟨⟨[], [], rfl, rfl, rfl, ⟨rfl, rfl⟩, by simp⟩, ⟨[], [], rfl, rfl, rfl, rfl, by simp⟩⟩

/-- PartitionEvents: a row that ends, tables that are taken and refused, pages inside and outside a pool window, a release in
progress, an extent in each state. -/
theorem wit_partition_events :
    let s : State := { setDevReg (setDevReg State.reset 0x111 0x100) 0x185 0x200000 with qt := ⟨[⟨200, []⟩], 0⟩, acnt := 240000 }
    let load (dur : Nat) : State :=
      let t := setDevReg (setDevReg s 0x111 0x200) 0x110 0x1000
      { setDevReg (setDevReg (setDevReg t 0x140 0x8000000000000000) 0x141 0x7FE00000) 0x142 0xFE000101 with
        ms := { s.ms with mem := cells (2 ^ 62) [(0x1000, 4, dur)] } }
    let ext (st : Nat) : State := { s with hub := { s.hub with extents := if st = 0 then [] else [(2, BitVec.ofNat 64 st)] } }
    qGo s = true ∧ s.qt.rows[curRow s]? = some ⟨200, []⟩ ∧ s.qt.since + 1200 * 200 ≤ s.acnt.toNat ∧ qLoad s = false ∧
    qLoad (load 200) = true ∧ qGo (load 200) = false ∧ tableBad (load 200) [tableRow (load 200) 0] = false ∧
    tableBad (load 199) [tableRow (load 199) 0] = true ∧ (devReg s 0x111).toNat % 32 = 0 ∧
    windowPages s 0 = 512 ∧ (devReg s 0x195).getLsbD 0 = false ∧
    { s.mg with poolPage := some (0, 511) }.poolPage = some (0, 511) ∧ (∀ st < 4, extState (ext st) 0 = st) ∧
    (vfReg s 0 0x103).getLsbD 0 = false ∧ (vfReg (setVfReg s 1 0x103 1) 1 0x103).getLsbD 0 = true := by decide +kernel

/-- HealthEvents: timers that are due, a unit that beats, one missed once, one halted, one discarded with and without a context; a lane of
a load in flight whose packet failed, and none. -/
theorem wit_health_events :
    let s : State := { setDevReg tK 0x1C2 0x26000 with
      acnt := 1200000, tnow := 1000000
      ms := { tK.ms with mem := cells (2 ^ 62) [(0x26000, 8, 2 ^ 32 + 5)] } }
    let one : State := { s with mg := { s.mg with beats := [(0, 6)], misses := [(0, 1)] } }
    let halted : State := { s with mg := { s.mg with halted := [0] } }
    let w : Window := ⟨3, 0x10000, [8], [(256, 0)], 0, 0, [(0, 5, 0x20000)], false, 1, 0⟩
    storeGet 0 s.mg.last 1 + (devReg s 0x1C4).toNat % 256 * 120000 ≤ s.acnt.toNat ∧
    (onCtx s 0 0 (fun t => endContext t 0xE1)).isSome = true ∧ onCtx s 0 9 (fun t => endContext t 0xE1) = none ∧
    storeGet 0 s.mg.last 2 < nanos s.tnow / 1000000 ∧ (physNat s 0x26000 8).testBit 32 = true ∧ s.mg.halted = [] ∧ s.mg.cores = [] ∧
    storeGet 0 one.mg.beats 0 = physNat one 0x26000 8 % 2 ^ 32 + 1 ∧ storeGet 0 one.mg.misses 0 = 1 ∧ storeGet 0 s.mg.beats 0 = 0 ∧
    (cutWindow (fun l _ => l == 32 || (1 : Mask).getLsbD l) w).isSome = true ∧ cutWindow (fun l _ => l == 32 || (2 : Mask).getLsbD l) w = none ∧
    0 ∈ halted.mg.halted ∧ halted.en.saved = [] ∧
    ([(⟨2 ^ 62, 2, tK.g.who, .usr, none, [], 0, none, 0, none, false, 0, [], [], [], 0, []⟩ : Saved)].filter fun x =>
      x.by_ = 2 ∧ x.unit = 0).length = 1 := by decide +kernel

/-- HealthEvents: an entry whose turn it is, and one whose turn has not come. -/
theorem wit_scrub_turns (e : ArrayEntryAt) :
    let due := Claims.pass State.reset (arrayClass e)
    let later := Claims.pass { State.reset with mg := { State.reset.mg with scrub := [(2 * arrayClass e + 1, 10)] } } (arrayClass e)
    due.2.1 + due.1 * due.2.2.2 / due.2.2.1 ≤ State.reset.acnt.toNat ∧ State.reset.acnt.toNat < later.2.1 + later.1 * later.2.2.2 / later.2.2.1 := by
  have h : (2 * arrayClass e + 1 == 2 * arrayClass e + 1) = true := by simp
  have a : State.reset.acnt = 0 := rfl
  have b : State.reset.mg.scrub = [] := rfl
  simp [Claims.pass, storeGet, a, b]

/-- A start in progress whose step `broken` fails, and whose self-test gave `bits`, with so many units powered. -/
def tBoot (broken powered : Nat) (bits : Byte) : State :=
  { State.reset with acnt := 24000, mg := { State.reset.mg with
    powered := powered, boot := some ⟨2, 1, ⟨broken, [0, 0, 24000], []⟩, true, 3, if powered < 12 then 0 else 3, [[1]], [], List.replicate 72 bits⟩ } }

/-- StartEvents: units to power at every step, a start that ends and those that fail, requests, checkpoints before and after a trip, and
manifests. Whether an image or a command is accepted rests on a signature, whose check is opaque: the statement covers both answers. -/
theorem wit_start_events :
    let s : State := { setDevReg tK 0x1CC 1 with acnt := 24000 }
    State.reset.mg.tripped = false ∧ State.reset.mg.boot = none ∧ (tBoot 0 2 0).mg.boot ≠ none ∧
    storeGet 0 (tBoot 0 2 0).mg.last 8 + max 24000 ([0, 0, 24000].getD 2 0) ≤ (tBoot 0 2 0).acnt.toNat ∧
    State.reset.acnt.toNat < storeGet 0 State.reset.mg.last 8 + max 24000 ([0, 0, 24000].getD 2 0) ∧
    ([(tBoot 0 2 0, 3), (tBoot 4 2 0, 3), (tBoot 0 11 0, 12), (tBoot 6 13 0, 14), (tBoot 0 20 0, 21)].all fun x => x.1.mg.powered + 1 == x.2) = true ∧
    ([(tBoot 0 2 0, 0), (tBoot 0 20 0, 3)].all fun x => (x.1.mg.boot.map (·.trained)) == some x.2) = true ∧
    (tBoot 0 77 255).mg.powered = 77 ∧ failedBits (List.replicate 72 255) = [] ∧ failedBits (List.replicate 72 0) ≠ [] ∧
    s.mg.attest = none ∧ ({ s.mg with attest := some 0x1000 } : Mgmt).attest ≠ none ∧ ckGo s = true ∧ ckDone s = false ∧ qGo s = false := by
  decide +kernel

/-- StartEvents: an image is accepted, or none is. -/
theorem wit_images (f : Fuses) (p b : List Byte) : (∃ x, [p, b].find? (imageOk f) = some x) ∨ [p, b].find? (imageOk f) = none := by
  cases h : [p, b].find? (imageOk f) with
  | none => exact .inr rfl
  | some x => exact .inl ⟨x, rfl⟩

/-- TimeAndPowerEvents: TNOW behind and ahead, a slew at its end, samples due with a mean above the cap and not, a request of the comparator
not followed, temperatures at each edge, counters due. -/
theorem wit_time_and_power :
    let s : State := { State.reset with acnt := 120000000, tnow := 5 }
    let high : State := { s with mg := { s.mg with watts := List.replicate 9 2801 } }
    let asked : State := { s with fl := { s.fl with d0 := { s.fl.d0 with ask := some (1, 0) } } }
    (devReg s 0x062).getLsbD 0 = false ∧ nanos s.tnow ≤ nanos 5 ∧ nanos 4 < nanos s.tnow ∧ ({ s.mg with slew := some 0 } : Mgmt).slew = some 0 ∧
    storeGet 0 s.mg.last 5 + 12000 ≤ s.acnt.toNat ∧ 10 * ((devReg s 0x1C9).toNat % 4096) < (2801 :: high.mg.watts).sum ∧
    (tg asked 0).ask = some (1, 0) ∧ levelOf asked 0 < 1 ∧ storeGet 0 s.mg.last 6 + 1200000 ≤ s.acnt.toNat ∧
    storeGet 0 s.mg.last 7 + 120000000 ≤ s.acnt.toNat ∧ band 85 = 0 ∧ band 86 = 1 ∧ band 95 = 1 ∧ band 96 = 2 := by decide +kernel

/-- Throttling registers and state of CD0. -/
def tT (cfg st : Nat) (t : Throttle) : State :=
  let s := setFleet (setFleet State.reset 0x100 cfg) 0x108 st
  { s with acnt := 200000000, tnow := 20000000, fl := { s.fl with d0 := t } }

/-- ThrottleEvents: a coordinator, a member of another package's group, a die that is off, one that is detached. -/
theorem wit_throttle :
    let t := State.reset.fl.d0
    let key := memberKey 5 0
    let coord (t : Throttle) : State := tT 0xA0001 (2 ^ 6 + 0xFFFF * 2 ^ 16) t
    let member (t : Throttle) : State := tT 0xA0001 (2 ^ 6 + 5 * 2 ^ 16) t
    let a : Announce := ⟨1, 20000000, 3⟩
    coordinates (coord t) 0 = true ∧ pkgId (coord t) = 0xFFFF ∧ storeGet 0 (tg (coord { t with members := [(key, 3)] }) 0).members key ≠ 0 ∧
    requestOf (tT 0x10A0000 0 t) 0 ≠ t.request ∧ tgOn (tT 0x10A0000 0 t) 0 = false ∧
    requestOf (tT 0x10A0001 (2 ^ 6 + 0xFFFF * 2 ^ 16) t) 0 ≠ t.request ∧ ownCoord (tT 0x10A0001 (2 ^ 6 + 0xFFFF * 2 ^ 16) t) 0 = some 0 ∧
    wanted t ≤ t.level ∧ t.level < wanted { t with members := [(key, 3)] } ∧ wanted t < ({ t with level := 2 } : Throttle).level ∧
    t.since + 10000000 ≤ nanos (coord t).tnow ∧ a.at_ ≤ nanos (coord t).tnow + 10000 ∧ key / 2 ≠ pkgId (coord t) ∧
    ({ t with sent := [a] } : Throttle).since < a.at_ ∧ ({ t with sent := [] } : Throttle).sent ≠ [a] ∧
    key < memberKey (pkgId (coord t)) 0 ∧ memberKey (pkgId (setDevReg (coord t) 0x180 3)) 0 < key ∧
    coordinates (tT 0xA0001 (2 ^ 6 + 3 * 2 ^ 16) t) 0 = false ∧ otherCoord (coord t) 0 = none ∧ ownCoord (coord t) 0 = some 0 ∧
    ({ t with raisedAt := some 0 } : Throttle).raisedAt = some 0 ∧
    tgOn (member t) 0 = true ∧ tgReg (member t) 0 = true ∧ ownCoord (member t) 0 = none ∧ coordinates (member t) 0 = false ∧ t.pend = none ∧
    detached (member t) 0 = false ∧ (member t).mg.tripped = false ∧ a.at_ ≤ nanos (member t).tnow ∧
    ({ t with unlockedAt := some 0 } : Throttle).unlockedAt = some 0 ∧ ({ t with request := 1 } : Throttle).request ≠ levelOf (tT 0 0 t) 0 ∧
    storeGet 0 (tT 0 0 t).mg.last (gridTimer 0) ≤ nanos (tT 0 0 t).tnow / 10000 ∧
    detached (tT 0xA0001 (2 ^ 6 + 2 ^ 7) t) 0 = true ∧ t.tried + 120000000 ≤ (tT 0 0 t).acnt.toNat := by decide +kernel

/-- StepKeepsMemory and EncodeDecode: a step of the placed machine, and an instruction with a word. -/
theorem wit_step_keeps : StateInv (tP 0x8DE00042 [.issue 0 0 false]) ∧ (∃ t, step State.reset = .next t) ∧
    (Instr.vmul ⟨.seq, 9, 8, 56, 0⟩).wellFormed = true ∧ encode (.vmul ⟨.seq, 9, 8, 56, 0⟩) = some 0x004491C0 := by
  refine ⟨?_, ⟨_, rfl⟩, ?_, ?_⟩
  · dsimp only [StateInv]; decide +kernel
  · decide +kernel
  · decide +kernel

/-- Words with the fields of the opcode table's rows (R162, R182, R185). -/
theorem test_decode_lane_arithmetic_0 : ([
    (0x1014ADA5, .vadd ⟨.loop, 41, 22, 52, 5⟩),
    (0x1034ADA5, .vsub ⟨.loop, 41, 22, 52, 5⟩),
    (0x1054ADA5, .vmul ⟨.loop, 41, 22, 52, 5⟩),
    (0x1074ADA5, .vmulhs ⟨.loop, 41, 22, 52, 5⟩),
    (0x1094ADA5, .vmulhn ⟨.loop, 41, 22, 52, 5⟩),
    (0x10B4ADA5, .vmins ⟨.loop, 41, 22, 52, 5⟩),
    (0x10D4ADA5, .vminn ⟨.loop, 41, 22, 52, 5⟩),
    (0x10F4ADA5, .vmaxs ⟨.loop, 41, 22, 52, 5⟩),
    (0x1114ADA5, .vmaxn ⟨.loop, 41, 22, 52, 5⟩),
    (0x1134ADA5, .vand ⟨.loop, 41, 22, 52, 5⟩),
    (0x1154ADA5, .vor ⟨.loop, 41, 22, 52, 5⟩),
    (0x1174ADA5, .vxor ⟨.loop, 41, 22, 52, 5⟩),
    (0x1194ADA5, .vshl ⟨.loop, 41, 22, 52, 5⟩),
    (0x11B4ADA5, .vshr ⟨.loop, 41, 22, 52, 5⟩),
    (0x11D4ADA5, .vsar ⟨.loop, 41, 22, 52, 5⟩),
    (0x11F4ADA5, .vsel ⟨.loop, 41, 22, 52, 5⟩),
    (0x1214ADA5, .vadd64 ⟨.loop, 41, 22, 52, 5⟩),
    (0x1234ADA5, .vsub64 ⟨.loop, 41, 22, 52, 5⟩),
    (0x1254AC05, .vclz ⟨.loop, 41, 22, 0, 5⟩),
    (0x1274AC05, .vpopc ⟨.loop, 41, 22, 0, 5⟩),
    (0x1294ADA5, .vbfx ⟨.loop, 41, 22, 52, 5⟩),
    (0x12B4ADA5, .vbfi ⟨.loop, 41, 22, 52, 5⟩),
    (0x12D4AD55, .vaddi ⟨.loop, 41, 22, 341⟩),
    (0x12F4AD55, .vandi ⟨.loop, 41, 22, 341⟩),
    (0x1314AD55, .vori ⟨.loop, 41, 22, 341⟩),
    (0x1334AD55, .vxori ⟨.loop, 41, 22, 341⟩),
    (0x1354AC15, .vshli ⟨.loop, 41, 22, 21⟩),
    (0x1374AC15, .vshri ⟨.loop, 41, 22, 21⟩),
    (0x1394AC15, .vsari ⟨.loop, 41, 22, 21⟩),
    (0x13B48155, .vmovi ⟨.loop, 41, 0, 341⟩),
    (0x13D4ADA5, .vcmps ⟨.loop, 41, 22, 52, 5⟩),
    (0x13F4ADA5, .vcmpn ⟨.loop, 41, 22, 52, 5⟩)
  ] : List (Nat × Instr)).all (fun p => decodeTableWord 32 p.1 == some p.2) = true := by decide +kernel

/-- Words with the fields of the opcode table's rows (R162, R182, R185). -/
theorem test_decode_lane_arithmetic_1 : ([
    (0x1414ADA5, .vfadd ⟨.loop, 41, 22, 52, 5⟩),
    (0x1434ADA5, .vfsub ⟨.loop, 41, 22, 52, 5⟩),
    (0x1454ADA5, .vfmul ⟨.loop, 41, 22, 52, 5⟩),
    (0x1474ADA5, .vfma ⟨.loop, 41, 22, 52, 5⟩),
    (0x1494ADA5, .vfmin ⟨.loop, 41, 22, 52, 5⟩),
    (0x14B4ADA5, .vfmax ⟨.loop, 41, 22, 52, 5⟩),
    (0x14D4ADA5, .vfcmp ⟨.loop, 41, 22, 52, 5⟩),
    (0x14F4ADA3, .vmop ⟨.loop, 41, 22, 52, 3⟩),
    (0x1514ADA5, .vhaddBf16x2 ⟨.loop, 41, 22, 52, 5⟩),
    (0x1534ADA5, .vhaddF16x2 ⟨.loop, 41, 22, 52, 5⟩),
    (0x1554ADA5, .vhmulBf16x2 ⟨.loop, 41, 22, 52, 5⟩),
    (0x1574ADA5, .vhmulF16x2 ⟨.loop, 41, 22, 52, 5⟩),
    (0x1594ADA5, .vhfmaBf16x2 ⟨.loop, 41, 22, 52, 5⟩),
    (0x15B4ADA5, .vhfmaF16x2 ⟨.loop, 41, 22, 52, 5⟩),
    (0x15D4ADA5, .vfsgnBf16x2 ⟨.loop, 41, 22, 52, 5⟩),
    (0x15F4ADA5, .vfsgnF16x2 ⟨.loop, 41, 22, 52, 5⟩)
  ] : List (Nat × Instr)).all (fun p => decodeTableWord 32 p.1 == some p.2) = true := by decide +kernel

/-- Words with the fields of the opcode table's rows (R162, R182, R185). -/
theorem test_decode_lane_memory_0 : ([
    (0x1614AC05, .vrcp ⟨.loop, 41, 22, 0, 5⟩),
    (0x1634AC05, .vrsq ⟨.loop, 41, 22, 0, 5⟩),
    (0x1654AC05, .vsqrt ⟨.loop, 41, 22, 0, 5⟩),
    (0x1674AC05, .vexp2 ⟨.loop, 41, 22, 0, 5⟩),
    (0x1694AC05, .vlog2 ⟨.loop, 41, 22, 0, 5⟩),
    (0x16B4AC05, .vtrigSinpi ⟨.loop, 41, 22, 0, 5⟩),
    (0x16D4AC05, .vtrigCospi ⟨.loop, 41, 22, 0, 5⟩),
    (0x16F4AC2D, .vcvt ⟨.loop, 41, 22, 5, 5⟩),
    (0x1714ADA5, .vpk ⟨.loop, 41, 22, 52, 5⟩),
    (0x1734ADA5, .vq4dec ⟨.loop, 41, 22, 52, 5⟩),
    (0x1754ADA5, .vshfl ⟨.loop, 41, 22, 52, 5⟩),
    (0x1774ADA5, .vshflx ⟨.loop, 41, 22, 52, 5⟩),
    (0x1794ADA5, .vlane ⟨.loop, 41, 22, 52, 5⟩),
    (0x17B4AC05, .vred ⟨.loop, 41, 22, 0, 5⟩),
    (0x17D4AC05, .vscan ⟨.loop, 41, 22, 0, 5⟩),
    (0x17F4AC03, .vvote ⟨.loop, 41, 22, 0, 3⟩),
    (0x1814AD76, .vldGlS8 ⟨.loop, 41, 22, 11, 22⟩),
    (0x1834AD76, .vldGlN8 ⟨.loop, 41, 22, 11, 22⟩),
    (0x1854AD76, .vldGlS16 ⟨.loop, 41, 22, 11, 22⟩),
    (0x1874AD76, .vldGlN16 ⟨.loop, 41, 22, 11, 22⟩),
    (0x1894AD76, .vldGlN32 ⟨.loop, 41, 22, 11, 22⟩),
    (0x18B4AD76, .vldGlN64 ⟨.loop, 41, 22, 11, 22⟩),
    (0x18D4AD76, .vldGlN128 ⟨.loop, 41, 22, 11, 22⟩),
    (0x18E12C16, .vprf ⟨.loop, 2, 22, 0, 22⟩),
    (0x1914AD76, .vldVtN8 ⟨.loop, 41, 22, 11, 22⟩),
    (0x1934AD76, .vldVtN16 ⟨.loop, 41, 22, 11, 22⟩),
    (0x1954AD76, .vldVtN32 ⟨.loop, 41, 22, 11, 22⟩),
    (0x1974AD76, .vldVtN64 ⟨.loop, 41, 22, 11, 22⟩),
    (0x1994AD76, .vldVtN128 ⟨.loop, 41, 22, 11, 22⟩),
    (0x19B4AD76, .vkvld ⟨.loop, 41, 22, 11, 22⟩),
    (0x19D4ADA5, .vdev ⟨.loop, 41, 22, 52, 5⟩),
    (0x1A14AD76, .vstGlN8 ⟨.loop, 41, 22, 11, 22⟩)
  ] : List (Nat × Instr)).all (fun p => decodeTableWord 32 p.1 == some p.2) = true := by decide +kernel

/-- Words with the fields of the opcode table's rows (R162, R182, R185). -/
theorem test_decode_lane_memory_1 : ([
    (0x1A34AD76, .vstGlN16 ⟨.loop, 41, 22, 11, 22⟩),
    (0x1A54AD76, .vstGlN32 ⟨.loop, 41, 22, 11, 22⟩),
    (0x1A74AD76, .vstGlN64 ⟨.loop, 41, 22, 11, 22⟩),
    (0x1A94AD76, .vstGlN128 ⟨.loop, 41, 22, 11, 22⟩),
    (0x1AB4AD76, .vstVtN8 ⟨.loop, 41, 22, 11, 22⟩),
    (0x1AD4AD76, .vstVtN16 ⟨.loop, 41, 22, 11, 22⟩),
    (0x1AF4AD76, .vstVtN32 ⟨.loop, 41, 22, 11, 22⟩),
    (0x1B14AD76, .vstVtN64 ⟨.loop, 41, 22, 11, 22⟩),
    (0x1B34AD76, .vstVtN128 ⟨.loop, 41, 22, 11, 22⟩),
    (0x1B54AD71, .vldsGlN8 ⟨.loop, 41, 22, 11, 4, 1⟩),
    (0x1B74AD71, .vldsGlN16 ⟨.loop, 41, 22, 11, 4, 1⟩),
    (0x1B94AD71, .vldsGlN32 ⟨.loop, 41, 22, 11, 4, 1⟩),
    (0x1BB4AD71, .vldsGlN64 ⟨.loop, 41, 22, 11, 4, 1⟩),
    (0x1BD4AD71, .vldsGlN128 ⟨.loop, 41, 22, 11, 4, 1⟩),
    (0x1BF4AD71, .vldsVtN32 ⟨.loop, 41, 22, 11, 4, 1⟩),
    (0x1C14AD72, .vstsGlN8 ⟨.loop, 41, 22, 11, 4, 2⟩),
    (0x1C34AD72, .vstsGlN16 ⟨.loop, 41, 22, 11, 4, 2⟩),
    (0x1C54AD72, .vstsGlN32 ⟨.loop, 41, 22, 11, 4, 2⟩),
    (0x1C74AD72, .vstsGlN64 ⟨.loop, 41, 22, 11, 4, 2⟩),
    (0x1C94AD72, .vstsGlN128 ⟨.loop, 41, 22, 11, 4, 2⟩),
    (0x1CB4AD72, .vstsVtN32 ⟨.loop, 41, 22, 11, 4, 2⟩),
    (0x1CD4AD71, .vxchgN32 ⟨.loop, 41, 22, 11, 4, 1⟩),
    (0x1CF4AD71, .vxchgN64 ⟨.loop, 41, 22, 11, 4, 1⟩),
    (0x1D14AD71, .vcasN32 ⟨.loop, 41, 22, 11, 4, 1⟩),
    (0x1D34AD71, .vcasN64 ⟨.loop, 41, 22, 11, 4, 1⟩),
    (0x1D54AD71, .vatomAddN32 ⟨.loop, 41, 22, 11, 4, 1⟩),
    (0x1D74AD71, .vatomAddN64 ⟨.loop, 41, 22, 11, 4, 1⟩),
    (0x1D94AD71, .vatomAddF32 ⟨.loop, 41, 22, 11, 4, 1⟩),
    (0x1DB4AD71, .vatomAndN32 ⟨.loop, 41, 22, 11, 4, 1⟩),
    (0x1DD4AD71, .vatomOrN32 ⟨.loop, 41, 22, 11, 4, 1⟩),
    (0x1DF4AD71, .vatomXorN32 ⟨.loop, 41, 22, 11, 4, 1⟩),
    (0x1E14AD71, .vatomMinS32 ⟨.loop, 41, 22, 11, 4, 1⟩)
  ] : List (Nat × Instr)).all (fun p => decodeTableWord 32 p.1 == some p.2) = true := by decide +kernel

/-- Words with the fields of the opcode table's rows (R162, R182, R185). -/
theorem test_decode_lane_memory_2 : ([
    (0x1E34AD71, .vatomMinN32 ⟨.loop, 41, 22, 11, 4, 1⟩),
    (0x1E54AD71, .vatomMaxS32 ⟨.loop, 41, 22, 11, 4, 1⟩),
    (0x1E74AD71, .vatomMaxN32 ⟨.loop, 41, 22, 11, 4, 1⟩),
    (0x1E94AD70, .vredMAddN32 ⟨.loop, 41, 22, 11, 4, 0⟩),
    (0x1EB4AD70, .vredMAddN64 ⟨.loop, 41, 22, 11, 4, 0⟩),
    (0x1ED4AD70, .vredMAddF32 ⟨.loop, 41, 22, 11, 4, 0⟩),
    (0x1EF4AD70, .vredMMinS32 ⟨.loop, 41, 22, 11, 4, 0⟩),
    (0x1F14AD70, .vredMMaxS32 ⟨.loop, 41, 22, 11, 4, 0⟩),
    (0x1F34AD6B, .vmmq ⟨.loop, 41, 22, 5, 2, 11⟩),
    (0x1F402C28, .vwld ⟨.loop, 0, 22, 5, 0⟩),
    (0x1F74AD4B, .vaccrd ⟨.loop, 41, 22, 5, 0, 11⟩),
    (0x1F94AD4B, .vaccwr ⟨.loop, 41, 22, 5, 0, 11⟩),
    (0x1FA0014B, .vaccz ⟨.loop, 0, 0, 5, 0, 11⟩),
    (0x1FD4814B, .vwmark ⟨.loop, 41, 0, 5, 0, 11⟩)
  ] : List (Nat × Instr)).all (fun p => decodeTableWord 32 p.1 == some p.2) = true := by decide +kernel

/-- Words with the fields of the opcode table's rows (R162, R182, R185). -/
theorem test_decode_group_arithmetic_0 : ([
    (0x9014ADA0, .gadd ⟨.loop, 41, 22, 52, 0⟩),
    (0x9034ADA0, .gsub ⟨.loop, 41, 22, 52, 0⟩),
    (0x9054ADA0, .gmul ⟨.loop, 41, 22, 52, 0⟩),
    (0x9074ADA0, .gmulh ⟨.loop, 41, 22, 52, 0⟩),
    (0x9094ADA0, .gdiv ⟨.loop, 41, 22, 52, 0⟩),
    (0x90B4ADA0, .grem ⟨.loop, 41, 22, 52, 0⟩),
    (0x90D4ADA1, .gmin ⟨.loop, 41, 22, 52, 1⟩),
    (0x90F4ADA1, .gmax ⟨.loop, 41, 22, 52, 1⟩),
    (0x9114ADA0, .gand ⟨.loop, 41, 22, 52, 0⟩),
    (0x9134ADA0, .gor ⟨.loop, 41, 22, 52, 0⟩),
    (0x9154ADA0, .gxor ⟨.loop, 41, 22, 52, 0⟩),
    (0x9174ADA0, .gshl ⟨.loop, 41, 22, 52, 0⟩),
    (0x9194ADA0, .gshr ⟨.loop, 41, 22, 52, 0⟩),
    (0x91B4ADA0, .gsar ⟨.loop, 41, 22, 52, 0⟩),
    (0x91D4AC00, .gclz ⟨.loop, 41, 22, 0, 0⟩),
    (0x91F4AC00, .gpopc ⟨.loop, 41, 22, 0, 0⟩),
    (0x9214ADA0, .gbfx ⟨.loop, 41, 22, 52, 0⟩),
    (0x9234ADA0, .gbfi ⟨.loop, 41, 22, 52, 0⟩),
    (0x9254ADA0, .gadd64 ⟨.loop, 41, 22, 52, 0⟩),
    (0x9274ADA0, .gsub64 ⟨.loop, 41, 22, 52, 0⟩),
    (0x9294ADA0, .gmul64 ⟨.loop, 41, 22, 52, 0⟩),
    (0x92B4ADA5, .gcmp ⟨.loop, 41, 22, 52, 5⟩),
    (0x92D4ADA0, .gsel ⟨.loop, 41, 22, 52, 0⟩),
    (0x92F4AD55, .gaddi ⟨.loop, 41, 22, 341⟩),
    (0x9314AD55, .gandi ⟨.loop, 41, 22, 341⟩),
    (0x9334AD55, .gori ⟨.loop, 41, 22, 341⟩),
    (0x9354AD55, .gxori ⟨.loop, 41, 22, 341⟩),
    (0x9374AC15, .gshli ⟨.loop, 41, 22, 21⟩),
    (0x9394AC15, .gshri ⟨.loop, 41, 22, 21⟩),
    (0x93B4AC15, .gsari ⟨.loop, 41, 22, 21⟩),
    (0x93D4D555, .gmovi ⟨.loop, 41, 21845⟩),
    (0x93F35555, .gmovhi ⟨.loop, 9, 87381⟩)
  ] : List (Nat × Instr)).all (fun p => decodeTableWord 32 p.1 == some p.2) = true := by decide +kernel

/-- Words with the fields of the opcode table's rows (R162, R182, R185). -/
theorem test_decode_group_arithmetic_1 : ([
    (0x94135555, .gaddpc ⟨.loop, 9, 87381⟩),
    (0x9434ADA1, .gfadd ⟨.loop, 41, 22, 52, 1⟩),
    (0x9454ADA1, .gfsub ⟨.loop, 41, 22, 52, 1⟩),
    (0x9474ADA1, .gfmul ⟨.loop, 41, 22, 52, 1⟩),
    (0x9494ADA1, .gfma ⟨.loop, 41, 22, 52, 1⟩),
    (0x94B4ADA1, .gfdiv ⟨.loop, 41, 22, 52, 1⟩),
    (0x94D4AC01, .gfsqrt ⟨.loop, 41, 22, 0, 1⟩),
    (0x94F4ADA3, .gfmnx ⟨.loop, 41, 22, 52, 3⟩),
    (0x9514AC2D, .gfcvt ⟨.loop, 41, 22, 5, 5⟩),
    (0x9534ADA5, .gfcmp ⟨.loop, 41, 22, 52, 5⟩),
    (0x955ABCDE, .gtgt ⟨.loop, 1752286⟩),
    (0x95602C00, .gtgtr ⟨.loop, 0, 22, 0, 0⟩),
    (0x95802C00, .gloop ⟨.loop, 0, 22, 0, 0⟩),
    (0x95A15555, .gloopi ⟨.loop, 0, 87381⟩),
    (0x95C00000, .gbrk ⟨.loop, 0, 0, 0, 0⟩)
  ] : List (Nat × Instr)).all (fun p => decodeTableWord 32 p.1 == some p.2) = true := by decide +kernel

/-- Words with the fields of the opcode table's rows (R162, R182, R185). -/
theorem test_decode_group_memory_0 : ([
    (0x9614AD76, .gldGlN32 ⟨.loop, 41, 22, 11, 22⟩),
    (0x9634AD76, .gldGlN64 ⟨.loop, 41, 22, 11, 22⟩),
    (0x9654AD76, .gldVtN32 ⟨.loop, 41, 22, 11, 22⟩),
    (0x9674AD76, .gldVtN64 ⟨.loop, 41, 22, 11, 22⟩),
    (0x9694AD76, .gstGlN32 ⟨.loop, 41, 22, 11, 22⟩),
    (0x96B4AD76, .gstGlN64 ⟨.loop, 41, 22, 11, 22⟩),
    (0x96D4AD76, .gstVtN32 ⟨.loop, 41, 22, 11, 22⟩),
    (0x96F4AD76, .gstVtN64 ⟨.loop, 41, 22, 11, 22⟩),
    (0x9714AD71, .gldsGlN32 ⟨.loop, 41, 22, 11, 4, 1⟩),
    (0x9734AD71, .gldsGlN64 ⟨.loop, 41, 22, 11, 4, 1⟩),
    (0x9754AD71, .gldsVtN32 ⟨.loop, 41, 22, 11, 4, 1⟩),
    (0x9774AD72, .gstsGlN32 ⟨.loop, 41, 22, 11, 4, 2⟩),
    (0x9794AD72, .gstsGlN64 ⟨.loop, 41, 22, 11, 4, 2⟩),
    (0x97B4AD72, .gstsVtN32 ⟨.loop, 41, 22, 11, 4, 2⟩),
    (0x97C00011, .gfence ⟨.loop, 0, 0, 0, 4, 1⟩),
    (0x97E12C16, .gprf ⟨.loop, 2, 22, 0, 22⟩),
    (0x9814AD71, .gatomAddN32 ⟨.loop, 41, 22, 11, 4, 1⟩),
    (0x9834AD71, .gatomAddN64 ⟨.loop, 41, 22, 11, 4, 1⟩),
    (0x9854AD71, .gatomAndN32 ⟨.loop, 41, 22, 11, 4, 1⟩),
    (0x9874AD71, .gatomOrN32 ⟨.loop, 41, 22, 11, 4, 1⟩),
    (0x9894AD71, .gatomXorN32 ⟨.loop, 41, 22, 11, 4, 1⟩),
    (0x98B4AD71, .gatomMinS32 ⟨.loop, 41, 22, 11, 4, 1⟩),
    (0x98D4AD71, .gatomMinN32 ⟨.loop, 41, 22, 11, 4, 1⟩),
    (0x98F4AD71, .gatomMaxS32 ⟨.loop, 41, 22, 11, 4, 1⟩),
    (0x9914AD71, .gatomMaxN32 ⟨.loop, 41, 22, 11, 4, 1⟩),
    (0x9934AD71, .gcasN32 ⟨.loop, 41, 22, 11, 4, 1⟩),
    (0x9954AD71, .gcasN64 ⟨.loop, 41, 22, 11, 4, 1⟩),
    (0x9974AD71, .gqpush ⟨.loop, 41, 22, 11, 17⟩),
    (0x9994AD71, .gqpop ⟨.loop, 41, 22, 11, 17⟩),
    (0x99B4AD71, .gqtryPop ⟨.loop, 41, 22, 11, 17⟩),
    (0x99B4AD79, .gqtryPush ⟨.loop, 41, 22, 11, 25⟩),
    (0x99C02D60, .gbar ⟨.loop, 0, 22, 11, 0⟩)
  ] : List (Nat × Instr)).all (fun p => decodeTableWord 32 p.1 == some p.2) = true := by decide +kernel

/-- Words with the fields of the opcode table's rows (R162, R182, R185). -/
theorem test_decode_group_memory_1 : ([
    (0x99F4AD79, .gbarm ⟨.loop, 41, 22, 11, 25⟩)
  ] : List (Nat × Instr)).all (fun p => decodeTableWord 32 p.1 == some p.2) = true := by decide +kernel

/-- Words with the fields of the opcode table's rows (R162, R182, R185). -/
theorem test_decode_group_services_0 : ([
    (0x9A14AD66, .gbwait ⟨.loop, 41, 22, 11, 6⟩),
    (0x9A34AD79, .gbadd ⟨.loop, 41, 22, 11, 25⟩),
    (0x9A402D78, .gcopy ⟨.loop, 0, 22, 11, 24⟩),
    (0x9A402D79, .gcopyFill ⟨.loop, 0, 22, 11, 25⟩),
    (0x9A602D78, .ggather ⟨.loop, 0, 22, 11, 24⟩),
    (0x9A802D78, .gscatter ⟨.loop, 0, 22, 11, 24⟩),
    (0x9A802D79, .gscatterAddf ⟨.loop, 0, 22, 11, 25⟩),
    (0x9A802D7A, .gscatterAddn ⟨.loop, 0, 22, 11, 26⟩),
    (0x9AA02D78, .gcollAllreduce ⟨.loop, 0, 22, 11, 24⟩),
    (0x9AA02D79, .gcollAllgather ⟨.loop, 0, 22, 11, 25⟩),
    (0x9AA02D7A, .gcollReducescatter ⟨.loop, 0, 22, 11, 26⟩),
    (0x9AA02D7B, .gcollBroadcast ⟨.loop, 0, 22, 11, 27⟩),
    (0x9AD48000, .gmfence ⟨.loop, 41, 0, 0, 0⟩),
    (0x9AE02C05, .gmwait ⟨.loop, 0, 22, 5⟩),
    (0x9B14AD66, .gewait ⟨.loop, 41, 22, 11, 6⟩),
    (0x9B34AD79, .gevpost ⟨.loop, 41, 22, 11, 25⟩),
    (0x9B54AC00, .gpin ⟨.loop, 41, 22, 0, 0⟩),
    (0x9B602C00, .gunpin ⟨.loop, 0, 22, 0, 0⟩),
    (0x9B802DA0, .ghint ⟨.loop, 0, 22, 52, 0⟩),
    (0x9BB4AC00, .gwhere ⟨.loop, 41, 22, 0, 0⟩),
    (0x9BD4AC00, .gdup ⟨.loop, 41, 22, 0, 0⟩),
    (0x9BF4ADA0, .gspawn ⟨.loop, 41, 22, 52, 0⟩),
    (0x9C14ADA1, .gcpush ⟨.loop, 41, 22, 52, 1⟩),
    (0x9C202DA0, .gcjoin ⟨.loop, 0, 22, 52, 0⟩),
    (0x9C54ADA3, .glaunch ⟨.loop, 41, 22, 52, 3⟩),
    (0x9C74AC00, .gapon ⟨.loop, 41, 22, 0, 0⟩),
    (0x9C800000, .gapoff ⟨.loop, 0, 0, 0, 0⟩),
    (0x9CB48005, .gid ⟨.loop, 41, 0, 5⟩),
    (0x9CC00000, .gyield ⟨.loop, 0, 0, 0, 0⟩),
    (0x9CF4AD60, .gsplice ⟨.loop, 41, 22, 11, 0⟩),
    (0x9D14AD60, .gkvwalk ⟨.loop, 41, 22, 11, 0⟩),
    (0x9D14AD61, .gkvwalkNode ⟨.loop, 41, 22, 11, 1⟩)
  ] : List (Nat × Instr)).all (fun p => decodeTableWord 32 p.1 == some p.2) = true := by decide +kernel

/-- Words with the fields of the opcode table's rows (R162, R182, R185). -/
theorem test_decode_group_services_1 : ([
    (0x9D34AD60, .gkvref ⟨.loop, 41, 22, 11, 0⟩),
    (0x9D54AD60, .gkvnew ⟨.loop, 41, 22, 11, 0⟩),
    (0x9D74AD60, .grepair ⟨.loop, 41, 22, 11, 0⟩),
    (0x9D94AD60, .grepwm ⟨.loop, 41, 22, 11, 0⟩),
    (0x9D94AD61, .grepwmAbort ⟨.loop, 41, 22, 11, 1⟩),
    (0x9DB4AD60, .gprov ⟨.loop, 41, 22, 11, 0⟩),
    (0x9DB4AD61, .gprovEnt ⟨.loop, 41, 22, 11, 1⟩),
    (0x9DD4AD60, .gring ⟨.loop, 41, 22, 11, 0⟩),
    (0x9DE00042, .gtrap ⟨.loop, 0, 0, 66⟩),
    (0x9E000000, .gtfence ⟨.loop, 0, 0, 0, 0⟩),
    (0x9E200000, .gtret ⟨.loop, 0, 0, 0, 0⟩),
    (0x9E548155, .gsrr ⟨.loop, 41, 0, 341⟩),
    (0x9E602D55, .gsrw ⟨.loop, 0, 22, 341⟩),
    (0x9E94AD55, .gsrxSet ⟨.loop, 41, 22, 341⟩),
    (0x9EB4AD55, .gsrxClr ⟨.loop, 41, 22, 341⟩),
    (0x9EC02DA0, .gtinv ⟨.loop, 0, 22, 52, 0⟩),
    (0x9EF48000, .gtsync ⟨.loop, 41, 0, 0, 0⟩),
    (0x9F14AC00, .gwaitt ⟨.loop, 41, 22, 0, 0⟩),
    (0x9F348001, .gtime ⟨.loop, 41, 0, 1⟩),
    (0x9F402D55, .gsleep ⟨.loop, 0, 22, 341⟩),
    (0x9F600155, .gecall ⟨.loop, 0, 0, 341⟩),
    (0x9F800155, .ghcall ⟨.loop, 0, 0, 341⟩),
    (0x9FB4AD60, .gctxsv ⟨.loop, 41, 22, 11, 0⟩),
    (0x9FB4AD61, .gctxsvTarget ⟨.loop, 41, 22, 11, 1⟩),
    (0x9FD4AD60, .gctxld ⟨.loop, 41, 22, 11, 0⟩),
    (0x9FE00000, .ghalt ⟨.loop, 0, 0, 0, 0⟩)
  ] : List (Nat × Instr)).all (fun p => decodeTableWord 32 p.1 == some p.2) = true := by decide +kernel

/-- An ill-formed term for each check is refused, and so is a step of the device. -/
theorem test_ill_formed_0 : ([
    .vclz ⟨.loop, 41, 22, 1, 5⟩, .vpopc ⟨.loop, 41, 22, 1, 5⟩, .vshli ⟨.loop, 41, 22, 32⟩, .vshri ⟨.loop, 41, 22, 32⟩,
    .vsari ⟨.loop, 41, 22, 32⟩, .vmovi ⟨.loop, 41, 1, 341⟩, .vcmps ⟨.loop, 41, 22, 52, 6⟩, .vcmpn ⟨.loop, 41, 22, 52, 6⟩,
    .vmop ⟨.seq, 1, 2, 0, 7⟩, .vmop ⟨.loop, 41, 22, 52, 5⟩, .vrcp ⟨.loop, 41, 22, 1, 5⟩, .vrsq ⟨.loop, 41, 22, 1, 5⟩,
    .vsqrt ⟨.loop, 41, 22, 1, 5⟩, .vexp2 ⟨.loop, 41, 22, 1, 5⟩, .vlog2 ⟨.loop, 41, 22, 1, 5⟩,
    .vtrigSinpi ⟨.loop, 41, 22, 1, 5⟩, .vtrigCospi ⟨.loop, 41, 22, 1, 5⟩, .vcvt ⟨.loop, 41, 22, 40, 5⟩,
    .vcvt ⟨.loop, 41, 22, 5, 6⟩, .vpk ⟨.loop, 41, 22, 52, 6⟩, .vred ⟨.loop, 41, 22, 1, 5⟩, .vscan ⟨.loop, 41, 22, 1, 5⟩,
    .vvote ⟨.loop, 41, 22, 1, 3⟩, .vvote ⟨.loop, 41, 22, 0, 4⟩, .vprf ⟨.loop, 2, 22, 1, 22⟩, .vprf ⟨.loop, 3, 22, 0, 22⟩,
    .vldsGlN8 ⟨.loop, 41, 22, 11, 4, 2⟩, .vldsGlN16 ⟨.loop, 41, 22, 11, 4, 2⟩, .vldsGlN32 ⟨.loop, 41, 22, 11, 4, 2⟩,
    .vldsGlN64 ⟨.loop, 41, 22, 11, 4, 2⟩, .vldsGlN128 ⟨.loop, 41, 22, 11, 4, 2⟩, .vldsVtN32 ⟨.loop, 41, 22, 11, 4, 2⟩,
    .vstsGlN8 ⟨.loop, 41, 22, 11, 4, 1⟩, .vstsGlN16 ⟨.loop, 41, 22, 11, 4, 1⟩, .vstsGlN32 ⟨.loop, 41, 22, 11, 4, 1⟩,
    .vstsGlN64 ⟨.loop, 41, 22, 11, 4, 1⟩, .vstsGlN128 ⟨.loop, 41, 22, 11, 4, 1⟩, .vstsVtN32 ⟨.loop, 41, 22, 11, 4, 1⟩,
    .vredMAddN32 ⟨.loop, 41, 22, 11, 4, 1⟩, .vredMAddN64 ⟨.loop, 41, 22, 11, 4, 1⟩, .vredMAddF32 ⟨.loop, 41, 22, 11, 4, 1⟩,
    .vredMMinS32 ⟨.loop, 41, 22, 11, 4, 1⟩, .vredMMaxS32 ⟨.loop, 41, 22, 11, 4, 1⟩, .vwld ⟨.loop, 1, 22, 5, 0⟩,
    .vwld ⟨.loop, 0, 22, 5, 1⟩, .vwld ⟨.loop, 0, 22, 6, 0⟩, .vaccrd ⟨.loop, 41, 22, 5, 1, 11⟩,
    .vaccwr ⟨.loop, 41, 22, 5, 1, 11⟩
  ] : List Instr).all (fun i => !i.wellFormed) = true := by decide +kernel

/-- Further ill-formed terms. -/
theorem test_ill_formed_1 : ([
    .vaccz ⟨.loop, 1, 0, 5, 0, 11⟩, .vaccz ⟨.loop, 0, 1, 5, 0, 11⟩, .vaccz ⟨.loop, 0, 0, 5, 1, 11⟩,
    .vwmark ⟨.loop, 41, 1, 5, 0, 11⟩, .vwmark ⟨.loop, 41, 0, 5, 1, 11⟩, .gadd ⟨.loop, 41, 22, 52, 1⟩,
    .gsub ⟨.loop, 41, 22, 52, 1⟩, .gmul ⟨.loop, 41, 22, 52, 1⟩, .gmulh ⟨.loop, 41, 22, 52, 1⟩, .gdiv ⟨.loop, 41, 22, 52, 1⟩,
    .grem ⟨.loop, 41, 22, 52, 1⟩, .gmin ⟨.loop, 41, 22, 52, 2⟩, .gmax ⟨.loop, 41, 22, 52, 2⟩, .gand ⟨.loop, 41, 22, 52, 1⟩,
    .gor ⟨.loop, 41, 22, 52, 1⟩, .gxor ⟨.loop, 41, 22, 52, 1⟩, .gshl ⟨.loop, 41, 22, 52, 1⟩, .gshr ⟨.loop, 41, 22, 52, 1⟩,
    .gsar ⟨.loop, 41, 22, 52, 1⟩, .gclz ⟨.loop, 41, 22, 1, 0⟩, .gclz ⟨.loop, 41, 22, 0, 1⟩, .gpopc ⟨.loop, 41, 22, 1, 0⟩,
    .gpopc ⟨.loop, 41, 22, 0, 1⟩, .gbfx ⟨.loop, 41, 22, 52, 1⟩, .gbfi ⟨.loop, 41, 22, 52, 1⟩,
    .gadd64 ⟨.loop, 41, 22, 52, 1⟩, .gsub64 ⟨.loop, 41, 22, 52, 1⟩, .gmul64 ⟨.loop, 41, 22, 52, 1⟩,
    .gcmp ⟨.loop, 41, 22, 52, 6⟩, .gsel ⟨.loop, 41, 22, 52, 1⟩, .gshli ⟨.loop, 41, 22, 32⟩, .gshri ⟨.loop, 41, 22, 32⟩,
    .gsari ⟨.loop, 41, 22, 32⟩, .gfadd ⟨.loop, 41, 22, 52, 2⟩, .gfsub ⟨.loop, 41, 22, 52, 2⟩, .gfmul ⟨.loop, 41, 22, 52, 2⟩,
    .gfma ⟨.loop, 41, 22, 52, 2⟩, .gfdiv ⟨.loop, 41, 22, 52, 2⟩, .gfsqrt ⟨.loop, 41, 22, 1, 1⟩,
    .gfsqrt ⟨.loop, 41, 22, 0, 2⟩, .gfmnx ⟨.loop, 41, 22, 52, 4⟩, .gfcvt ⟨.loop, 41, 22, 16, 5⟩,
    .gfcvt ⟨.loop, 41, 22, 5, 6⟩, .gtgtr ⟨.loop, 1, 22, 0, 0⟩, .gtgtr ⟨.loop, 0, 22, 1, 0⟩, .gtgtr ⟨.loop, 0, 22, 0, 1⟩,
    .gloop ⟨.loop, 1, 22, 0, 0⟩, .gloop ⟨.loop, 0, 22, 1, 0⟩
  ] : List Instr).all (fun i => !i.wellFormed) = true := by decide +kernel

/-- Further ill-formed terms. -/
theorem test_ill_formed_2 : ([
    .gloop ⟨.loop, 0, 22, 0, 1⟩, .gloopi ⟨.loop, 1, 87381⟩, .gbrk ⟨.loop, 1, 0, 0, 0⟩, .gbrk ⟨.loop, 0, 1, 0, 0⟩,
    .gbrk ⟨.loop, 0, 0, 1, 0⟩, .gbrk ⟨.loop, 0, 0, 0, 1⟩, .gldsGlN32 ⟨.loop, 41, 22, 11, 4, 2⟩,
    .gldsGlN64 ⟨.loop, 41, 22, 11, 4, 2⟩, .gldsVtN32 ⟨.loop, 41, 22, 11, 4, 2⟩, .gstsGlN32 ⟨.loop, 41, 22, 11, 4, 1⟩,
    .gstsGlN64 ⟨.loop, 41, 22, 11, 4, 1⟩, .gstsVtN32 ⟨.loop, 41, 22, 11, 4, 1⟩, .gfence ⟨.loop, 1, 0, 0, 4, 1⟩,
    .gfence ⟨.loop, 0, 1, 0, 4, 1⟩, .gfence ⟨.loop, 0, 0, 1, 4, 1⟩, .gprf ⟨.loop, 2, 22, 1, 22⟩,
    .gprf ⟨.loop, 3, 22, 0, 22⟩, .gqpush ⟨.loop, 41, 22, 11, 8⟩, .gqpop ⟨.loop, 41, 22, 11, 8⟩,
    .gqtryPop ⟨.loop, 41, 22, 11, 8⟩, .gqtryPush ⟨.loop, 41, 22, 11, 0⟩, .gbar ⟨.loop, 1, 22, 11, 0⟩,
    .gbar ⟨.loop, 0, 22, 11, 1⟩, .gbarm ⟨.loop, 41, 22, 11, 2⟩, .gbadd ⟨.loop, 41, 22, 11, 2⟩,
    .gcopy ⟨.loop, 1, 22, 11, 24⟩, .gcopy ⟨.loop, 0, 22, 11, 1⟩, .gcopyFill ⟨.loop, 1, 22, 11, 25⟩,
    .gcopyFill ⟨.loop, 0, 22, 11, 0⟩, .ggather ⟨.loop, 1, 22, 11, 24⟩, .ggather ⟨.loop, 0, 22, 11, 1⟩,
    .gscatter ⟨.loop, 1, 22, 11, 24⟩, .gscatter ⟨.loop, 0, 22, 11, 1⟩, .gscatterAddf ⟨.loop, 1, 22, 11, 25⟩,
    .gscatterAddf ⟨.loop, 0, 22, 11, 0⟩, .gscatterAddn ⟨.loop, 1, 22, 11, 26⟩, .gscatterAddn ⟨.loop, 0, 22, 11, 0⟩,
    .gcollAllreduce ⟨.loop, 1, 22, 11, 24⟩, .gcollAllreduce ⟨.loop, 0, 22, 11, 1⟩, .gcollAllgather ⟨.loop, 1, 22, 11, 25⟩,
    .gcollAllgather ⟨.loop, 0, 22, 11, 0⟩, .gcollReducescatter ⟨.loop, 1, 22, 11, 26⟩,
    .gcollReducescatter ⟨.loop, 0, 22, 11, 0⟩, .gcollBroadcast ⟨.loop, 1, 22, 11, 27⟩,
    .gcollBroadcast ⟨.loop, 0, 22, 11, 0⟩, .gmfence ⟨.loop, 41, 1, 0, 0⟩, .gmfence ⟨.loop, 41, 0, 1, 0⟩,
    .gmfence ⟨.loop, 41, 0, 0, 1⟩
  ] : List Instr).all (fun i => !i.wellFormed) = true := by decide +kernel

/-- Further ill-formed terms. -/
theorem test_ill_formed_3 : ([
    .gmwait ⟨.loop, 1, 22, 5⟩, .gmwait ⟨.loop, 0, 22, 16⟩, .gevpost ⟨.loop, 41, 22, 11, 2⟩, .gpin ⟨.loop, 41, 22, 1, 0⟩,
    .gpin ⟨.loop, 41, 22, 0, 1⟩, .gunpin ⟨.loop, 1, 22, 0, 0⟩, .gunpin ⟨.loop, 0, 22, 1, 0⟩, .gunpin ⟨.loop, 0, 22, 0, 1⟩,
    .ghint ⟨.loop, 1, 22, 52, 0⟩, .ghint ⟨.loop, 0, 22, 52, 1⟩, .gwhere ⟨.loop, 41, 22, 1, 0⟩,
    .gwhere ⟨.loop, 41, 22, 0, 1⟩, .gdup ⟨.loop, 41, 22, 1, 0⟩, .gdup ⟨.loop, 41, 22, 0, 1⟩, .gspawn ⟨.loop, 41, 22, 52, 1⟩,
    .gcpush ⟨.loop, 41, 22, 52, 3⟩, .gcpush ⟨.loop, 41, 22, 52, 0⟩, .gcjoin ⟨.loop, 1, 22, 52, 0⟩,
    .gcjoin ⟨.loop, 0, 22, 52, 1⟩, .glaunch ⟨.loop, 41, 22, 52, 4⟩, .gapon ⟨.loop, 41, 22, 1, 0⟩,
    .gapon ⟨.loop, 41, 22, 0, 1⟩, .gapoff ⟨.loop, 1, 0, 0, 0⟩, .gapoff ⟨.loop, 0, 1, 0, 0⟩, .gapoff ⟨.loop, 0, 0, 1, 0⟩,
    .gapoff ⟨.loop, 0, 0, 0, 1⟩, .gid ⟨.loop, 41, 1, 5⟩, .gid ⟨.loop, 41, 0, 9⟩, .gyield ⟨.loop, 1, 0, 0, 0⟩,
    .gyield ⟨.loop, 0, 1, 0, 0⟩, .gyield ⟨.loop, 0, 0, 1, 0⟩, .gyield ⟨.loop, 0, 0, 0, 1⟩, .gsplice ⟨.loop, 41, 22, 11, 1⟩,
    .gkvwalk ⟨.loop, 41, 22, 11, 1⟩, .gkvwalkNode ⟨.loop, 41, 22, 11, 0⟩, .gkvref ⟨.loop, 41, 22, 11, 1⟩,
    .gkvnew ⟨.loop, 41, 22, 11, 1⟩, .grepair ⟨.loop, 41, 22, 11, 1⟩, .grepwm ⟨.loop, 41, 22, 11, 1⟩,
    .grepwmAbort ⟨.loop, 41, 22, 11, 0⟩, .gprov ⟨.loop, 41, 22, 11, 1⟩, .gprovEnt ⟨.loop, 41, 22, 11, 0⟩,
    .gring ⟨.loop, 41, 22, 11, 1⟩, .gtrap ⟨.loop, 1, 0, 66⟩, .gtrap ⟨.loop, 0, 1, 66⟩, .gtrap ⟨.loop, 0, 0, 256⟩,
    .gtfence ⟨.loop, 1, 0, 0, 0⟩, .gtfence ⟨.loop, 0, 1, 0, 0⟩
  ] : List Instr).all (fun i => !i.wellFormed) = true := by decide +kernel

/-- Further ill-formed terms. -/
theorem test_ill_formed_4 : ([
    .gtfence ⟨.loop, 0, 0, 1, 0⟩, .gtfence ⟨.loop, 0, 0, 0, 1⟩, .gtret ⟨.loop, 1, 0, 0, 0⟩, .gtret ⟨.loop, 0, 1, 0, 0⟩,
    .gtret ⟨.loop, 0, 0, 1, 0⟩, .gtret ⟨.loop, 0, 0, 0, 1⟩, .gsrr ⟨.loop, 41, 1, 341⟩, .gsrw ⟨.loop, 1, 22, 341⟩,
    .gtinv ⟨.loop, 1, 22, 52, 0⟩, .gtinv ⟨.loop, 0, 22, 52, 1⟩, .gtsync ⟨.loop, 41, 1, 0, 0⟩, .gtsync ⟨.loop, 41, 0, 1, 0⟩,
    .gtsync ⟨.loop, 41, 0, 0, 1⟩, .gwaitt ⟨.loop, 41, 22, 1, 0⟩, .gwaitt ⟨.loop, 41, 22, 0, 1⟩, .gtime ⟨.loop, 41, 1, 1⟩,
    .gtime ⟨.loop, 41, 0, 2⟩, .gsleep ⟨.loop, 1, 22, 341⟩, .gecall ⟨.loop, 1, 0, 341⟩, .gecall ⟨.loop, 0, 1, 341⟩,
    .ghcall ⟨.loop, 1, 0, 341⟩, .ghcall ⟨.loop, 0, 1, 341⟩, .gctxsv ⟨.loop, 41, 22, 11, 1⟩,
    .gctxsvTarget ⟨.loop, 41, 22, 11, 0⟩, .gctxld ⟨.loop, 41, 22, 11, 1⟩, .ghalt ⟨.loop, 1, 0, 0, 0⟩,
    .ghalt ⟨.loop, 0, 1, 0, 0⟩, .ghalt ⟨.loop, 0, 0, 1, 0⟩, .ghalt ⟨.loop, 0, 0, 0, 1⟩, .trapEntry 0 0,
    .recordDispatch 0 64, .sideLogReplay 0, .mcmdResume 3, .counterClear
  ] : List Instr).all (fun i => !i.wellFormed) = true := by decide +kernel

/-- `tS` with these lanes active and these registers. -/
def tRun (mask : Mask) (regs : List (Nat × Word)) : State :=
  { tS with g := { tS.g with s0 := ⟨true, 0x10000, mask, .none⟩, regs := regs } }

/-- The word decodes, and its instruction answers a state in which the cause is as given, FLAGS too, and the keys hold the values. -/
noncomputable def runsTo (w : Nat) (s : State) (cause : Word) (flags : Word) (want : List (Nat × Word)) : Bool :=
  match decode (BitVec.ofNat 32 w) with
  | .ok i => match exec i s with
    | .next t => t.g.trap.tcause &&& 0xFF == cause && t.g.flags == flags && want.all fun p => storeGet 0 t.g.regs p.1 == p.2
    | _ => false
  | .error _ => false

/-- The words that the examples of R161, R182 and of the chapters' tables print beside their source lines. -/
theorem test_words_of_the_examples : ([
    (0x7A44E000, .vstGlN32 ⟨.stop, 9, 48, 0, 0⟩), (0x80D86391, .gmin ⟨.seq, 48, 49, 50, 1⟩),
    (0x03420A03, .vshli ⟨.seq, 4, 5, 3⟩), (0x06E18414, .vcvt ⟨.seq, 3, 2, 2, 4⟩), (0x07B98E01, .vred ⟨.seq, 51, 7, 0, 1⟩),
    (0x084304BE, .vldGlS16 ⟨.seq, 6, 2, 5, -2⟩), (0x0B84684D, .vldsGlN32 ⟨.seq, 8, 52, 2, 3, 1⟩),
    (0x0D450894, .vatomAddN32 ⟨.seq, 10, 4, 4, 5, 0⟩), (0x7C44E012, .vstsGlN32 ⟨.stop, 9, 48, 0, 4, 2⟩),
    (0x0F204000, .vmmq ⟨.seq, 0, 32, 0, 0, 0⟩), (0x0F404000, .vwld ⟨.seq, 0, 32, 0, 0⟩), (0x0F400040, .vwld ⟨.seq, 0, 0, 8, 0⟩),
    (0x0F746A42, .vaccrd ⟨.seq, 40, 53, 1, 0, 2⟩), (0x0F846A00, .vaccwr ⟨.seq, 8, 53, 0, 0, 0⟩),
    (0x09AA6041, .vkvld ⟨.seq, 20, 48, 2, 1⟩), (0x8D1A6060, .gkvwalk ⟨.seq, 52, 48, 3, 0⟩),
    (0x8CFB6400, .gsplice ⟨.seq, 54, 50, 0, 0⟩), (0x8DD86800, .gring ⟨.seq, 48, 52, 0, 0⟩),
    (0x80186390, .gadd ⟨.seq, 48, 49, 50, 0⟩), (0x83D9ABCD, .gmovi ⟨.seq, 51, 0x2BCD⟩), (0x83E62469, .gmovhi ⟨.seq, 3, 0x2469⟩),
    (0x8523E193, .gfcmp ⟨.seq, 7, 48, 50, 3⟩), (0x855FFFFD, .gtgt ⟨.seq, -3⟩), (0x85A00009, .gloopi ⟨.seq, 0, 9⟩),
    (0x863A6041, .gldGlN64 ⟨.seq, 52, 48, 2, 1⟩), (0x881B602C, .gatomAddN32 ⟨.seq, 54, 48, 1, 3, 0⟩),
    (0x87C00012, .gfence ⟨.seq, 0, 0, 0, 4, 2⟩), (0x897A6001, .gqpush ⟨.seq, 52, 48, 0, 1⟩),
    (0x899C6241, .gqpop ⟨.seq, 56, 49, 2, 1⟩), (0x89FB6425, .gbarm ⟨.seq, 54, 50, 1, 5⟩),
    (0x8E000000, .gtfence ⟨.seq, 0, 0, 0, 0⟩), (0x8E5A0000, .gsrr ⟨.seq, 52, 0, 0⟩), (0x8E606A04, .gsrw ⟨.seq, 0, 53, 4⟩),
    (0x8EFB0000, .gtsync ⟨.seq, 54, 0, 0, 0⟩), (0x8FBA6001, .gctxsvTarget ⟨.seq, 52, 48, 0, 1⟩)
  ] : List (Nat × Instr)).all (fun p => decodeTableWord 32 p.1 == some p.2) = true := by decide +kernel

/-- The words of R182 and the encodings of chapter 11 that raise 0x01 or 0x02. -/
theorem test_words_refused :
    decode 0x09E00000 = .error .unassigned ∧ decode 0x85E00000 = .error .unassigned ∧
    decode 0x80D86393 = .error .reserved ∧ decode 0x06E18416 = .error .reserved ∧
    decode 0x03C00006 = .error .reserved ∧ decode 0x04E00007 = .error .reserved ∧ tS.g.live = true ∧ tS.onAp = false := by
  decide +kernel

/-- The example of R199 with the word of chapter 11: 300.0 to 288 with NX. -/
theorem test_vcvt_e4m3 : runsTo 0x06E18414 (tRun 1 [(64, 0x43960000)]) 0 0x10 [(96, 0x79)] = true := by decide +kernel
/-- The example of R199: 470.0 rounds to nearest past the format, to NaN with OF and NX. -/
theorem test_vcvt_e4m3_overflow : runsTo 0x06E18410 (tRun 1 [(64, 0x43EB0000)]) 0 0x14 [(96, 0x7F)] = true := by decide +kernel
/-- The example of chapter 11: k3 for the tree of R223. -/
theorem test_vred_tree :
    runsTo 0x07B98E01 (tRun 0xF [(224, 0x4B800000), (225, 0x3F800000), (226, 0x3F800000), (227, 0x3F800000)]) 0 0x10
      [(1539, 0x4B800001)] = true := by decide +kernel
/-- The example of chapter 11: v8 for the order of R224. -/
theorem test_vscan_order :
    runsTo 0x07C40E01 (tRun 0xF [(224, 0x4B800000), (225, 0x3F800000), (226, 0x3F800000), (227, 0x3F800000)]) 0 0x10
      [(256, 0x4B800000), (257, 0x4B800000), (258, 0x4B800000), (259, 0x4B800000)] = true := by decide +kernel
/-- The table of chapter 11: a vscan to a k register raises 0x03 (here with add.f32). -/
theorem test_vscan_to_k : runsTo 0x07D98E01 (tRun 0xF []) 3 0 [(1539, 0)] = true := by decide +kernel
/-- The example of R210. -/
theorem test_vbfx_short : runsTo 0x02808430 (tRun 1 [(64, 0xA0000000), (192, 0x0001071C)]) 0 0 [(32, 0xFFFFFFFA)] = true := by decide +kernel
/-- The example of R201: elements 13 and 2 of the code byte 0x2D. -/
theorem test_vq4dec :
    runsTo 0x07200420 (tRun 3 [(64, 0x2D), (65, 0x2D), (128, 0x40000000), (129, 0x40000000), (160, 127), (161, 0x17F)]) 0 0
      [(0, 0x3F0A0000), (1, 0xBF0A0000)] = true := by decide +kernel
/-- R208: sums wrap, and a register may be source and destination. -/
theorem test_vadd_wraps : runsTo 0x00010410 (tRun 1 [(64, 0xFFFFFFFF)]) 0 0 [(64, 0xFFFFFFFE)] = true := by decide +kernel
/-- R276: a division by zero. -/
theorem test_gdiv_zero : runsTo 0x80986390 (tRun 1 [(1537, 7)]) 0 2
    [(1536, 0xFFFFFFFF)] = true := by decide +kernel
/-- The table of chapter 16: gtrap 0x42 names a reserved code and delivers 0x0F. -/
theorem test_gtrap : runsTo 0x8DE00042 (tRun 1 []) 0x0F 0 [] = true := by decide +kernel
/-- R284: gloopi 9 pushes the address after it and the count. -/
theorem test_gloopi : (match exec (.gloopi ⟨.seq, 0, 9⟩) (tRun 1 []) with
    | .next t => t.g.seq.lsn == 1 && t.g.seq.loops.head? == some (0x10004, 9) | _ => false) = true := by decide +kernel
/-- A step from the placed word runs it: gtrap 0x42. -/
theorem test_step_placed : (match step (State.reset.withFetchWord 32 0x8DE00042) with
    | .next t => t.g.trap.tcause &&& 0xFF == 0x0F | _ => false) = true := by decide +kernel

end Sys2Proof.Tests
end

section
/-! The device's own writes: what bytes hold after writes in their order, and the frames of an RMW for the group and of a write at a
physical address. -/

namespace Sys2Proof.Machine

/-! ## Writes in their order -/

/-- Writes in their order leave each key with its last write. -/
theorem writeAll_eq (m : Nat → Byte) (ws : List (Nat × Byte)) (k : Nat) :
    Claims.writeAll m ws k = (lastWrite ws k).getD (m k) := by
  induction ws generalizing m with
  | nil => rfl
  | cons w ws ih =>
    obtain ⟨a, b⟩ := w
    refine (ih _).trans ?_
    rw [lastWrite_cons]
    cases lastWrite ws k <;> simp [eq_comm]
    split <;> simp

theorem writeAll_cons (m : Nat → Byte) (k : Nat) (b : Byte) (ws : List (Nat × Byte)) :
    Claims.writeAll m ((k, b) :: ws) = Claims.writeAll (fun a => if a = k then b else m a) ws := rfl

theorem writeAll_of_not_mem (m : Nat → Byte) {k : Nat} {ks : List Nat} {bs : List Byte} (h : k ∉ ks) :
    Claims.writeAll m (ks.zip bs) k = m k := by
  induction ks generalizing m bs with
  | nil => rfl
  | cons a ks ih =>
    cases bs with
    | nil => rfl
    | cons b bs =>
      have ha := List.ne_of_not_mem_cons h
      have hks := List.not_mem_of_not_mem_cons h
      rw [List.zip_cons_cons, writeAll_cons, ih _ hks, if_neg ha]

/-- Bytes written at distinct keys read back. -/
theorem map_writeAll (m : Nat → Byte) {ks : List Nat} {bs : List Byte} (hd : ks.Nodup) (hl : ks.length = bs.length) :
    ks.map (Claims.writeAll m (ks.zip bs)) = bs := by
  induction ks generalizing m bs with
  | nil => exact (List.length_eq_zero_iff.1 hl.symm).symm
  | cons k ks ih =>
    cases bs with
    | nil => simp at hl
    | cons b bs =>
      obtain ⟨hk, hks⟩ := List.nodup_cons.1 hd
      rw [List.zip_cons_cons, List.map_cons, writeAll_cons, writeAll_of_not_mem _ hk, if_pos rfl, ih _ hks (by simpa using hl)]

@[simp] theorem length_bytesOfNat (n x : Nat) : (bytesOfNat n x).length = n := by
  induction n generalizing x with
  | zero => rfl
  | succ n ih => simp [bytesOfNat, ih]

theorem natOfBytes_bytesOfNat (n x : Nat) : natOfBytes (bytesOfNat n x) = x % 256 ^ n := by
  induction n generalizing x with
  | zero => simp [bytesOfNat, natOfBytes, Nat.mod_one]
  | succ n ih =>
    rw [bytesOfNat, natOfBytes, ih, BitVec.toNat_ofNat, Nat.pow_succ' (m := 256)]
    exact Nat.mod_mul.symm

@[simp] theorem length_physKeys (s : State) (pa n : Nat) : (physKeys s pa n).length = n := by
  unfold physKeys
  split <;> simp

/-! ## Loads that have returned -/

theorem getLsbD_foldl_or (p : Nat → Bool) (ls : List Nat) (m : Mask) {i : Nat} (hi : i < 32) :
    (ls.foldl (fun m l => if p l then m ||| (1#32 <<< l) else m) m).getLsbD i = (m.getLsbD i || (ls.contains i && p i)) := by
  induction ls generalizing m with
  | nil => simp
  | cons l ls ih =>
    rw [List.foldl_cons, ih]
    by_cases hp : p l
    · by_cases hl : i = l
      · subst hl; simp [hp, hi]
      · have : (1#32 <<< l).getLsbD i = false := by simp; omega
        simp [hp, hl, this]
    · by_cases hl : i = l
      · subst hl; simp [hp]
      · simp [hp, hl]

theorem getLsbD_maskOf (p : Nat → Bool) {i : Nat} (hi : i < 32) : (maskOf p).getLsbD i = p i := by
  unfold maskOf
  rw [getLsbD_foldl_or _ _ _ hi]
  simp [hi]

/-- A landing of lanes leaves none of their loads in flight. -/
theorem flying_land (m : Mask) (w : Window) : (Window.land m w).flying &&& m = 0 := by
  unfold Window.land
  split
  · assumption
  · refine BitVec.eq_of_getLsbD_eq fun i hi => ?_
    split
    · simp [Window.flying, getLsbD_maskOf _ hi]
    · simp only [Window.flying, BitVec.getLsbD_and, getLsbD_maskOf _ hi]
      simp [lane]

theorem land_land (m : Mask) (w : Window) : Window.land m (Window.land m w) = Window.land m w :=
  if_pos (flying_land m w)

theorem land_eq_claims (m : Mask) : Window.land m = Claims.land m := by
  funext w
  unfold Window.land Claims.land
  split
  · rfl
  · split <;> rfl

/-! ## Writes at a physical address -/

/-- `t` is `s` but for what bytes hold: their values, their records and which are undefined. -/
def BytesOnly (s t : State) : Prop :=
  t = { s with ms := { s.ms with mem := t.ms.mem, hist := t.ms.hist, undef := t.ms.undef } }

theorem BytesOnly.trans {s t u : State} (h : BytesOnly s t) (k : BytesOnly t u) : BytesOnly s u := by
  unfold BytesOnly at *
  rw [h] at k
  exact k

theorem BytesOnly.foldl {β : Type} (f : State → β → State) (hf : ∀ s x, BytesOnly s (f s x)) (l : List β) (s : State) :
    BytesOnly s (l.foldl f s) := by
  induction l generalizing s with
  | nil => rfl
  | cons x l ih => exact (hf s x).trans (ih _)

theorem BytesOnly.putRec (s : State) (w : WriteRec) : BytesOnly s (putRec s w) := rfl

theorem bytesOnly_devPutKeys (s : State) (ks : List Nat) (bs : List Byte) :
    BytesOnly { s with fresh := s.fresh + 1 } (devPutKeys s ks bs) := by
  refine BytesOnly.foldl _ (fun u x => ?_) _ _
  dsimp only
  split
  · rfl
  · exact BytesOnly.putRec ..

theorem homeByte_physPut (s : State) (pa n x k : Nat) :
    homeByte (physPut s pa n x) k = Claims.writeAll (homeByte s) ((physKeys s pa n).zip (bytesOfNat n x)) k := by
  rw [writeAll_eq]
  exact homeByte_devPutKeys ..

theorem physNat_physPut {s : State} {pa n : Nat} (x : Nat) (h : (physKeys s pa n).Nodup) :
    physNat (physPut s pa n x) pa n = x % 256 ^ n := by
  have hk : physKeys (physPut s pa n x) pa n = physKeys s pa n := by
    rw [show physPut s pa n x = _ from memOnly_physPut s pa n x]
    rfl
  unfold physNat homeNat
  rw [hk, funext (homeByte_physPut s pa n x), map_writeAll _ h (by simp), natOfBytes_bytesOfNat]

/-! ## RMWs for the group -/

/-- `t` is what an access leaves of `s`, whatever it does to the order and the windows of the group. -/
def Accesses (s t : State) : Prop := Claims.Accessed s t { s.g with ord := t.g.ord, wins := t.g.wins }

theorem Accesses.trans {s t u : State} (h : Accesses s t) (k : Accesses t u) : Accesses s u := by
  unfold Accesses Claims.Accessed at *
  rw [h] at k
  exact k

theorem Accesses.onAp {s t : State} (h : Accesses s t) : t.onAp = s.onAp := by
  rw [show t = _ from h]

theorem accesses_arriveIf (s : State) (p : WriteRec → Bool) : Accesses s (arriveIf s p) := rfl

theorem accesses_takeFresh (s : State) : Accesses s (takeFresh s).2 := rfl

theorem accesses_noteStrong (s : State) (ks : List Nat) : Accesses s (noteStrong s ks) := rfl

theorem accesses_performAt (s : State) (m : Mask) (ks : List Nat) : Accesses s (performAt s m ks) := rfl

theorem accesses_putBytes (s : State) (p : Party) (ev : Nat) (w : Option Nat) (b : Bool) (scope : Nat) (rels : List Rel) (ks : List Nat)
    (bs : List Byte) : Accesses s (putBytes s p ev w b scope rels ks bs) := by
  have h : BytesOnly s (putBytes s p ev w b scope rels ks bs) := BytesOnly.foldl _ (fun _ _ => BytesOnly.putRec ..) _ _
  rw [show putBytes s p ev w b scope rels ks bs = _ from h]
  rfl

theorem learnFor_group {s : State} (hs : s.onAp = false) (ids : List Nat) (m : Mask) :
    learnFor s ids m = { s with g := { s.g with ord := learn s.g.ord ids m } } := by
  simp [learnFor, hs]

theorem landed_group {s : State} (hs : s.onAp = false) (m : Mask) :
    landed s m = { s with g := { s.g with wins := s.g.wins.map (Window.land m) } } := by
  simp [landed, hs]

theorem accesses_learnFor {s : State} (hs : s.onAp = false) (ids : List Nat) (m : Mask) : Accesses s (learnFor s ids m) := by
  rw [learnFor_group hs]; rfl

theorem accesses_landed {s : State} (hs : s.onAp = false) (m : Mask) : Accesses s (landed s m) := by
  rw [landed_group hs]; rfl

theorem landed_mem {s : State} (hs : s.onAp = false) (m : Mask) : (landed s m).ms.mem = s.ms.mem := by rw [landed_group hs]

theorem learnFor_mem {s : State} (hs : s.onAp = false) (ids : List Nat) (m : Mask) : (learnFor s ids m).ms.mem = s.ms.mem := by
  rw [learnFor_group hs]

theorem landed_wins {s : State} (hs : s.onAp = false) (m : Mask) : (landed s m).g.wins = s.g.wins.map (Window.land m) := by
  rw [landed_group hs]

theorem learnFor_wins {s : State} (hs : s.onAp = false) (ids : List Nat) (m : Mask) : (learnFor s ids m).g.wins = s.g.wins := by
  rw [learnFor_group hs]

theorem putBytes_wins (s : State) (p : Party) (ev : Nat) (w : Option Nat) (b : Bool) (scope : Nat) (rels : List Rel) (ks : List Nat)
    (bs : List Byte) : (putBytes s p ev w b scope rels ks bs).g.wins = s.g.wins := by
  rw [show putBytes s p ev w b scope rels ks bs = _ from memOnly_putBytes ..]

/-- A release by the group writes from a state in which its loads have returned and no byte has changed. -/
theorem putObject_release {s : State} (hs : s.onAp = false) (m : Mask) (scope x : Nat) (ks : List Nat) :
    ∃ t p ev rels, putObject s m scope true ks x =
        learnFor (noteStrong (strongPut t p ev scope rels ks (bytesOfNat ks.length x)) ks) [ev] m ∧
      Accesses s t ∧ t.g.wins = s.g.wins.map (Claims.land m) ∧ t.ms.mem = s.ms.mem := by
  have hmet := (accesses_landed hs m).trans (accesses_performAt _ m ks)
  have hap : (performAt (landed s m) m ks).onAp = false := hmet.onAp.trans hs
  refine ⟨_, _, _, _, rfl, ?_, ?_, ?_⟩
  · exact ((hmet.trans (accesses_landed hap m)).trans (accesses_arriveIf _ _)).trans (accesses_takeFresh _)
  · calc (landed (performAt (landed s m) m ks) m).g.wins = (landed s m).g.wins.map (Window.land m) := landed_wins hap m
      _ = (s.g.wins.map (Window.land m)).map (Window.land m) := by rw [landed_wins hs]
      _ = s.g.wins.map (Claims.land m) := by
        rw [List.map_map, ← land_eq_claims]
        exact List.map_congr_left fun w _ => land_land m w
  · calc (landed (performAt (landed s m) m ks) m).ms.mem = (landed s m).ms.mem := landed_mem hap m
      _ = s.ms.mem := landed_mem hs m

/-- What an RMW of the group that releases leaves: its frame, its windows and its bytes. -/
theorem putObject_spec {s : State} (hs : s.onAp = false) (m : Mask) (scope x : Nat) (ks : List Nat) :
    Accesses s (putObject s m scope true ks x) ∧ (putObject s m scope true ks x).g.wins = s.g.wins.map (Claims.land m) ∧
      ∀ k, homeByte (putObject s m scope true ks x) k = Claims.writeAll (homeByte s) (ks.zip (bytesOfNat ks.length x)) k := by
  obtain ⟨t, p, ev, rels, he, hframe, hwins, hmem⟩ := putObject_release hs m scope x ks
  have hput : Accesses s (noteStrong (strongPut t p ev scope rels ks (bytesOfNat ks.length x)) ks) :=
    (hframe.trans (accesses_putBytes ..)).trans (accesses_noteStrong _ _)
  have hap := hput.onAp.trans hs
  rw [he]
  refine ⟨hput.trans (accesses_learnFor hap _ _), ?_, fun k => ?_⟩
  · rw [learnFor_wins hap]
    exact (putBytes_wins ..).trans hwins
  · have hk : homeByte t = homeByte s := by unfold homeByte; rw [hmem]
    rw [writeAll_eq, homeByte, learnFor_mem hap, ← hk]
    exact homeByte_putBytes ..

/-! ## Counts of sectors -/

/-- `t` is `s` but for the hotness counts and proposals. -/
def Counted (s t : State) : Prop := t = { s with ld := { s.ld with hot := t.ld.hot, proposals := t.ld.proposals } }

theorem Counted.trans {s t u : State} (h : Counted s t) (k : Counted t u) : Counted s u := by
  unfold Counted at *
  rw [h] at k
  exact k

theorem Counted.migMode {s t : State} (h : Counted s t) (vf : Nat) : migMode t vf = migMode s vf := by
  rw [show t = _ from h]; rfl

theorem Counted.g {s t : State} (h : Counted s t) : t.g = s.g := by rw [show t = _ from h]

theorem Counted.ms {s t : State} (h : Counted s t) : t.ms = s.ms := by rw [show t = _ from h]

theorem Counted.accesses {s t : State} (h : Counted s t) : Accesses s t := by
  rw [show t = _ from h]; rfl

/-- Without a ring a proposal changes nothing else and is no cause (R98). -/
theorem counted_fileProposal {s : State} {a : Acc} (hm : migMode s a.vf ≠ 2) (src va level pte : Nat) (what : Nat × Nat × Nat)
    (asked : Bool) :
    Counted s (fileProposal s a src va level pte what asked).1 ∧ (fileProposal s a src va level pte what asked).2 = false := by
  unfold fileProposal
  dsimp only
  generalize (decide (2 ≤ _) || _ || _) = stays
  cases stays with
  | true => exact ⟨rfl, rfl⟩
  | false =>
    rw [if_neg Bool.false_ne_true, if_neg hm]
    split <;> exact ⟨rfl, rfl⟩

theorem counted_hot (s : State) (x : Store Nat) : Counted s { s with ld := { s.ld with hot := x } } := rfl

theorem counted_countSector {s : State} {a : Acc} (hm : migMode s a.vf ≠ 2) (va : Nat) (g : Page) :
    Counted s (countSector s a va g).1 ∧ (countSector s a va g).2 = false := by
  have hfile (x : Store Nat) := counted_fileProposal (s := { s with ld := { s.ld with hot := x } }) (a := a) hm a.die va g.level
    g.pte (ladleAction a.die g.pte) false
  unfold countSector
  dsimp only
  split
  · obtain ⟨hc, hn⟩ := hfile _
    exact ⟨(counted_hot s _).trans hc, hn⟩
  · exact ⟨counted_hot s _, rfl⟩

theorem counted_countLater {s : State} {d : DirtySector} (hm : migMode s d.vf ≠ 2) (m : Mask) : Counted s (countLater s d m) := by
  obtain ⟨hc, hn⟩ := counted_countSector (a := ⟨d.vf, d.ident, d.mode, d.die⟩) hm d.va ⟨d.pa, d.level, d.pte, 0⟩
  unfold countLater
  dsimp only
  rw [hn]
  exact hc

theorem counted_countVa {s : State} {a : Acc} (hm : migMode s a.vf ≠ 2) (u : Use) (fixed : Bool) (va n : Nat) :
    Counted s (countVa s a u fixed va n) := by
  refine List.foldlRecOn (motive := Counted s) _ _ rfl fun t ht x _ => ?_
  split
  · exact ht
  · exact ht.trans (counted_countLater (by rw [ht.migMode]; exact hm) _)

/-! ## The device's own writes -/

/-- An RMW for the group on bytes that it reaches. -/
theorem vaRmw_spec {s : State} {a : Acc} {va n : Nat} {keys : List Nat} (x : Nat) (hs : s.onAp = false)
    (hat : Claims.At s a .store va n keys) (hm : migMode s a.vf ≠ 2) (hz : (vfReg s s.g.who.vf 0x030).getLsbD 1 = false) :
    ∃ e, vaRmw s a va n x = .ok e ∧
      Claims.Accessed s e { s.g with ord := e.g.ord, wins := s.g.wins.map (Claims.land (active s)) } ∧
      ∀ key, homeByte e key = Claims.writeAll (homeByte s) (keys.zip (bytesOfNat keys.length x)) key := by
  have hsize : mixedSize s keys = false := by
    unfold mixedSize mixedFor mszOf
    rw [hz, Bool.false_and]
  have hcount := counted_countVa hm .store true va n
  have hc : (countVa s a .store true va n).onAp = false := hcount.accesses.onAp.trans hs
  have hacq : Accesses s (acquireFrom (countVa s a .store true va n) 3 (keys.headD 0)) :=
    hcount.accesses.trans (accesses_learnFor hc _ _)
  have hacqWins : (acquireFrom (countVa s a .store true va n) 3 (keys.headD 0)).g.wins = s.g.wins :=
    (learnFor_wins hc _ _).trans (by rw [hcount.g])
  have hacqMem : (acquireFrom (countVa s a .store true va n) 3 (keys.headD 0)).ms.mem = s.ms.mem :=
    (learnFor_mem hc _ _).trans (by rw [hcount.ms])
  obtain ⟨hput, hwins, hbytes⟩ := putObject_spec (hacq.onAp.trans hs) (active s) 3 x keys
  refine ⟨_, ?_, ?_, fun key => (hbytes key).trans ?_⟩
  · unfold vaRmw
    rw [show vaKeys s a .store va n = _ from hat]
    dsimp only
    rw [hsize, if_neg Bool.false_ne_true]
  · have hframe := hacq.trans hput
    rw [Accesses, hwins, hacqWins] at hframe
    exact hframe
  · rw [show homeByte (acquireFrom _ _ _) = homeByte s by unfold homeByte; rw [hacqMem]]

theorem physPut_spec (s : State) (pa n x : Nat) : physPut s pa n x =
    { s with
      ms := { s.ms with mem := (physPut s pa n x).ms.mem, hist := (physPut s pa n x).ms.hist, undef := (physPut s pa n x).ms.undef }
      fresh := s.fresh + 1 } := bytesOnly_devPutKeys ..

/-- Settles O24: an RMW is a count of sectors, an acquire and a release; a write at a physical address is a fold over its bytes. -/
theorem deviceAccesses : Obligations.DeviceAccesses :=
  ⟨fun _ _ _ _ x _ hs hat hm hz => vaRmw_spec x hs hat hm hz,
    fun s pa n x => ⟨physPut_spec s pa n x, homeByte_physPut s pa n x, physNat_physPut x⟩⟩

end Sys2Proof.Machine
end

section
/-! The canonical form of memory is kept: what each kind of result keeps, and the rules for branches, folds and updates. -/

namespace Sys2Proof.Machine

/-! ## What an operation gives -/

/-- What a computation that may stop gives meets a predicate. -/
def OkWith {ε α : Type} (P : α → Prop) : Except ε α → Prop
  | .ok x => P x
  | .error _ => True

/-- What is given, if anything is, meets a predicate. -/
def SomeWith {α : Type} (P : α → Prop) : Option α → Prop
  | some x => P x
  | none => True

/-- What a computation gives meets a predicate, and so does what stops it. -/
def EndsWith {ε α : Type} (E : ε → Prop) (P : α → Prop) : Except ε α → Prop
  | .ok x => P x
  | .error e => E e

/-- The state given beside a value holds the invariant. -/
def PairInv {α : Type} (x : α × State) : Prop := StateInv x.2

/-- The state in which an effect leaves the machine holds the invariant. -/
def ResInv : Res → Prop
  | .ok s | .after s _ | .wait _ s | .over s | .stop s => StateInv s
  | .trap _ => True

/-- The state in which a record is queued or discarded holds the invariant. -/
def EnqInv : Enq → Prop
  | .done s | .discard s _ => StateInv s

/-- A next state holds the invariant. -/
def NextInv : Host.Outcome State Fault Refusal → Prop
  | .next s => StateInv s
  | _ => True

/-- The state in which a step begins holds the invariant. -/
def PlanInv : Plan → Prop
  | .idle s | .drop s | .event _ s | .entry _ s | .issue s | .redo s _ _ | .slice s _ => StateInv s

/-- A computation for the group that acts keeps the invariant. -/
def KvInv {α : Type} (m : Kv α) : Prop := ∀ s, StateInv s → OkWith PairInv (m s)

theorem OkWith.get {ε α : Type} {P : α → Prop} {r : Except ε α} {x : α} (h : OkWith P r) (e : r = .ok x) : P x := by
  rw [e] at h; exact h

theorem EndsWith.get {ε α : Type} {E : ε → Prop} {P : α → Prop} {r : Except ε α} {x : α} (h : EndsWith E P r)
    (e : r = .ok x) : P x := by
  rw [e] at h; exact h

theorem EndsWith.err {ε α : Type} {E : ε → Prop} {P : α → Prop} {r : Except ε α} {x : ε} (h : EndsWith E P r)
    (e : r = .error x) : E x := by
  rw [e] at h; exact h

theorem SomeWith.get {α : Type} {P : α → Prop} {o : Option α} {x : α} (h : SomeWith P o) (e : o = some x) : P x := by
  rw [e] at h; exact h

theorem PairInv.of_eq {α : Type} {p q : α × State} (h : PairInv p) (e : p = q) : PairInv q := e ▸ h

theorem EnqInv.of_eq {r q : Enq} (h : EnqInv r) (e : r = q) : EnqInv q := e ▸ h

theorem PlanInv.of_eq {p q : Plan} (h : PlanInv p) (e : p = q) : PlanInv q := e ▸ h

theorem ResInv.of_eq {r q : Res} (h : ResInv r) (e : r = q) : ResInv q := e ▸ h

theorem okWith_ite {ε α : Type} {P : α → Prop} {p : Prop} [Decidable p] {a b : Except ε α} (h : OkWith P a) (k : OkWith P b) :
    OkWith P (if p then a else b) := by
  split <;> assumption

theorem endsWith_ite {ε α : Type} {E : ε → Prop} {P : α → Prop} {p : Prop} [Decidable p] {a b : Except ε α}
    (h : EndsWith E P a) (k : EndsWith E P b) : EndsWith E P (if p then a else b) := by
  split <;> assumption

theorem someWith_ite {α : Type} {P : α → Prop} {p : Prop} [Decidable p] {a b : Option α} (h : SomeWith P a) (k : SomeWith P b) :
    SomeWith P (if p then a else b) := by
  split <;> assumption

theorem pairInv_ite {α : Type} {p : Prop} [Decidable p] {a b : α × State} (h : PairInv a) (k : PairInv b) :
    PairInv (if p then a else b) := by
  split <;> assumption

theorem resInv_ite {p : Prop} [Decidable p] {a b : Res} (h : ResInv a) (k : ResInv b) : ResInv (if p then a else b) := by
  split <;> assumption

theorem enqInv_ite {p : Prop} [Decidable p] {a b : Enq} (h : EnqInv a) (k : EnqInv b) : EnqInv (if p then a else b) := by
  split <;> assumption

theorem nextInv_ite {p : Prop} [Decidable p] {a b : Host.Outcome State Fault Refusal} (h : NextInv a) (k : NextInv b) :
    NextInv (if p then a else b) := by
  split <;> assumption

theorem planInv_ite {p : Prop} [Decidable p] {a b : Plan} (h : PlanInv a) (k : PlanInv b) : PlanInv (if p then a else b) := by
  split <;> assumption

theorem kvInv_ite {α : Type} {p : Prop} [Decidable p] {a b : Kv α} (h : KvInv a) (k : KvInv b) : KvInv (if p then a else b) := by
  split <;> assumption

theorem kvInv_pure {α : Type} {x : α} : KvInv (pure x : Kv α) := fun _ h => h

theorem kvInv_bind {α β : Type} {m : Kv α} {f : α → Kv β} (h : KvInv m) (k : ∀ x, KvInv (f x)) : KvInv (m >>= f) := by
  intro s hs
  have hm := h s hs
  simp only [bind, StateT.bind, Except.bind]
  cases e : m s with
  | error _ => exact trivial
  | ok p => exact k p.1 p.2 (hm.get e)

/-! ## Updates of the state -/

/-- An update of other parts than memory keeps the invariant. -/
theorem inv_with {s : State} (h : StateInv s) {g : Ctx} {others : List Ctx} {onAp : Bool} {agenda : List Act}
    {round : List (Nat × Nat × Bool)} {free fresh : Nat} {ld : Ladle} {hub : Hub} {arrays : List ArrayUnit} {wk : Work}
    {en : Engines} {qt : Quantum} {mg : Mgmt} {fl : Fleet} {vfr dev : Store DWord} {acnt tnow : DWord} :
    StateInv { s with g, others, onAp, agenda, round, free, fresh, ld, hub, arrays, wk, en, qt, mg, fl, vfr, dev, acnt, tnow } :=
  h

/-- An update of the records beside memory, and of other parts, keeps the invariant. -/
theorem inv_withMs {s : State} (h : StateInv s) {hist : List WriteRec} {tlb : List TlbEntry} {log : List LogEntry}
    {strongs : List LastStrong} {dirty : List DirtySector} {undef : List Nat} {turn : Nat} {g : Ctx} {others : List Ctx}
    {onAp : Bool} {agenda : List Act} {round : List (Nat × Nat × Bool)} {free fresh : Nat} {ld : Ladle} {hub : Hub}
    {arrays : List ArrayUnit} {wk : Work} {en : Engines} {qt : Quantum} {mg : Mgmt} {fl : Fleet} {vfr dev : Store DWord}
    {acnt tnow : DWord} :
    StateInv { s with
      ms := { s.ms with hist, tlb, log, strongs, dirty, undef, turn }
      g, others, onAp, agenda, round, free, fresh, ld, hub, arrays, wk, en, qt, mg, fl, vfr, dev, acnt, tnow } :=
  h

/-! ## Folds and options -/

theorem someWith_map {α β : Type} {P : α → Prop} {Q : β → Prop} {f : α → β} {o : Option α} (h : SomeWith P o)
    (k : ∀ x, P x → Q (f x)) : SomeWith Q (o.map f) := by
  cases o
  · exact trivial
  · exact k _ h

theorem someWith_orElse {α : Type} {P : α → Prop} {o : Option α} {f : Unit → Option α} (h : SomeWith P o)
    (k : SomeWith P (f ())) : SomeWith P (o.orElse f) := by
  cases o
  · exact k
  · exact h

theorem someWith_bind {α β : Type} {P : α → Prop} {Q : β → Prop} {o : Option α} {f : α → Option β} (h : SomeWith P o)
    (k : ∀ x, P x → SomeWith Q (f x)) : SomeWith Q (o.bind f) := by
  cases o
  · exact trivial
  · exact k _ h

theorem someWith_true {α : Type} {o : Option α} : SomeWith (fun _ => True) o := by
  cases o <;> exact trivial

theorem inv_getD {o : Option State} {s : State} (ho : SomeWith StateInv o) (h : StateInv s) : StateInv (o.getD s) := by
  cases o
  · exact h
  · exact ho

theorem inv_foldFrom (f : State → Nat → State) (hf : ∀ s i, StateInv s → StateInv (f s i)) (n lo : Nat) {s : State}
    (h : StateInv s) : StateInv (foldFrom f n lo s) := by
  induction n generalizing lo s with
  | zero => exact h
  | succ n ih => exact ih (lo + 1) (hf s lo h)

end Sys2Proof.Machine
end

section
/-! Registers, issue and arithmetic keep the canonical form of memory. -/

namespace Sys2Proof.Machine

/-! ## Memory -/

theorem inv_setVfReg {s : State} {vf n : Nat} {x : DWord} (h : StateInv s) : StateInv (setVfReg s vf n x) := inv_with h

theorem inv_takeFresh {s : State} (h : StateInv s) : PairInv (takeFresh s) := inv_with h

theorem inv_landed {s : State} {m : Mask} (h : StateInv s) : StateInv (landed s m) := by
  unfold landed
  split <;> exact inv_with h

theorem inv_meet {s : State} {o : Order} {lanes : Mask} {keys : List Nat} (h : StateInv s) : StateInv (meet s o lanes keys) :=
  inv_arriveIf h _

theorem inv_completeStrong {s : State} {o : Order} {lanes : Mask} (h : StateInv s) : StateInv (completeStrong s o lanes) :=
  inv_arriveIf h _

theorem inv_completeFor {s : State} {o : Order} {lanes : Mask} {keys : List Nat} (h : StateInv s) :
    StateInv (completeFor s o lanes keys) :=
  inv_arriveIf h _

theorem inv_groupPut {s : State} {p : Party} {ev : Nat} {keys : List Nat} {bytes : List Byte} (h : StateInv s) :
    StateInv (groupPut s p ev keys bytes) :=
  inv_putBytes h ..

theorem inv_plainPut {s : State} {p : Party} {ev : Nat} {keys : List Nat} {bytes : List Byte} (h : StateInv s) :
    StateInv (plainPut s p ev keys bytes) :=
  inv_putBytes h ..

theorem inv_arrivedPut {s : State} {p : Party} {ev : Nat} {keys : List Nat} {bytes : List Byte} (h : StateInv s) :
    StateInv (arrivedPut s p ev keys bytes) :=
  inv_putBytes h ..

theorem inv_strongPut {s : State} {p : Party} {ev scope : Nat} {rels : List Rel} {keys : List Nat} {bytes : List Byte}
    (h : StateInv s) : StateInv (strongPut s p ev scope rels keys bytes) :=
  inv_putBytes h ..

theorem inv_strongSend {s : State} {p : Party} {ev scope : Nat} {rels : List Rel} {keys : List Nat} {bytes : List Byte}
    (h : StateInv s) : StateInv (strongSend s p ev scope rels keys bytes) :=
  inv_putBytes h ..

theorem inv_sentFrom {s : State} {ev : Nat} {x : Sent} (h : StateInv s) : StateInv (sentFrom s ev x) := inv_withMs h

theorem inv_quieten {s : State} {ev : Nat} {m : Mask} (h : StateInv s) : StateInv (quieten s ev m) := inv_ite h (inv_withMs h)

theorem inv_arriveAll {s : State} {o : Order} {lanes : Mask} (h : StateInv s) : StateInv (arriveAll s o lanes) :=
  inv_arriveIf (inv_landed h) _

/-! ## Operands -/

theorem inv_setG {s : State} {c : Ctx} (h : StateInv s) : StateInv (setG s c) := inv_with h

theorem inv_putReg {s : State} {key : Nat} {x : Word} (h : StateInv s) : StateInv (putReg s key x) := inv_with h

theorem inv_setWins {s : State} {wins : List Window} (h : StateInv s) : StateInv (setWins s wins) := by
  unfold setWins
  split <;> exact inv_with h

theorem inv_popPort {s : State} {port : Nat} (h : StateInv s) : OkWith PairInv (popPort s port) := by
  unfold popPort
  split
  · exact trivial
  · split
    · exact trivial
    · exact inv_with h

theorem inv_takeK {pos n n1 : Nat} {s : State} (h : StateInv s) : OkWith PairInv (takeK pos n n1 s) := by
  induction n generalizing n1 s with
  | zero => exact h
  | succ n ih =>
    unfold takeK
    refine okWith_ite ?_ ?_
    · split
      · exact trivial
      · next u e =>
          have hu := (inv_popPort h).get e
          split
          · exact trivial
          · next e2 => exact inv_of_mem ((ih hu).get e2) rfl
    · split
      · exact trivial
      · next e => exact inv_of_mem ((ih h).get e) rfl

theorem inv_takeAll {l : List (Nat × RegCode × Nat)} {s : State} (h : StateInv s) : OkWith PairInv (takeAll l s) := by
  induction l generalizing s with
  | nil => exact h
  | cons _ l ih =>
    unfold takeAll
    refine okWith_ite ?_ ?_
    · split
      · exact trivial
      · next e => exact inv_of_mem ((ih h).get e) rfl
    · split
      · exact trivial
      · next u e =>
          have hu := (inv_takeK h).get e
          split
          · exact trivial
          · next e2 => exact inv_of_mem ((ih hu).get e2) rfl

theorem inv_putV {s : State} {i l : Nat} {x : Word} (h : StateInv s) : StateInv (putV s i l x) := inv_putReg h

theorem inv_putLanes {s : State} {i : Nat} {act : Mask} {f : Nat → Word} (h : StateInv s) : StateInv (putLanes s i act f) :=
  inv_foldl _ (fun _ _ hu => inv_putV hu) _ h

theorem inv_putMask {s : State} {i : Nat} {x : Mask} (h : StateInv s) : StateInv (putMask s i x) := inv_ite h (inv_putReg h)

theorem inv_putK {s : State} {i : Nat} {x : Word} (h : StateInv s) : StateInv (putK s i x) := by
  unfold putK
  split
  · exact inv_with h
  · exact inv_putReg h

theorem inv_putUniform {s : State} {c : Nat} {x : Word} (h : StateInv s) : StateInv (putUniform s c x) :=
  inv_ite (inv_putLanes h) (inv_putK h)

theorem inv_putUniforms {s : State} {c : Nat} {l : List Word} (h : StateInv s) : StateInv (putUniforms s c l) := by
  induction l generalizing s c with
  | nil => exact h
  | cons _ l ih => exact ih (inv_putUniform h)

/-! ## Issue, traps and contexts -/

theorem inv_setPc {s : State} {pc : Addr} (h : StateInv s) : StateInv (setPc s pc) := by
  unfold setPc
  split
  · exact inv_with h
  · exact inv_setG h

theorem inv_setSeq {s : State} {q : Seq} (h : StateInv s) : StateInv (setSeq s q) := by
  unfold setSeq
  split
  · exact inv_with h
  · exact inv_ite (inv_with h) (inv_with h)

theorem inv_orFlags {s : State} {f : Word} (h : StateInv s) : StateInv (orFlags s f) := inv_with h

theorem inv_pushTarget {s : State} {t : Addr} (h : StateInv s) : StateInv (pushTarget s t) :=
  inv_ite (inv_setSeq h) (inv_orFlags (inv_setSeq h))

theorem inv_popTarget {s : State} (h : StateInv s) : SomeWith PairInv (popTarget s) := someWith_ite trivial (inv_setSeq h)

theorem inv_pushLoop {s : State} {start : Addr} {count : Word} (h : StateInv s) : StateInv (pushLoop s start count) :=
  inv_ite (inv_setSeq h) (inv_orFlags (inv_setSeq h))

theorem inv_popLoop {s : State} (h : StateInv s) : StateInv (popLoop s) := inv_ite h (inv_setSeq h)

theorem inv_beginCollapse {s : State} {pte : Nat} (h : StateInv s) : StateInv (beginCollapse s pte) := inv_with h

theorem inv_collapseAt {s : State} {pte : Nat} (h : StateInv s) : StateInv (collapseAt s pte) := inv_ite (inv_beginCollapse h) h

theorem inv_followLog {s : State} {m : Mask} {ev va : Nat} {keys : List (Nat × Nat)} (h : StateInv s) :
    StateInv (followLog s m ev va keys) :=
  inv_ite h (inv_foldl _ (fun _ _ hu => inv_withMs hu) _ h)

theorem inv_groupStore {s : State} {m : Mask} {c va n x : Nat} (h : StateInv s) : OkWith StateInv (groupStore s m c va n x) := by
  unfold groupStore
  split
  · exact trivial
  · exact okWith_ite trivial (inv_with (inv_quieten (inv_followLog (inv_groupPut (inv_takeFresh (inv_noteWalk h ..))))))

theorem inv_groupLoad {s : State} {c va n : Nat} (h : StateInv s) : OkWith PairInv (groupLoad s c va n) := by
  unfold groupLoad
  split
  · exact trivial
  · exact inv_noteWalk h ..

theorem inv_pushPath {s : State} {own : Mask} {pc : Addr} {m : Mask} (h : StateInv s) :
    OkWith StateInv (pushPath s own pc m) := by
  unfold pushPath
  refine okWith_ite trivial ?_
  split
  · exact trivial
  · next u e =>
      have hu := (inv_groupStore h).get e
      exact inv_with hu

theorem inv_loadTop {s : State} (h : StateInv s) : OkWith StateInv (loadTop s) := by
  unfold loadTop
  refine okWith_ite (inv_with h) (okWith_ite h ?_)
  split
  · exact trivial
  · next u e =>
      have hu := (inv_groupLoad h).get e
      exact inv_with hu

theorem inv_popTop {s : State} (h : StateInv s) : OkWith StateInv (popTop s) := inv_loadTop (inv_with h)

theorem inv_settle {n : Nat} {s : State} (h : StateInv s) : OkWith StateInv (settle n s) := by
  induction n generalizing s with
  | zero => exact h
  | succ n ih =>
    unfold settle
    refine okWith_ite (ih (inv_setG h)) ?_
    split
    · exact trivial
    · next e =>
      have hu := (inv_loadTop h).get e
      dsimp only
      split
      · exact hu
      · refine okWith_ite ?_ (okWith_ite ?_ (okWith_ite ?_ (okWith_ite ?_ hu)))
        all_goals
          split
          · exact trivial
          · next e2 => exact ih ((inv_popTop (inv_setG hu)).get e2)

theorem inv_split {s : State} {target next : Addr} {taken : Mask} (h : StateInv s) :
    OkWith StateInv (split s target next taken) := by
  unfold split
  refine okWith_ite (okWith_ite (inv_setG h) (inv_setG h)) (okWith_ite (inv_setG h) (okWith_ite (inv_setG h)
    (okWith_ite (inv_setG h) (okWith_ite ?_ (okWith_ite ?_ ?_)))))
  all_goals
    split
    · exact trivial
    · next e => exact inv_setG ((inv_pushPath h).get e)

theorem inv_pushCall {s : State} {pc : Addr} (h : StateInv s) : OkWith StateInv (pushCall s pc) := by
  unfold pushCall
  refine okWith_ite trivial (okWith_ite (inv_setSeq h) (okWith_ite trivial ?_))
  split
  · exact trivial
  · next u e =>
      have hu := (inv_groupStore h).get e
      exact inv_setSeq hu

theorem inv_spilled {s : State} {i : Nat} (h : StateInv s) : OkWith PairInv (spilled s i) := by
  unfold spilled
  split
  · exact trivial
  · next e => exact inv_of_mem ((inv_groupLoad h).get e) rfl

theorem inv_popHeld {s : State} (h : StateInv s) : OkWith PairInv (popHeld s) := by
  unfold popHeld
  refine okWith_ite ?_ (inv_setSeq h)
  split
  · exact trivial
  · next u e =>
      have hu := (inv_spilled h).get e
      exact inv_setSeq hu

theorem inv_popCall {s : State} (h : StateInv s) : OkWith PairInv (popCall s) := by
  unfold popCall
  refine okWith_ite (inv_popHeld h) (okWith_ite h ?_)
  split
  · exact trivial
  · next u e =>
      have hu := (inv_spilled h).get e
      exact inv_popHeld (inv_setSeq hu)

theorem inv_endPath {s : State} (h : StateInv s) : StateInv (endPath s) := by
  unfold endPath
  split
  · exact inv_with h
  · exact inv_setG h

theorem inv_branch {s : State} {m7 : Mask} {invert : Bool} (h : StateInv s) : OkWith StateInv (branch s m7 invert) := by
  unfold branch
  dsimp only
  split
  · exact trivial
  · next u e =>
      have hu := (inv_popTarget h).get e
      exact okWith_ite (inv_setPc hu) (okWith_ite (inv_setPc hu) (okWith_ite (inv_setPc hu) (inv_split hu)))

theorem inv_select {s : State} {m7 : Mask} {nas : Nas} (h : StateInv s) : OkWith StateInv (select s m7 nas) := by
  unfold select
  dsimp only
  split
  · exact inv_setPc h
  · exact okWith_ite (inv_setPc h) (okWith_ite (inv_setPc (inv_setSeq h)) (inv_setPc (inv_popLoop h)))
  · exact inv_branch h
  · exact inv_branch h
  · split
    · exact trivial
    · next u e =>
        have hu := (inv_popTarget h).get e
        exact inv_setPc hu
  · split
    · exact trivial
    · next u e =>
        have hu := (inv_popTarget h).get e
        split
        · exact trivial
        · next v e2 =>
            have hv := (inv_pushCall hu).get e2
            exact inv_setPc hv
  · split
    · exact trivial
    · next u e =>
        have hu := (inv_popCall h).get e
        exact inv_setPc hu
    · next u e =>
        have hu := (inv_popCall h).get e
        exact inv_endPath hu
  · exact inv_endPath h

theorem inv_settled {s : State} (h : StateInv s) : OkWith StateInv (settled s) := okWith_ite h (inv_settle h)

theorem inv_applyNas {m7 : Mask} {s : State} {nas : Nas} (h : StateInv s) : OkWith StateInv (applyNas m7 s nas) := by
  unfold applyNas
  split
  · exact trivial
  · next u e =>
      have hu := (inv_select h).get e
      exact inv_settled hu

theorem inv_withdraw {s : State} {vf ident : Nat} (h : StateInv s) : StateInv (withdraw s vf ident) := inv_with h

theorem inv_endContext {s : State} {cause : Nat} (h : StateInv s) : StateInv (endContext s cause) :=
  inv_withMs (inv_logError (inv_withdraw h) ..)

theorem inv_takeTrap {s : State} {r : Raise} {m : Mask} (h : StateInv s) : StateInv (takeTrap s r m) :=
  inv_ite (inv_endContext h) (inv_with (inv_withdraw h))

theorem inv_takeLate {s : State} {r : Raise} {was : Bool} {own path : Mask} (h : StateInv s) :
    StateInv (takeLate s r was own path) :=
  inv_takeTrap (inv_setG h)

theorem inv_takeGone {s : State} {w : Window} (h : StateInv s) : StateInv (takeGone s w) := inv_takeLate h

theorem inv_stopSlice {s : State} {r : Raise} (h : StateInv s) : StateInv (stopSlice s r) := by
  unfold stopSlice
  split
  · exact inv_with h
  · exact h

theorem inv_raiseAfter {s : State} {r : Raise} {was : Bool} {own : Mask} (h : StateInv s) : StateInv (raiseAfter s r was own) :=
  inv_ite (inv_stopSlice h) (inv_takeLate h)

theorem inv_raiseNow {s : State} {r : Raise} {m : Mask} (h : StateInv s) : StateInv (raiseNow s r m) :=
  inv_ite (inv_stopSlice h) (inv_takeTrap h)

theorem inv_leaveHandler {s : State} (h : StateInv s) : StateInv (leaveHandler s) := inv_with h

theorem inv_countWindows {s : State} (h : StateInv s) : StateInv (countWindows s) := inv_setWins h

theorem inv_issued {s : State} (h : StateInv s) : StateInv (issued s) :=
  inv_ite (inv_countWindows h) (inv_with (inv_countWindows h))

theorem inv_setWait {s : State} {w : Wait} (h : StateInv s) : StateInv (setWait s w) := inv_ite h (inv_setG h)

theorem inv_touchArrays {s : State} {writes : List Nat} (h : StateInv s) : StateInv (touchArrays s writes) :=
  inv_ite h (inv_with h)

theorem inv_finished {s : State} {writes : List Nat} (h : StateInv s) : StateInv (finished s writes) :=
  inv_touchArrays (inv_issued h)

theorem inv_conclude {s : State} {nas : Nas} {writes : List Nat} {r : Res} (h : StateInv s) (hr : ResInv r) :
    StateInv (conclude s nas writes r) := by
  unfold conclude
  dsimp only
  split
  · next u => exact inv_issued hr
  · next u => exact hr
  · next u => exact inv_setWait hr
  · split
    · exact inv_ite (inv_raiseNow h) (inv_raiseNow h)
    · exact inv_raiseNow h
  · next u =>
      split
      · exact inv_raiseNow h
      · exact inv_setWait (inv_collapseAt h)
      · next v e =>
          have hv := (inv_applyNas hr).get e
          exact inv_finished hv
  · next u _ =>
      split
      · exact inv_raiseNow h
      · exact inv_setWait (inv_collapseAt h)
      · next v e =>
          have hv := (inv_applyNas hr).get e
          exact inv_raiseAfter (inv_finished hv)

theorem inv_closed {s : State} {writes : List Nat} (h : StateInv s) : StateInv (closed s writes) := inv_setWins h

theorem inv_goneStop {s : State} {m : Mask} (h : StateInv s) : SomeWith StateInv (goneStop s m) :=
  someWith_map someWith_true fun _ _ => inv_takeGone (inv_setWins h)

theorem inv_withDebug {s : State} {r : Res} (hr : ResInv r) : ResInv (withDebug s r) := by
  unfold withDebug
  split
  · next u => exact hr
  · next u => exact hr
  · exact resInv_ite trivial trivial
  · exact trivial

theorem inv_issueEffect {s : State} {nas : Nas} {io : Io} {body : State → Res} (h : StateInv s)
    (hbody : ∀ t, StateInv t → ResInv (body t)) : StateInv (issueEffect s nas io body) := by
  unfold issueEffect
  split
  · exact inv_takeGone (inv_setWins h)
  · exact inv_conclude (inv_closed h) (resInv_ite (inv_withDebug (hbody _ (inv_closed h))) (hbody _ (inv_closed h)))

theorem inv_issue {s : State} {nas : Nas} {io : Io} {body : State → Res} (h : StateInv s)
    (hbody : ∀ t, StateInv t → ResInv (body t)) : NextInv (issue s nas io body) := by
  unfold issue
  refine nextInv_ite trivial ?_
  split
  · exact inv_raiseNow h
  · exact inv_issueEffect h fun _ hu => hbody _ hu

theorem inv_portStopWith {s : State} {cs : List Nat} {e : PortStop} (h : StateInv s) : ResInv (portStopWith s cs e) := by
  unfold portStopWith
  split
  · exact h
  · exact trivial
  · exact trivial

theorem inv_portStop {s : State} {e : PortStop} (h : StateInv s) : ResInv (portStop s e) := inv_portStopWith h

theorem inv_openLoad {before after : State} {la : Nat} {regs keys : List Nat} {gone : Mask} {addr : DWord}
    {srcs : List (Nat × Nat × Nat)} (hafter : StateInv after) : StateInv (openLoad before after la regs keys gone addr srcs) :=
  inv_ite hafter (inv_setWins hafter)

theorem inv_openWindow {before after : State} {la : Nat} {regs keys : List Nat} {gone : Mask} {addr : DWord}
    (hafter : StateInv after) : StateInv (openWindow before after la regs keys gone addr) :=
  inv_openLoad hafter

theorem inv_updCtx {s : State} {vf ident : Nat} {f : Ctx → Ctx} (h : StateInv s) : StateInv (updCtx s vf ident f) :=
  inv_ite (inv_with h) (inv_with h)

theorem inv_bring {s : State} {vf ident : Nat} (h : StateInv s) : SomeWith StateInv (bring s vf ident) := by
  unfold bring
  refine someWith_ite h ?_
  split
  · exact trivial
  · exact inv_with h

theorem inv_onCtx {s : State} {vf ident : Nat} {f : State → State} (h : StateInv s) (hf : ∀ t, StateInv t → StateInv (f t)) :
    SomeWith StateInv (onCtx s vf ident f) := by
  unfold onCtx
  split
  · exact trivial
  · next u e =>
      have hu := (inv_bring h).get e
      exact inv_getD (inv_bring (inv_with (hf _ (inv_with hu)))) (inv_with (hf _ (inv_with hu)))

theorem inv_resume {s : State} {vf ident : Nat} {other : Bool} {pick : State → Wait → Option (Nas × Io × (State → Res))}
    (h : StateInv s) (hp : ∀ t w, StateInv t → SomeWith (fun x => ∀ u, StateInv u → ResInv (x.2.2 u)) (pick t w)) :
    SomeWith StateInv (resume s vf ident other pick) := by
  unfold resume
  split
  · exact trivial
  · next t e =>
      have ht : StateInv { t with onAp := false, g := { t.g with iss := other } } := inv_with ((inv_bring h).get e)
      refine someWith_ite trivial ?_
      split
      · exact trivial
      · next e2 =>
          have hb := (hp _ _ ht).get e2
          split
          · exact trivial
          · exact inv_getD (inv_bring (inv_with (inv_issueEffect ht hb))) (inv_with (inv_issueEffect ht hb))

theorem inv_dueOr {s : State} {t : Option State} (h : StateInv s) (ht : SomeWith StateInv t) : NextInv (dueOr s t) :=
  inv_getD ht h

/-! ## Flags -/

theorem inv_putLaneResult {s : State} {act : Mask} {d w : Nat} {f : Nat → List Word × Word} (h : StateInv s) :
    StateInv (putLaneResult s act d w f) :=
  inv_orFlags (inv_foldl _ (fun _ _ hu => inv_putLanes hu) _ h)

theorem inv_putMaskLanes {s : State} {i : Nat} {act : Mask} {p : Nat → Bool} (h : StateInv s) :
    StateInv (putMaskLanes s i act p) :=
  inv_putMask h

theorem inv_putReduced {s : State} {d : RegCode} {act : Mask} {x : Word} (h : StateInv s) : StateInv (putReduced s d act x) :=
  inv_ite (inv_putK h) (inv_putLanes h)

/-! ## Lane arithmetic -/

theorem inv_laneForm {f : FmtR} {pred : Bool} {srcs : List (Nat × RegCode × Nat)} {w : Nat} {bad masks : List Nat}
    {fn : State → List Opnd → Nat → List Word × Word} {s : State} (h : StateInv s) :
    NextInv (laneForm f pred srcs w bad masks fn s) := by
  unfold laneForm
  refine inv_issue h fun _ hu => ?_
  split
  · exact inv_portStop hu
  · next v e =>
      have hv := (inv_takeAll hu).get e
      exact inv_putLaneResult hv

theorem inv_lane2 {f : FmtR} {op : Word → Word → Word} {s : State} (h : StateInv s) : NextInv (lane2 f op s) := inv_laneForm h

theorem inv_lane1f {f : FmtR} {op : Word → Word × Word} {s : State} (h : StateInv s) : NextInv (lane1f f op s) := inv_laneForm h

theorem inv_lane2f {f : FmtR} {op : Word → Word → Word × Word} {s : State} (h : StateInv s) : NextInv (lane2f f op s) :=
  inv_laneForm h

theorem inv_lane3f {f : FmtR} {op : Word → Word → Word → Word × Word} {s : State} (h : StateInv s) : NextInv (lane3f f op s) :=
  inv_laneForm h

theorem inv_lanePair {f : FmtR} {op : DWord → DWord → DWord} {s : State} (h : StateInv s) : NextInv (lanePair f op s) :=
  inv_laneForm h

theorem inv_laneImm {f : FmtI} {op : Word → Word} {s : State} (h : StateInv s) : NextInv (laneImm f op s) := inv_laneForm h

theorem inv_laneCompare {f : FmtR} {op : Word → Word → Bool × Word} {s : State} (h : StateInv s) :
    NextInv (laneCompare f op s) := by
  unfold laneCompare
  refine inv_issue h fun _ hu => ?_
  split
  · exact inv_portStop hu
  · next v e =>
      have hv := (inv_takeAll hu).get e
      exact inv_orFlags (inv_putMaskLanes hv)

theorem inv_execVmop {f : FmtR} {s : State} (h : StateInv s) : NextInv (execVmop f s) :=
  inv_issue h fun _ hu => inv_putMaskLanes hu

/-! ## Matrix units -/

theorem inv_setArray {s : State} {u : ArrayUnit} (h : StateInv s) : StateInv (setArray s u) := inv_with h

theorem inv_dropMatrix {s : State} {vf ident : Nat} (h : StateInv s) : StateInv (dropMatrix s vf ident) := inv_with h

theorem inv_placeEntries {s : State} {es : List ArrayEntry} (h : StateInv s) : SomeWith StateInv (placeEntries s es) :=
  someWith_ite trivial (inv_setArray h)

theorem inv_execVmmq {f : FmtX} {s : State} (h : StateInv s) : NextInv (execVmmq f s) := by
  unfold execVmmq
  refine inv_issue h fun _ hu => ?_
  split
  · exact trivial
  · exact trivial
  · refine resInv_ite (inv_with hu) ?_
    split
    · next v e =>
        have hv := (inv_takeFresh hu).of_eq e
        split
        · next e2 => exact inv_of_mem ((inv_placeEntries hv).get e2) rfl
        · exact hu

theorem inv_execVwld {f : FmtR} {s : State} (h : StateInv s) : NextInv (execVwld f s) := by
  unfold execVwld
  refine inv_issue h fun _ hu => resInv_ite trivial (resInv_ite (inv_with hu) ?_)
  dsimp only
  split
  · next v e =>
      have hv := (inv_placeEntries (inv_takeFresh hu)).get e
      exact inv_with hv
  · exact hu

theorem inv_execVaccrd {f : FmtX} {s : State} (h : StateInv s) : NextInv (execVaccrd f s) := by
  unfold execVaccrd
  refine inv_issue h fun _ hu => ?_
  split
  · exact trivial
  · split
    · exact inv_portStop hu
    · next v e =>
        have hv := (inv_takeAll hu).get e
        exact resInv_ite hu (inv_openWindow (inv_putLanes hv))

theorem inv_placeTileWrite {s : State} {tile : Nat} {zero : Bool} {elems : List (Nat × Nat × Word)} (h : StateInv s) :
    SomeWith StateInv (placeTileWrite s tile zero elems) :=
  someWith_ite trivial (inv_with (inv_takeFresh h))

theorem inv_execVaccwr {f : FmtX} {s : State} (h : StateInv s) : NextInv (execVaccwr f s) := by
  unfold execVaccwr
  refine inv_issue h fun _ hu => ?_
  split
  · exact trivial
  · split
    · exact inv_portStop hu
    · next v e =>
        have hv := (inv_takeAll hu).get e
        refine resInv_ite hv ?_
        split
        · next e2 => exact inv_of_mem ((inv_placeTileWrite hv).get e2) rfl
        · exact hu

theorem inv_execVaccz {f : FmtX} {s : State} (h : StateInv s) : NextInv (execVaccz f s) := by
  unfold execVaccz
  refine inv_issue h fun _ hu => ?_
  split
  · exact trivial
  · split
    · next e => exact inv_of_mem ((inv_placeTileWrite hu).get e) rfl
    · exact hu

theorem inv_execVwmark {f : FmtX} {s : State} (h : StateInv s) : NextInv (execVwmark f s) := by
  unfold execVwmark
  refine inv_issue h fun _ hu => ?_
  split
  · exact trivial
  · exact inv_openWindow (inv_putLanes hu)

theorem inv_takeEntry {s : State} {part : Nat} (h : StateInv s) : SomeWith StateInv (takeEntry s part) := by
  unfold takeEntry
  dsimp only
  split
  · exact trivial
  · exact someWith_ite (inv_setArray h) (someWith_ite trivial (inv_setArray h))

theorem inv_execArrayEntryBegin {part : Nat} {s : State} (h : StateInv s) : NextInv (execArrayEntryBegin part s) :=
  inv_dueOr h (inv_takeEntry h)

theorem inv_finishRow {s : State} {part : Nat} (h : StateInv s) : SomeWith StateInv (finishRow s part) := by
  unfold finishRow
  dsimp only
  split
  · exact trivial
  · exact inv_updCtx (inv_setArray h)

theorem inv_execArrayRowWrite {part : Nat} {s : State} (h : StateInv s) : NextInv (execArrayRowWrite part s) :=
  inv_dueOr h (inv_finishRow h)

theorem inv_finishWrite {s : State} {vf ident : Nat} (h : StateInv s) : SomeWith StateInv (finishWrite s vf ident) := by
  unfold finishWrite
  split
  · exact trivial
  · exact someWith_map someWith_true fun _ _ => inv_updCtx h

theorem inv_execTileWriteApply {vf ident : Nat} {s : State} (h : StateInv s) : NextInv (execTileWriteApply vf ident s) :=
  inv_dueOr h (inv_finishWrite h)

/-! ## Conversions, reductions and votes -/

theorem inv_execVpk {f : FmtR} {s : State} (h : StateInv s) : NextInv (execVpk f s) :=
  nextInv_ite (inv_laneForm h) (inv_laneForm h)

theorem inv_execVred {f : FmtR} {s : State} (h : StateInv s) : NextInv (execVred f s) := by
  unfold execVred
  refine inv_issue h fun _ hu => ?_
  split
  · exact inv_portStop hu
  · next v e =>
      have hv := (inv_takeAll hu).get e
      exact inv_orFlags (inv_putReduced hv)

theorem inv_execVscan {f : FmtR} {s : State} (h : StateInv s) : NextInv (execVscan f s) := by
  unfold execVscan
  refine inv_issue h fun _ hu => ?_
  split
  · exact inv_portStop hu
  · next v e =>
      have hv := (inv_takeAll hu).get e
      exact inv_orFlags (inv_foldl _ (fun _ _ hw => inv_putV hw) _ hv)

theorem inv_execVvote {f : FmtR} {s : State} (h : StateInv s) : NextInv (execVvote f s) :=
  inv_issue h fun _ hu => inv_putReduced hu

/-! ## Group arithmetic -/

theorem inv_groupForm {nas : Nas} {srcs : List (Nat × RegCode × Nat)} {d : RegCode} {w : Nat} {bad masks : List Nat}
    {fn : State → List Opnd → List Word × Word} {s : State} (h : StateInv s) :
    NextInv (groupForm nas srcs d w bad masks fn s) := by
  unfold groupForm
  refine inv_issue h fun _ hu => resInv_ite hu ?_
  split
  · exact inv_portStop hu
  · next v e =>
      have hv := (inv_takeAll hu).get e
      exact inv_orFlags (inv_putUniforms hv)

theorem inv_group2f {f : FmtR} {op : Word → Word → Word × Word} {s : State} (h : StateInv s) : NextInv (group2f f op s) :=
  inv_groupForm h

theorem inv_group2 {f : FmtR} {op : Word → Word → Word} {s : State} (h : StateInv s) : NextInv (group2 f op s) := inv_group2f h

theorem inv_group1 {f : FmtR} {op : Word → Word} {s : State} (h : StateInv s) : NextInv (group1 f op s) := inv_groupForm h

theorem inv_groupPair {f : FmtR} {op : DWord → DWord → DWord} {s : State} (h : StateInv s) : NextInv (groupPair f op s) :=
  inv_groupForm h

theorem inv_groupImm {f : FmtI} {op : Word → Word} {s : State} (h : StateInv s) : NextInv (groupImm f op s) := inv_groupForm h

theorem inv_groupCompare {f : FmtR} {w : Nat} {op : State → List Opnd → Bool × Word} {s : State} (h : StateInv s) :
    NextInv (groupCompare f w op s) := by
  unfold groupCompare
  refine inv_issue h fun _ hu => ?_
  split
  · exact inv_portStop hu
  · next v e =>
      have hv := (inv_takeAll hu).get e
      exact inv_orFlags (inv_putMask hv)

theorem inv_groupFloat2 {f : FmtR} {op : Fmt → Nat → Nat → Nat × Word} {s : State} (h : StateInv s) :
    NextInv (groupFloat2 f op s) :=
  inv_groupForm h

theorem inv_seqForm {nas : Nas} {srcs : List (Nat × RegCode × Nat)} {fn : State → List Opnd → State → State} {s : State}
    (hfn : ∀ t os u, StateInv t → StateInv u → StateInv (fn t os u)) (h : StateInv s) : NextInv (seqForm nas srcs fn s) := by
  unfold seqForm
  refine inv_issue h fun _ hu => ?_
  split
  · exact inv_portStop hu
  · next v e =>
      have hv := (inv_takeAll hu).get e
      exact hfn _ _ _ hu hv

theorem inv_execGtgt {f : FmtT} {s : State} (h : StateInv s) : NextInv (execGtgt f s) :=
  inv_seqForm (fun _ _ _ _ hv => inv_pushTarget hv) h

theorem inv_execGtgtr {f : FmtR} {s : State} (h : StateInv s) : NextInv (execGtgtr f s) :=
  inv_seqForm (fun _ _ _ _ hv => inv_pushTarget hv) h

theorem inv_execGloop {f : FmtR} {s : State} (h : StateInv s) : NextInv (execGloop f s) :=
  inv_seqForm (fun _ _ _ _ hv => inv_pushLoop hv) h

theorem inv_execGloopi {f : FmtH} {s : State} (h : StateInv s) : NextInv (execGloopi f s) :=
  inv_seqForm (fun _ _ _ _ hv => inv_pushLoop hv) h

theorem inv_execGbrk {f : FmtR} {s : State} (h : StateInv s) : NextInv (execGbrk f s) :=
  inv_seqForm (fun _ _ _ _ hv => inv_popLoop hv) h

end Sys2Proof.Machine
end

section
/-! Accesses, queues and the device's own accesses keep the canonical form of memory. -/

namespace Sys2Proof.Machine

/-! ## Accesses -/

theorem inv_collapseAll {s : State} {ps : Pages} (h : StateInv s) : StateInv (collapseAll s ps) := by
  unfold collapseAll
  refine inv_foldl _ (fun _ _ hu => ?_) _ h
  split
  · exact inv_collapseAt hu
  · exact hu

theorem inv_countAccess {s : State} {a : Acc} {op : MemOp} {ps : Pages} {reqs : List Req} (h : StateInv s) :
    StateInv (countAccess s a op ps reqs).1 := by
  refine List.foldlRecOn (motive := fun x : State × Bool => StateInv x.1) _ _ h fun x hx r _ => ?_
  split
  · exact inv_countSector hx ..
  · exact hx

theorem inv_leaveDirty {s : State} {d : DirtySector} (h : StateInv s) : StateInv (leaveDirty s d) := inv_withMs h

theorem inv_dirtied {s : State} {a : Acc} {op : MemOp} {cover : Req → Mask} {ps : Pages} {reqs : List Req} (h : StateInv s) :
    StateInv (dirtied s a op cover ps reqs) :=
  inv_ite h (inv_foldl _ (fun _ _ hu => inv_leaveDirty hu) _ h)

theorem inv_withFiled {s : State} {r : Res} (hr : ResInv r) : ResInv (withFiled s r) := by
  unfold withFiled
  split
  · next u =>
      split
      · exact resInv_ite (inv_setG hr) hr
      · exact hr
  · exact hr

theorem inv_countLater {s : State} {d : DirtySector} {m : Mask} (h : StateInv s) : StateInv (countLater s d m) :=
  inv_ite (inv_countSector h ..) (inv_ite (inv_withMs h) (inv_notifyFiled (inv_countSector h ..) ..))

theorem inv_noteStrong {s : State} {keys : List Nat} (h : StateInv s) : StateInv (noteStrong s keys) := inv_withMs h

theorem inv_noteWalks {s : State} {a : Acc} {op : MemOp} {ps : Pages} (h : StateInv s) : StateInv (noteWalks s a op ps) := by
  unfold noteWalks
  refine inv_foldl _ (fun _ _ hu => ?_) _ h
  split
  · exact inv_ite hu (inv_noteWalk hu ..)
  · exact hu

theorem inv_orderStop {s : State} {a : Acc} {op : MemOp} {cover : Req → Mask} {reqs : List Req} {ps : Pages} (h : StateInv s) :
    SomeWith ResInv (orderStop s a op cover reqs ps) := by
  unfold orderStop
  refine someWith_ite trivial ?_
  split
  · next e => exact inv_of_mem ((inv_goneStop h).get e) rfl
  · exact someWith_ite h (someWith_ite (inv_collapseAll h) trivial)

theorem inv_checkAccess {s : State} {a : Acc} {op : MemOp} {cover : Req → Mask} {reqs : List Req} (h : StateInv s) :
    EndsWith ResInv (fun _ => True) (checkAccess s a op cover reqs) := by
  unfold checkAccess
  dsimp only
  split
  · exact trivial
  · refine endsWith_ite (inv_collapseAll h) ?_
    split
    · next e => exact (inv_orderStop h).get e
    · refine endsWith_ite h ?_
      split <;> exact trivial

theorem inv_accessPortStop {s : State} {op : MemOp} {cover : Req → Mask} {reqs : Option (List Req)} {e : PortStop}
    (h : StateInv s) : ResInv (accessPortStop s op cover reqs e) := by
  unfold accessPortStop
  split
  · exact resInv_ite trivial (inv_portStop h)
  · exact inv_portStopWith h

theorem inv_learnFor {s : State} {ids : List Nat} {m : Mask} (h : StateInv s) : StateInv (learnFor s ids m) := by
  unfold learnFor
  split <;> exact inv_with h

theorem inv_noteRead {s : State} {acquire : Bool} {scope : Nat} {rels : List Rel} {m : Mask} (h : StateInv s) :
    StateInv (noteRead s acquire scope rels m) := by
  unfold noteRead
  refine inv_ite (inv_ite (inv_learnFor h) h) ?_
  split <;> exact inv_with (inv_ite (inv_learnFor h) h)

theorem inv_releaseAfter {s : State} {free : Bool} (h : StateInv s) : SomeWith ResInv (releaseAfter s free) := by
  unfold releaseAfter
  split
  · next e => exact inv_of_mem ((inv_goneStop h).get e) rfl
  · exact someWith_ite trivial (someWith_ite trivial h)

theorem inv_releaseStop {s : State} (h : StateInv s) : SomeWith ResInv (releaseStop s) := inv_releaseAfter h

theorem inv_afterLog {s : State} {m : Mask} {ev : Nat} {r : Req} {spots : List Spot} (h : StateInv s) :
    StateInv (afterLog s m ev r spots) :=
  inv_followLog h

theorem inv_logAll {s : State} {es : List LogEntry} (h : StateInv s) : StateInv (logAll s es) := inv_withMs h

theorem inv_logCollapse {s : State} {op : MemOp} {ps : Pages} (h : StateInv s) : StateInv (logCollapse s op ps) :=
  inv_ite (inv_collapseAll h) h

theorem inv_finishAccess {s : State} {ps : Pages} {op : MemOp} {reqs : List Req} {filed : Bool} (h : StateInv s) :
    ResInv (finishAccess s ps op reqs filed) := by
  unfold finishAccess
  split
  · exact h
  · exact resInv_ite h h

theorem inv_performAt {s : State} {m : Mask} {keys : List Nat} (h : StateInv s) : StateInv (performAt s m keys) :=
  inv_meet (inv_completeStrong h)

theorem inv_readAt {s : State} {m : Mask} {keys : List Nat} (h : StateInv s) : StateInv (readAt s m keys) :=
  inv_meet (inv_completeFor h)

theorem inv_doLoads {s : State} {a : Acc} {op : MemOp} {acquire : Bool} {cover : Req → Mask} {reqs : List Req} {ps : Pages}
    (h : StateInv s) : StateInv (doLoads s a op acquire cover reqs ps).2.2.2.1 := by
  refine inv_countAccess (inv_ite (inv_foldl _ (fun _ _ hu => ?_) _ (inv_noteWalks h))
    (inv_foldl _ (fun _ _ hu => inv_performAt hu) _ (inv_noteWalks h)))
  exact inv_noteRead (inv_noteStrong (inv_ite (inv_performAt hu) (inv_readAt hu)))

theorem inv_spoilEntries {before s : State} {a : Acc} {va n : Nat} (hs : StateInv s) :
    StateInv (spoilEntries before s a va n) := by
  unfold spoilEntries
  refine inv_foldl _ (fun _ _ hu => ?_) _ hs
  split
  · exact inv_withMs hu
  · exact hu

theorem inv_storeOne {s : State} {a : Acc} {op : MemOp} {release now_ : Bool} {grp : Nat} {m : Mask} {ps : Pages} {r : Req}
    {bytes : List Byte} (h : StateInv s) : PairInv (storeOne s a op release now_ grp m ps r bytes) :=
  inv_logAll (inv_ite
    (inv_noteStrong (inv_ite (inv_strongPut (inv_completeStrong (inv_landed (inv_takeFresh (inv_takeFresh h)))))
      (inv_sentFrom (inv_strongSend (inv_completeStrong (inv_landed (inv_takeFresh (inv_takeFresh h))))))))
    (inv_quieten (inv_afterLog (inv_ite (inv_arrivedPut (inv_takeFresh (inv_takeFresh h)))
      (inv_plainPut (inv_takeFresh (inv_takeFresh h)))))))

theorem inv_storesFold {s : State} {a : Acc} {op : MemOp} {release n : Bool} {grp : Nat} {cover : Req → Mask} {ps : Pages}
    {data : Nat → Nat} (l : List Req) (x : List (List Nat × Mask)) (h : StateInv s) :
    StateInv (l.foldl (fun (acc : State × List (List Nat × Mask)) r =>
      let (evs, t) := storeOne acc.1 a op release n grp (cover r) ps r (bytesOfNat op.z (data r.lane))
      (t, acc.2 ++ [(evs, cover r)])) (s, x)).1 := by
  refine List.foldlRecOn (motive := fun x : State × List (List Nat × Mask) => StateInv x.1) _ _ h fun x hx r _ => ?_
  exact inv_storeOne hx

theorem inv_doStores {s : State} {a : Acc} {op : MemOp} {release : Bool} {cover : Req → Mask} {reqs : List Req}
    {data : Nat → Nat} {ps : Pages} (h : StateInv s) : StateInv (doStores s a op release cover reqs data ps).2.2.1 := by
  have h0 := inv_takeFresh (inv_logCollapse (op := op) (ps := ps) (inv_noteWalks (a := a) (op := op) (ps := ps) h))
  refine inv_countAccess (inv_dirtied (inv_ite (inv_arriveAll ?_) ?_)) <;>
    exact inv_ite (inv_foldl _ (fun _ _ hu => inv_learnFor hu) _ (inv_storesFold _ _ h0))
      (inv_foldl _ (fun _ _ hu => inv_spoilEntries hu) _ (inv_foldl _ (fun _ _ hu => inv_learnFor hu) _ (inv_storesFold _ _ h0)))

theorem inv_rmwOne {s : State} {a : Acc} {op : MemOp} {acquire release : Bool} {m : Mask} {r : Req} {ps : Pages} {f : Nat → Nat}
    (h : StateInv s) : PairInv (rmwOne s a op acquire release m r ps f) :=
  inv_learnFor (inv_noteStrong (inv_strongPut (inv_noteRead (inv_takeFresh (inv_performAt (inv_landed h))))))

theorem inv_rmwsFold {s : State} {a : Acc} {op : MemOp} {acquire release : Bool} {cover : Req → Mask} {ps : Pages}
    {f : Nat → Nat → Nat} (l : List Req) (x : List (Nat × Nat)) (h : StateInv s) :
    PairInv (l.foldl (fun (acc : List (Nat × Nat) × State) r =>
      let (old, t) := rmwOne acc.2 a op acquire release (cover r) r ps (f r.lane)
      (acc.1 ++ [(r.lane, old)], t)) (x, s)) :=
  List.foldlRecOn (motive := PairInv) _ _ h fun _ hx _ _ => inv_rmwOne hx

theorem inv_doRmws {s : State} {a : Acc} {op : MemOp} {acquire release : Bool} {cover : Req → Mask} {reqs : List Req}
    {f : Nat → Nat → Nat} {ps : Pages} (h : StateInv s) :
    StateInv (doRmws s a op acquire release cover reqs f ps).2.2.2.1 := by
  have h0 (l : List Req) := inv_rmwsFold (a := a) (op := op) (acquire := acquire) (release := release) (cover := cover)
    (ps := ps) (f := f) l [] (inv_noteWalks (a := a) (op := op) (ps := ps) h)
  exact inv_countAccess (inv_ite (inv_arriveAll (h0 _)) (h0 _))

theorem inv_doReduces {s : State} {a : Acc} {op : MemOp} {code : Nat} {cover : Req → Mask} {reqs : List Req}
    {data : Nat → Nat} {ps : Pages} (h : StateInv s) : StateInv (doReduces s a op code cover reqs data ps).2.2.1 := by
  refine inv_countAccess (inv_foldl _ (fun _ _ hu => ?_) _ (inv_takeFresh (inv_logCollapse (inv_noteWalks h))))
  exact inv_ite (inv_rmwOne hu) (inv_learnFor (inv_logAll (inv_takeFresh hu)))

/-! ## Lane accesses -/

theorem inv_putReturned {s : State} {d : Nat} {vals : List (Nat × List Word)} (h : StateInv s) :
    StateInv (putReturned s d vals) :=
  inv_foldl _ (fun _ _ hu => inv_foldl _ (fun _ _ hv => inv_putV hv) _ hu) _ h

theorem inv_laneLoad {nas : Nas} {d a : RegCode} {la : BitVec 4} {off : BitVec 5} {op : MemOp} {acquire : Bool}
    {conv : Nat → List Word} {s : State} (h : StateInv s) : NextInv (laneLoad nas d a la off op acquire conv s) := by
  unfold laneLoad
  refine inv_issue h fun _ hu => ?_
  split
  · exact inv_accessPortStop hu
  · next v e =>
      have hv := (inv_takeAll hu).get e
      dsimp only
      split
      · next e2 => exact (inv_checkAccess hu).err e2
      · exact inv_finishAccess (inv_openLoad (inv_putReturned (inv_doLoads hv)))

theorem inv_laneStore {nas : Nas} {d a : RegCode} {la : BitVec 4} {off : BitVec 5} {op : MemOp} {release : Bool} {s : State}
    (h : StateInv s) : NextInv (laneStore nas d a la off op release s) := by
  unfold laneStore
  refine inv_issue h fun _ hu => ?_
  split
  · exact inv_accessPortStop hu
  · next v e =>
      have hv := (inv_takeAll hu).get e
      dsimp only
      split
      · next e2 => exact (inv_checkAccess hu).err e2
      · split
        · next e2 => exact (someWith_ite (inv_releaseStop hu) (by trivial)).get e2
        · exact inv_finishAccess (inv_openWindow (inv_doStores hv))

/-- What a release that may have to stop ends with. -/
theorem inv_releaseIf {s : State} {b : Bool} (h : StateInv s) : SomeWith ResInv (if b = true then releaseStop s else none) :=
  someWith_ite (inv_releaseStop h) trivial

theorem inv_laneRmw {x : FmtA} {z w wr : Nat} {f : Nat → (Nat → Nat) → Nat} {s : State} (h : StateInv s) :
    NextInv (laneRmw x z w wr f s) := by
  refine inv_issue h fun u hu => ?_
  split
  · exact inv_accessPortStop hu
  · next s' e =>
    have hv := (inv_takeAll hu).get e
    dsimp only
    split
    · next e2 => exact (inv_checkAccess hu).err e2
    · have hr := inv_releaseIf (b := x.ord.getLsbD 1) hu
      generalize (if x.ord.getLsbD 1 = true then releaseStop u else none) = o at hr
      cases o with
      | some r => exact hr
      | none =>
        generalize e3 : doRmws s' _ _ _ _ _ _ _ _ = r
        have ht : StateInv r.2.2.2.1 := e3 ▸ inv_doRmws hv
        exact inv_finishAccess (inv_openWindow (inv_putReturned ht))

theorem inv_laneReduce {x : FmtA} {code : Nat} {s : State} (h : StateInv s) : NextInv (laneReduce x code s) := by
  unfold laneReduce
  refine inv_issue h fun _ hu => ?_
  split
  · exact inv_accessPortStop hu
  · next v e =>
      have hv := (inv_takeAll hu).get e
      dsimp only
      split
      · next e2 => exact (inv_checkAccess hu).err e2
      · exact inv_finishAccess (inv_openWindow (inv_doReduces hv))

theorem inv_prefetch {s : State} {reqs : List Req} (h : StateInv s) : StateInv (prefetch s reqs) := inv_countAccess h

theorem inv_execVprf {f : FmtM} {s : State} (h : StateInv s) : NextInv (execVprf f s) := by
  unfold execVprf
  refine inv_issue h fun _ hu => ?_
  split
  · exact inv_portStop hu
  · next v e =>
      have hv := (inv_takeAll hu).get e
      exact inv_prefetch hv

/-! ## Group accesses -/

theorem inv_uniteActive {s : State} (h : StateInv s) : StateInv (uniteActive s) := inv_ite h (inv_with h)

theorem inv_wholeRaise {s : State} {r : Res} (hr : ResInv r) : ResInv (wholeRaise s r) := by
  unfold wholeRaise
  split
  · exact trivial
  · next u _ => exact hr
  · exact hr

theorem inv_uniLoad {nas : Nas} {d a : RegCode} {la : BitVec 4} {off : BitVec 5} {op : MemOp} {acquire : Bool} {s : State}
    (h : StateInv s) : NextInv (uniLoad nas d a la off op acquire s) := by
  unfold uniLoad
  refine inv_issue h fun _ hu => resInv_ite hu ?_
  split
  · exact inv_accessPortStop hu
  · next v e =>
      have hv := (inv_takeAll hu).get e
      dsimp only
      split
      · next p e2 =>
          have hp := (inv_checkAccess hu).err e2
          exact inv_wholeRaise hp
      · exact resInv_ite trivial (inv_wholeRaise (inv_finishAccess (inv_openLoad (inv_foldl _ (fun _ _ hw => inv_putUniforms hw)
          _
          (inv_doLoads (inv_uniteActive hv))))))

theorem inv_uniStore {nas : Nas} {d a : RegCode} {la : BitVec 4} {off : BitVec 5} {op : MemOp} {release : Bool}
    {s : State} (h : StateInv s) : NextInv (uniStore nas d a la off op release s) := by
  refine inv_issue h fun u hu => ?_
  split
  · exact inv_wholeRaise (inv_accessPortStop hu)
  · next s' e =>
    have hv := (inv_takeAll hu).get e
    dsimp only
    split
    · next e2 => exact inv_wholeRaise ((inv_checkAccess hu).err e2)
    · have hr := inv_releaseIf (b := release) hu
      generalize (if release = true then releaseStop u else none) = o at hr
      cases o with
      | some r => exact hr
      | none =>
        generalize e3 : doStores (uniteActive s') _ _ _ _ _ _ _ = r
        have ht : StateInv r.2.2.1 := e3 ▸ inv_doStores (inv_uniteActive hv)
        exact inv_wholeRaise (inv_finishAccess (inv_openWindow ht))

theorem inv_uniRmw {x : FmtA} {z w wr : Nat} {f : Nat → (Nat → Nat) → Nat} {s : State} (h : StateInv s) :
    NextInv (uniRmw x z w wr f s) := by
  refine inv_issue h fun u hu => ?_
  split
  · exact inv_wholeRaise (inv_accessPortStop hu)
  · next s' e =>
    have hv := (inv_takeAll hu).get e
    dsimp only
    split
    · next e2 => exact inv_wholeRaise ((inv_checkAccess hu).err e2)
    · have hr := inv_releaseIf (b := x.ord.getLsbD 1) hu
      generalize (if x.ord.getLsbD 1 = true then releaseStop u else none) = o at hr
      cases o with
      | some r => exact hr
      | none =>
        generalize e3 : doRmws (uniteActive s') _ _ _ _ _ _ _ _ = r
        have ht : StateInv r.2.2.2.1 := e3 ▸ inv_doRmws (inv_uniteActive hv)
        exact inv_wholeRaise (inv_finishAccess (inv_openWindow (inv_foldl _ (fun _ _ hw => inv_putUniforms hw) _ ht)))

theorem inv_fenceAcquire {s : State} {scope : Nat} (h : StateInv s) : StateInv (fenceAcquire s scope) :=
  inv_foldl _ (fun _ _ hu => inv_learnFor hu) _ h

theorem inv_returnLoads {s : State} {m : Mask} (h : StateInv s) : StateInv (returnLoads s m) := inv_setWins h

theorem inv_fenceRelease {s : State} {scope : Nat} (h : StateInv s) : StateInv (fenceRelease s scope) :=
  inv_with (inv_arriveAll h)

theorem inv_sliceFence {s : State} {ord scope : Nat} (h : StateInv s) : StateInv (sliceFence s ord scope) :=
  inv_ite (inv_ite (inv_ite (inv_returnLoads h) h) (inv_fenceAcquire (inv_ite (inv_returnLoads h) h)))
    (inv_arriveIf (inv_ite (inv_ite (inv_returnLoads h) h) (inv_fenceAcquire (inv_ite (inv_returnLoads h) h))) _)

theorem inv_fenceEffect {s : State} {ord scope : Nat} (h : StateInv s) : StateInv (fenceEffect s ord scope) :=
  inv_ite
    (inv_ite (inv_ite (inv_returnLoads (inv_uniteActive h)) (inv_uniteActive h))
      (inv_fenceAcquire (inv_ite (inv_returnLoads (inv_uniteActive h)) (inv_uniteActive h))))
    (inv_fenceRelease (inv_ite (inv_ite (inv_returnLoads (inv_uniteActive h)) (inv_uniteActive h))
      (inv_fenceAcquire (inv_ite (inv_returnLoads (inv_uniteActive h)) (inv_uniteActive h)))))

theorem inv_execGfence {f : FmtA} {s : State} (h : StateInv s) : NextInv (execGfence f s) := by
  unfold execGfence
  refine inv_issue h fun _ hu => resInv_ite trivial (resInv_ite (resInv_ite hu (inv_sliceFence hu)) ?_)
  split
  · next e => exact (someWith_ite (by trivial) (inv_releaseStop hu)).get e
  · exact inv_fenceEffect hu

theorem inv_execGprf {f : FmtM} {s : State} (h : StateInv s) : NextInv (execGprf f s) :=
  inv_seqForm (fun _ _ _ _ hv => inv_prefetch hv) h

/-! ## Queues, barriers and events -/

theorem inv_putStep {s : State} {m : Mask} {scope : Nat} {release : Bool} {keys foot : List Nat} {x : Nat} (h : StateInv s) :
    StateInv (putStep s m scope release keys foot x) :=
  inv_learnFor (inv_noteStrong (inv_strongPut (inv_takeFresh (inv_ite (inv_arriveAll (inv_performAt (inv_landed h)))
    (inv_performAt (inv_landed h))))))

theorem inv_putObject {s : State} {m : Mask} {scope : Nat} {release : Bool} {keys : List Nat} {x : Nat} (h : StateInv s) :
    StateInv (putObject s m scope release keys x) :=
  inv_putStep h

theorem inv_acquireFrom {s : State} {scope key : Nat} (h : StateInv s) : StateInv (acquireFrom s scope key) := inv_learnFor h

theorem inv_uniWindow {before after : State} {la : BitVec 4} {codes keys : List Nat} (hafter : StateInv after) :
    StateInv (uniWindow before after la codes keys) :=
  inv_openWindow hafter

theorem inv_auditOne {s : State} {x : Audit} (h : StateInv s) : StateInv (auditOne s x) := inv_ite (inv_with h) h

theorem inv_unmark {s : State} {key : Nat} (h : StateInv s) : StateInv (unmark s key) := inv_with h

theorem inv_noteAudit {s : State} {x : Audit} (h : StateInv s) : StateInv (noteAudit s x) := by
  unfold noteAudit
  dsimp only
  split
  · exact inv_auditOne (inv_with (inv_unmark h))
  · exact inv_with (inv_unmark h)

theorem inv_joinWaiters {s : State} {w : Waiter} (h : StateInv s) : StateInv (joinWaiters s w) := inv_ite h (inv_with h)

theorem inv_leaveWaiters {s : State} {other : Bool} (h : StateInv s) : StateInv (leaveWaiters s other) := inv_with h

theorem inv_qPush {s : State} {q : QHead} {p scope data : Nat} (h : StateInv s) : StateInv (qPush s q p scope data) :=
  inv_putObject (inv_putObject (inv_putObject (inv_putObject h)))

theorem inv_qPop {s : State} {q : QHead} {scope : Nat} (h : StateInv s) : PairInv (qPop s q scope) :=
  inv_putObject (inv_putObject (inv_acquireFrom h))

theorem inv_qTryMask {t : QForm} {acted : Bool} {s : State} (h : StateInv s) : StateInv (qTryMask t acted s) :=
  inv_ite (inv_putMask h) h

theorem inv_queueBody {t : QForm} {f : FmtE} {s : State} (h : StateInv s) : ResInv (queueBody t f s) := by
  unfold queueBody
  split
  · exact inv_portStopWith h
  · dsimp only
    refine resInv_ite (resInv_ite h trivial) (resInv_ite trivial (resInv_ite trivial (resInv_ite trivial (resInv_ite h ?_))))
    split
    · exact inv_portStop h
    · next e =>
      have hu := (inv_takeAll h).get e
      split
      · exact trivial
      · split
        · next e2 => exact (someWith_ite (inv_releaseStop h) (someWith_map (inv_goneStop h) fun _ hx => by exact hx)).get e2
        · have ha (w : Audit) := inv_noteAudit (x := w) (inv_leaveWaiters (other := s.g.iss) (inv_uniteActive hu))
          refine resInv_ite (resInv_ite (inv_uniWindow (inv_qTryMask h)) (inv_joinWaiters h)) (resInv_ite trivial ?_)
          refine resInv_ite (inv_uniWindow (inv_qTryMask (inv_qPush (ha _)))) (inv_uniWindow (inv_qTryMask (inv_ite ?_ ?_)))
          · exact inv_learnFor (inv_quieten (inv_plainPut (inv_takeFresh (inv_qPop (ha _)))))
          · exact inv_putUniforms (inv_qPop (ha _))

theorem inv_queueForm {t : QForm} {f : FmtE} {s : State} (h : StateInv s) : NextInv (queueForm t f s) :=
  inv_issue h fun _ hu => inv_queueBody hu

theorem inv_execQueueWaiterServed {vf ident : Nat} {other : Bool} {s : State} (h : StateInv s) :
    NextInv (execQueueWaiterServed vf ident other s) := by
  unfold execQueueWaiterServed
  refine inv_dueOr h (inv_resume h fun _ _ _ => ?_)
  split
  · exact fun _ hv => inv_queueBody hv
  · exact trivial

theorem inv_barAwait {f : FmtE} {key : Nat} {ph : Bool} {u : State} (h : StateInv u) : ResInv (barAwait f key ph u) :=
  resInv_ite (inv_with (inv_acquireFrom h)) h

theorem inv_vaultOpnd {s : State} {a : RegCode} (h : StateInv s) : OkWith PairInv (vaultOpnd s a) := by
  unfold vaultOpnd
  split
  · exact trivial
  · next e => exact inv_of_mem ((inv_takeAll h).get e) rfl

theorem inv_barBody {f : FmtE} {s : State} (h : StateInv s) : ResInv (barBody f s) := by
  unfold barBody
  split
  · exact inv_portStop h
  · next u e =>
      have hu := (inv_vaultOpnd h).get e
      dsimp only
      split
      · exact trivial
      · refine resInv_ite (inv_barAwait (inv_with hu)) ?_
        split
        · next e2 => exact (inv_releaseStop h).get e2
        · exact inv_barAwait (inv_noteAudit (inv_putObject (inv_uniteActive hu)))

theorem inv_execGbar {f : FmtE} {s : State} (h : StateInv s) : NextInv (execGbar f s) := inv_issue h fun _ hu => inv_barBody hu

theorem inv_execBarrierWaitEnd {vf ident : Nat} {other : Bool} {s : State} (h : StateInv s) :
    NextInv (execBarrierWaitEnd vf ident other s) := by
  unfold execBarrierWaitEnd
  refine inv_dueOr h (inv_resume h fun _ _ _ => ?_)
  split
  · exact fun _ hv => inv_barAwait hv
  · exact trivial

theorem inv_atObject {s : State} {f : FmtE} {addr n : Nat} {k : List Nat → State → Res} (h : StateInv s)
    (hk : ∀ l t, StateInv t → ResInv (k l t)) : ResInv (atObject s f addr n k) := by
  unfold atObject
  dsimp only
  split
  · next p e =>
      have hp := (inv_checkAccess h).err e
      exact inv_wholeRaise hp
  · exact resInv_ite h (inv_withFiled (hk _ _ (inv_performAt (inv_ite (inv_notifyFiled (inv_countAccess (inv_noteWalks h)) ..)
      (inv_countAccess (inv_noteWalks h))))))

theorem inv_withTaken {s' u : State} (hu : StateInv u) : StateInv (withTaken s' u) := inv_with hu

theorem inv_setBarRec {s : State} {b : BarRec} (h : StateInv s) : StateInv (setBarRec s b) := inv_with h

theorem inv_setBbov {s : State} {uid : Nat} (h : StateInv s) : StateInv (setBbov s uid) := inv_with h

theorem inv_putByteBar {s : State} {scope : Nat} {release : Bool} {keys : List Nat} {b : ByteBar} (h : StateInv s) :
    StateInv (putByteBar s scope release keys b) := by
  unfold putByteBar
  refine inv_ite ?_ (inv_putStep h)
  dsimp only
  split
  · exact inv_setBbov (inv_setBarRec (inv_putStep h))
  · exact inv_setBarRec (inv_putStep h)

theorem inv_barArrival {s : State} {scope : Nat} {release : Bool} {keys : List Nat} {n : Nat} {ids : List Nat} {rels : List Rel}
    (h : StateInv s) : StateInv (barArrival s scope release keys n ids rels) :=
  inv_putByteBar (inv_setBarRec h)

theorem inv_execGbarm {f : FmtE} {s : State} (h : StateInv s) : NextInv (execGbarm f s) := by
  unfold execGbarm
  refine inv_issue h fun _ hu => ?_
  split
  · exact inv_portStopWith hu
  · next v e =>
      refine inv_atObject hu fun _ _ hw => ?_
      dsimp only
      split
      · exact trivial
      · exact inv_uniWindow (inv_putUniform (inv_putByteBar (inv_uniteActive (inv_setBarRec (inv_withTaken hw)))))

theorem inv_execGbadd {f : FmtE} {s : State} (h : StateInv s) : NextInv (execGbadd f s) := by
  unfold execGbadd
  refine inv_issue h fun _ hu => ?_
  split
  · exact inv_portStopWith hu
  · next v e =>
      dsimp only
      split
      · next e2 => exact (inv_releaseStop hu).get e2
      · exact inv_atObject hu fun _ _ hw => inv_barArrival (inv_arriveAll (inv_uniteActive (inv_withTaken hw)))

theorem inv_deliverCmd {s : State} {c : Cmd} (h : StateInv s) : ResInv (deliverCmd s c) := by
  unfold deliverCmd
  split
  · exact h
  · exact inv_takeTrap (inv_with h)

theorem inv_waitBody {f : FmtE} {waited : Option (Option Nat × Nat)} {s : State} (h : StateInv s) :
    ResInv (waitBody f waited s) := by
  unfold waitBody
  dsimp only
  split
  · exact inv_portStopWith h
  · next u e =>
      refine inv_atObject h fun _ _ hv => ?_
      split
      · exact inv_deliverCmd h
      · exact resInv_ite (inv_uniWindow (inv_putUniform (inv_learnFor (inv_withTaken hv)))) h

theorem inv_execGbwait {f : FmtE} {s : State} (h : StateInv s) : NextInv (execGbwait f s) :=
  inv_issue h fun _ hu => inv_waitBody hu

theorem inv_execByteBarrierWaitEnd {vf ident : Nat} {other : Bool} {s : State} (h : StateInv s) :
    NextInv (execByteBarrierWaitEnd vf ident other s) := by
  refine inv_dueOr h (inv_resume h fun _ w _ => ?_)
  cases w with
  | flip f e n => exact fun _ hv => inv_waitBody (f := f) (waited := some (e, n)) hv
  | _ => exact trivial

theorem inv_eventBody {f : FmtE} {expiry : Option Nat} {first : Bool} {s : State} (h : StateInv s) :
    ResInv (eventBody f expiry first s) := by
  unfold eventBody
  dsimp only
  split
  · exact inv_portStopWith h
  · next u e =>
      exact inv_atObject h fun _ _ hv =>
        resInv_ite (inv_uniWindow (inv_putUniform (inv_putObject (inv_acquireFrom (inv_uniteActive (inv_withTaken hv)))))) h

theorem inv_execGewait {f : FmtE} {s : State} (h : StateInv s) : NextInv (execGewait f s) :=
  inv_issue h fun _ hu => inv_eventBody hu

theorem inv_execGevpost {f : FmtE} {s : State} (h : StateInv s) : NextInv (execGevpost f s) := by
  unfold execGevpost
  refine inv_issue h fun _ hu => ?_
  split
  · exact inv_portStopWith hu
  · next v e =>
      dsimp only
      split
      · next e2 => exact (inv_releaseStop hu).get e2
      · exact inv_atObject hu fun _ _ hw => inv_putObject (inv_uniteActive (inv_withTaken hw))

theorem inv_execEventWaitEnd {vf ident : Nat} {other : Bool} {s : State} (h : StateInv s) :
    NextInv (execEventWaitEnd vf ident other s) := by
  unfold execEventWaitEnd
  refine inv_dueOr h (inv_resume h fun _ _ _ => ?_)
  split
  · exact fun _ hv => inv_eventBody hv
  · exact trivial

theorem inv_expired {f : FmtE} {e : Option Nat} {x : Word} {still : State → Bool} {s : State} (h : StateInv s) :
    ResInv (expired f e x still s) := by
  unfold expired
  split
  · exact h
  · refine resInv_ite ?_ h
    split
    · exact inv_portStop h
    · next u e =>
        have hu := (inv_takeAll h).get e
        exact inv_uniWindow (inv_putUniform hu)

theorem inv_execTimedWaitExpiry {vf ident : Nat} {other : Bool} {s : State} (h : StateInv s) :
    NextInv (execTimedWaitExpiry vf ident other s) := by
  refine inv_dueOr h (inv_resume h fun _ w _ => ?_)
  cases w with
  | flip f e n =>
    intro u hu
    dsimp only
    exact inv_expired hu
  | event f e =>
    intro u hu
    dsimp only
    exact inv_expired hu
  | _ => exact trivial

theorem inv_periodDue {s : State} {timer period : Nat} (h : StateInv s) : SomeWith StateInv (periodDue s timer period) :=
  someWith_ite (inv_with h) trivial

/-! ## The device's own accesses -/

theorem inv_vaPieces {a : Acc} {u : Use} {n : Nat} {s : State} {n1 n2 : Nat} (h : StateInv s) :
    OkWith PairInv (vaPieces a u n s n1 n2) := by
  induction n generalizing s n1 n2 with
  | zero => exact h
  | succ n ih =>
    unfold vaPieces
    refine okWith_ite h ?_
    dsimp only
    split
    · exact trivial
    · refine okWith_ite trivial (okWith_ite trivial ?_)
      split
      · exact trivial
      · next e => exact inv_of_mem ((ih (inv_noteWalk h ..)).get e) rfl

theorem inv_vaKeys {s : State} {a : Acc} {u : Use} {va n : Nat} (h : StateInv s) : OkWith PairInv (vaKeys s a u va n) :=
  inv_vaPieces h

theorem inv_countVa {s : State} {a : Acc} {u : Use} {fixed : Bool} {va n : Nat} (h : StateInv s) :
    StateInv (countVa s a u fixed va n) :=
  inv_foldl _ (fun _ _ hv => inv_ite hv (inv_countLater hv)) _ h

theorem inv_dirtyVa {s : State} {a : Acc} {va n : Nat} (h : StateInv s) : StateInv (dirtyVa s a va n) :=
  inv_foldl _ (fun _ _ hu => inv_leaveDirty hu) _ h

theorem inv_vaHome {s : State} {a : Acc} {u : Use} {va n : Nat} (h : StateInv s) : OkWith PairInv (vaHome s a u va n) := by
  unfold vaHome
  split
  · exact trivial
  · next v e =>
      have hv := (inv_vaKeys h).get e
      exact inv_performAt hv

theorem inv_vaAcquire {s : State} {a : Acc} {scope va n : Nat} (h : StateInv s) : OkWith PairInv (vaAcquire s a scope va n) := by
  unfold vaAcquire
  split
  · exact trivial
  · next u e =>
      have hu := (inv_vaKeys h).get e
      exact okWith_ite trivial (inv_noteStrong (inv_countVa (inv_acquireFrom (inv_performAt hu))))

theorem inv_vaPlain {s : State} {a : Acc} {va n : Nat} (h : StateInv s) : OkWith PairInv (vaPlain s a va n) := by
  unfold vaPlain
  split
  · exact trivial
  · next u e =>
      have hu := (inv_vaKeys h).get e
      exact inv_countVa hu

theorem inv_vaStruct {s : State} {a : Acc} {va n : Nat} (h : StateInv s) : OkWith PairInv (vaStruct s a va n) := by
  unfold vaStruct
  split
  · exact trivial
  · next u e =>
      have hu := (inv_vaKeys h).get e
      exact inv_countVa hu

theorem inv_stepMade {s : State} (h : StateInv s) : StateInv (stepMade s) := inv_withMs h

theorem inv_vaPut {s : State} {a : Acc} {va n x : Nat} (h : StateInv s) : OkWith StateInv (vaPut s a va n x) := by
  unfold vaPut
  split
  · exact trivial
  · next u e =>
      have hu := (inv_vaKeys h).get e
      exact inv_dirtyVa (inv_learnFor (inv_followLog (inv_quieten (inv_plainPut (inv_takeFresh hu)))))

theorem inv_vaRmw {s : State} {a : Acc} {va n x : Nat} (h : StateInv s) : OkWith StateInv (vaRmw s a va n x) := by
  unfold vaRmw
  split
  · exact trivial
  · next u e =>
      have hu := (inv_vaKeys h).get e
      exact okWith_ite trivial (inv_putObject (inv_acquireFrom (inv_countVa hu)))

theorem inv_vaRelease {s : State} {a : Acc} {va n x : Nat} (h : StateInv s) : OkWith StateInv (vaRelease s a va n x) := by
  unfold vaRelease
  split
  · exact trivial
  · next u e =>
      have hu := (inv_vaKeys h).get e
      exact okWith_ite trivial (inv_learnFor (inv_noteStrong (inv_strongPut (inv_takeFresh
        (inv_arriveAll (inv_performAt (inv_countVa hu)))))))

theorem inv_enter {s : State} {a : Acc} {ids : List Nat} (h : StateInv s) : StateInv (enter s a ids) := inv_with h

theorem inv_leave {s t : State} (ht : StateInv t) : StateInv (leave s t) := inv_ite (inv_with ht) (inv_with ht)

theorem inv_runAs {α : Type} {s : State} {a : Acc} {ids : List Nat} {m : State → Except Halt (α × State)} (h : StateInv s)
    (hm : ∀ s, StateInv s → OkWith PairInv (m s)) : OkWith (fun x => StateInv x.2.2) (runAs s a ids m) := by
  unfold runAs
  split
  · exact trivial
  · next e =>
      have ht := (hm _ (inv_enter h)).get e
      exact inv_leave ht

theorem inv_actAs {s : State} {a : Acc} {ids : List Nat} {f : State → State} (h : StateInv s)
    (hf : ∀ t, StateInv t → StateInv (f t)) : StateInv (actAs s a ids f) :=
  inv_leave (hf _ (inv_enter h))

theorem inv_haltRes {s : State} {h : Halt} (hs : StateInv s) : ResInv (haltRes s h) := by
  unfold haltRes
  split
  · exact inv_collapseAt hs
  · exact resInv_ite hs trivial

/-! ## Steps of walkers and engines -/

theorem inv_kvFail {α : Type} {c : Nat} : KvInv (kvFail (α := α) c) := fun _ _ => trivial

theorem inv_kvWhen {b : Bool} {c : Nat} : KvInv (kvWhen b c) := kvInv_ite inv_kvFail kvInv_pure

theorem inv_kvHold {b : Bool} : KvInv (kvHold b) := fun _ hu => okWith_ite trivial hu

theorem inv_kvRd {a : Acc} {va n : Nat} : KvInv (kvRd a va n) := fun _ hu => inv_vaPlain hu

theorem inv_kvStruct {a : Acc} {va n : Nat} : KvInv (kvStruct a va n) := fun _ hu => inv_vaStruct hu

theorem inv_kvHome {a : Acc} {va n : Nat} : KvInv (kvHome a va n) := fun _ hu => inv_vaHome hu

theorem inv_kvPeek {a : Acc} {va n : Nat} : KvInv (kvPeek a va n) := fun _ hu => inv_vaHome hu

theorem inv_kvRmw {a : Acc} {va n x : Nat} : KvInv (kvRmw a va n x) := by
  unfold kvRmw
  refine fun _ hu => ?_
  beta_reduce
  split
  · next e => exact inv_of_mem ((inv_vaRmw hu).get e) rfl
  · exact trivial

theorem inv_kvAcquire {a : Acc} {va n : Nat} : KvInv (kvAcquire a va n) := fun _ hu => inv_vaAcquire hu

theorem inv_kvRelease {a : Acc} {va n x : Nat} : KvInv (kvRelease a va n x) := by
  unfold kvRelease
  refine fun _ hu => ?_
  beta_reduce
  split
  · next e => exact inv_of_mem ((inv_vaRelease hu).get e) rfl
  · exact trivial

theorem inv_kvPut {a : Acc} {va n x : Nat} : KvInv (kvPut a va n x) := by
  unfold kvPut
  refine fun _ hu => ?_
  beta_reduce
  split
  · next e => exact inv_of_mem ((inv_vaPut hu).get e) rfl
  · exact trivial

theorem inv_kvCopy {a : Acc} {src dst n : Nat} : KvInv (kvCopy a src dst n) := kvInv_bind inv_kvRd fun _ => inv_kvPut

theorem inv_kvEach {α : Type} {f : α → Kv Unit} {l : List α} (hf : ∀ (a : α), KvInv (f a)) : KvInv (kvEach f l) := by
  induction l with
  | nil => exact kvInv_pure
  | cons _ l ih => exact kvInv_bind (hf _) (fun _ => ih)

theorem inv_kvMap {α β : Type} {f : α → Kv β} {l : List α} (hf : ∀ (a : α), KvInv (f a)) : KvInv (kvMap f l) := by
  induction l with
  | nil => exact kvInv_pure
  | cons _ l ih => exact kvInv_bind (hf _) (fun _ => kvInv_bind ih (fun _ => kvInv_pure))

theorem inv_kvState : KvInv kvState := fun _ hu => hu

theorem inv_kvMod {f : State → State} (hf : ∀ t, StateInv t → StateInv (f t)) : KvInv (kvMod f) := fun _ hu => hf _ hu

theorem inv_readSeq {a : Acc} {va : Nat} : KvInv (readSeq a va) :=
  kvInv_bind inv_kvStruct fun _ => kvInv_bind inv_kvWhen fun _ => kvInv_pure

theorem inv_readRoot {a : Acc} : KvInv (readRoot a) :=
  kvInv_bind inv_kvState fun _ => kvInv_bind inv_kvWhen fun _ => kvInv_bind inv_kvStruct fun _ => kvInv_bind inv_kvWhen fun _ =>
    kvInv_pure

theorem inv_readEntry {a : Acc} {r : KvRoot} {b : Nat} : KvInv (readEntry a r b) := inv_kvStruct

theorem inv_updEntry {a : Acc} {r : KvRoot} {b : Nat} {f : Nat → Nat} : KvInv (updEntry a r b f) :=
  kvInv_bind inv_kvHome fun _ => inv_kvRmw

theorem inv_takeFree {a : Acc} {r : KvRoot} {fill pstate prov : Nat} : KvInv (takeFree a r fill pstate prov) :=
  kvInv_bind inv_kvHome fun _ => kvInv_bind inv_kvWhen fun _ => kvInv_bind inv_kvWhen fun _ => kvInv_bind inv_kvHome fun _ =>
    kvInv_bind inv_kvWhen fun _ => kvInv_bind inv_kvRmw fun _ => kvInv_bind inv_kvRmw fun _ => kvInv_pure

theorem inv_freeEntry {a : Acc} {r : KvRoot} {b x : Nat} : KvInv (freeEntry a r b x) :=
  kvInv_bind inv_kvHome fun _ => kvInv_bind inv_kvRmw fun _ => inv_kvRmw

theorem inv_addRef {a : Acc} {r : KvRoot} {b : Nat} {delta : Int} : KvInv (addRef a r b delta) :=
  kvInv_bind inv_kvHome fun _ => kvInv_bind inv_kvWhen fun _ =>
    kvInv_ite (kvInv_bind inv_kvRmw fun _ => kvInv_pure)
      (kvInv_ite
        (kvInv_ite (kvInv_bind inv_freeEntry fun _ => kvInv_pure)
          (kvInv_bind inv_kvRmw fun _ => kvInv_bind inv_kvHome fun _ => kvInv_bind inv_kvRmw fun _ => kvInv_pure))
        (kvInv_bind inv_kvRmw fun _ => kvInv_pure))

theorem inv_pinBlock {a : Acc} {r : KvRoot} {b : Nat} : KvInv (pinBlock a r b) :=
  kvInv_bind inv_kvHome fun _ => kvInv_bind inv_kvHold fun _ => inv_kvRmw

theorem inv_unpinBlock {a : Acc} {r : KvRoot} {b : Nat} : KvInv (unpinBlock a r b) :=
  kvInv_bind inv_kvHome fun _ => kvInv_ite inv_freeEntry inv_kvRmw

/-! ## Records -/

theorem inv_qCount {s : State} {h off : Nat} (hs : StateInv s) : StateInv (qCount s h off) := inv_physPut hs ..

theorem inv_qWrite {s : State} {h data ident issuer : Nat} {ids : List Nat} (hs : StateInv s) :
    StateInv (qWrite s h data ident issuer ids) :=
  inv_with (inv_putObject (inv_putObject hs))

theorem inv_enqueue {s : State} {vf cluster data ident issuer : Nat} {ids : List Nat} (h : StateInv s) :
    EnqInv (enqueue s vf cluster data ident issuer ids) := by
  unfold enqueue
  split
  · exact inv_qCount h
  · exact enqInv_ite (inv_qCount h) (enqInv_ite (inv_qCount h) (enqInv_ite (inv_with h) (inv_qWrite h)))

theorem inv_enqueueAs {s : State} {a : Acc} {cluster data issuer : Nat} {ids : List Nat} (h : StateInv s) :
    PairInv (enqueueAs s a cluster data issuer ids) := by
  unfold enqueueAs
  split
  · next u e =>
      have hu := (inv_enqueue (inv_enter h)).of_eq e
      exact inv_leave hu
  · next u _ e =>
      have hu := (inv_enqueue (inv_enter h)).of_eq e
      exact inv_leave hu

theorem inv_joinRmw {s : State} {keys : List Nat} {count : Nat} {fail : Bool} {cause : Nat} (h : StateInv s) :
    StateInv (joinRmw s keys count fail cause) :=
  inv_putObject (inv_ite (inv_putObject h) h)

theorem inv_setRepair {s : State} {num : Nat} {r : Option Repair} (h : StateInv s) : StateInv (setRepair s num r) := inv_with h

theorem inv_dropFrames {s : State} {r : Repair} (h : StateInv s) : StateInv (dropFrames s r) := inv_with h

theorem inv_refuseJoin {s : State} {j : Join} (h : StateInv s) : StateInv (refuseJoin s j) := inv_qCount h

theorem inv_continueJoin {s : State} {j : Join} {ids : List Nat} {cont : Nat} (h : StateInv s) :
    PairInv (continueJoin s j ids cont) :=
  inv_enqueueAs h

theorem inv_afterJoin {s : State} {j : Join} {key left : Nat} {ids : List Nat} (h : StateInv s) :
    PairInv (afterJoin s j key left ids) := by
  unfold afterJoin
  split
  · exact h
  · next u e =>
      split
      · exact pairInv_ite (inv_continueJoin h) h
      · exact pairInv_ite (pairInv_ite h (pairInv_ite (inv_setRepair h) (inv_continueJoin (inv_setRepair h))))
          (pairInv_ite (inv_setRepair (inv_dropFrames h)) h)

theorem inv_joinStep {s : State} {j : Join} (h : StateInv s) : EndsWith StateInv PairInv (joinStep s j) := by
  unfold joinStep
  refine endsWith_ite (inv_refuseJoin h) ?_
  split
  · exact inv_collapseAt h
  · exact inv_refuseJoin h
  · next u e =>
      have hu := (inv_vaKeys h).get e
      exact endsWith_ite (inv_refuseJoin hu) (inv_afterJoin (inv_leave (inv_joinRmw (inv_enter hu))))

theorem inv_failEntry {a : Acc} {at_ : Nat} {rwm : Option Nat} : KvInv (failEntry a at_ rwm) := by
  unfold failEntry
  dsimp only
  split
  · exact kvInv_bind inv_kvHome fun _ => kvInv_bind inv_kvRmw fun _ => kvInv_bind inv_kvHome fun _ => inv_kvRmw
  · exact kvInv_bind inv_kvHome fun _ => inv_kvRmw

theorem inv_choreStep {s : State} {x : Chore} (h : StateInv s) : EndsWith StateInv PairInv (choreStep s x) := by
  unfold choreStep
  split
  · exact inv_joinStep h
  · exact h
  · split
    · exact inv_collapseAt h
    · exact h
    · next e => exact (inv_runAs h inv_failEntry).get e
  · refine endsWith_ite h ?_
    split
    · exact inv_collapseAt h
    · exact h
    · next e => exact (inv_runAs h (kvInv_bind inv_readRoot fun _ => inv_unpinBlock)).get e

theorem inv_keepChore {s : State} {x : Chore} (h : StateInv s) : StateInv (keepChore s x) := inv_with h

theorem inv_runChores {n : Nat} {s : State} {l : List Chore} (h : StateInv s) : StateInv (runChores n s l) := by
  induction n generalizing s l with
  | zero => cases l <;> exact h
  | succ n ih =>
    cases l with
    | nil => exact h
    | cons x l =>
      unfold runChores
      split
      · next e => exact ih (inv_keepChore ((inv_choreStep h).err e))
      · next e => exact ih ((inv_choreStep h).get e)

theorem inv_doChore {s : State} {x : Chore} (h : StateInv s) : StateInv (doChore s x) := inv_runChores h

theorem inv_joinedRepairs {s : State} (h : StateInv s) : StateInv (joinedRepairs s) := inv_with h

theorem inv_retryChores {s : State} (h : StateInv s) : StateInv (retryChores s) := by
  unfold retryChores
  split
  · exact h
  · exact inv_joinedRepairs (inv_runChores (inv_with h))

theorem inv_joinFor {s : State} {a : Acc} {cluster prio join : Nat} {fail : Bool} {cause : Nat} {ids : List Nat}
    (h : StateInv s) : StateInv (joinFor s a cluster prio join fail cause ids) :=
  inv_ite h (inv_doChore h)

theorem inv_abandon {s : State} {r : Repair} {rwm : Option Nat} (h : StateInv s) : StateInv (abandon s r rwm) :=
  inv_doChore (inv_setRepair (inv_dropFrames h))

end Sys2Proof.Machine
end

section
/-! Work, KV tables and engines keep the canonical form of memory. -/

namespace Sys2Proof.Machine

/-! ## Work -/

theorem inv_renewTlb {s : State} {vf ident : Nat} (h : StateInv s) : StateInv (renewTlb s vf ident) := inv_withMs h

theorem inv_copyEntry {s : State} {vf from_ dst : Nat} (h : StateInv s) : StateInv (copyEntry s vf from_ dst) :=
  inv_physPut (inv_renewTlb h) ..

theorem inv_addCtx {s : State} {c : Ctx} (h : StateInv s) : StateInv (addCtx s c) := inv_with h

theorem inv_dropNote {s : State} {h count : Nat} (hs : StateInv s) : StateInv (dropNote s h count) := inv_with hs

theorem inv_readTeams {a : Acc} {n : Nat} {s : State} {n1 : Nat} (h : StateInv s) : OkWith PairInv (readTeams a n s n1) := by
  induction n generalizing s n1 with
  | zero => exact h
  | succ n ih =>
    unfold readTeams
    split
    · exact trivial
    · next u e =>
        have hu := (inv_vaPlain h).get e
        split
        · exact trivial
        · next e2 => exact inv_of_mem ((ih hu).get e2) rfl

theorem inv_readGang {s : State} {a : Acc} {va : Nat} (h : StateInv s) : OkWith PairInv (readGang s a va) := by
  unfold readGang
  refine okWith_ite h ?_
  split
  · exact trivial
  · next u e =>
      have hu := (inv_vaPlain h).get e
      refine okWith_ite hu ?_
      split
      · exact trivial
      · next e2 => exact inv_of_mem ((inv_readTeams hu).get e2) rfl

theorem inv_createTeam {gang prio vf pusher idx teamId : Nat} {ids : List Nat} {p : Placed} {l : List (Nat × Nat)} {n : Nat}
    {s : State} (h : StateInv s) : StateInv (createTeam gang prio vf pusher idx teamId ids p l n s) := by
  induction l generalizing n s with
  | nil => exact h
  | cons _ l ih => exact ih (inv_addCtx (inv_copyEntry (inv_takeFresh h)))

theorem inv_createTeams {gang prio vf pusher : Nat} {ids : List Nat} {l : List Placed} {n : Nat} {l1 : List Nat} {s : State}
    (h : StateInv s) : StateInv (createTeams gang prio vf pusher ids l n l1 s) := by
  induction l generalizing n l1 s with
  | nil => exact h
  | cons _ l ih => exact ih (inv_createTeam (inv_takeFresh h))

theorem inv_admitGang {s : State} {g : Gang} {entries : List TeamEntry} (h : StateInv s) :
    SomeWith StateInv (admitGang s g entries) := by
  unfold admitGang
  dsimp only
  split
  · exact inv_createTeams (inv_with (inv_takeFresh h))
  · exact trivial

theorem inv_advanceHead {h n : Nat} {s : State} (hs : StateInv s) : StateInv (advanceHead h n s) := by
  induction n generalizing s with
  | zero => exact hs
  | succ n ih => exact inv_ite hs (inv_ite (ih (inv_physPut hs ..)) hs)

theorem inv_takeRecord {s : State} {h count : Nat} (hs : StateInv s) : StateInv (takeRecord s h count) :=
  inv_ite (inv_advanceHead (inv_physPut (inv_advanceHead (inv_dropNote hs)) ..))
    (inv_physPut (inv_advanceHead (inv_dropNote hs)) ..)

theorem inv_dispatchRecord {s : State} {vf cluster h count data : Nat} (hs : StateInv s) :
    SomeWith StateInv (dispatchRecord s vf cluster h count data) := by
  unfold dispatchRecord
  split
  · split
    · exact trivial
    · exact inv_addCtx (inv_takeRecord (inv_copyEntry (inv_takeFresh hs)))
  · exact trivial

theorem inv_discardRecord {s : State} {vf cluster h count data cause : Nat} (hs : StateInv s) :
    StateInv (discardRecord s vf cluster h count data cause) :=
  inv_joinFor (inv_qCount (inv_takeRecord hs))

theorem inv_passGraph {s : State} {vf cluster hd count data : Nat} (h : StateInv s) :
    SomeWith StateInv (passGraph s vf cluster hd count data) := by
  refine someWith_ite (inv_discardRecord h) (someWith_ite trivial ?_)
  exact inv_runChores (inv_enqueueAs (inv_takeRecord h))

theorem inv_dropHead {s : State} {vf cluster prio count : Nat} (h : StateInv s) : StateInv (dropHead s vf cluster prio count) :=
  inv_with h

theorem inv_accrueHead {dt vf cluster : Nat} {s : State} (h : StateInv s) : StateInv (accrueHead dt vf cluster s) := by
  unfold accrueHead
  split
  · exact h
  · split
    · split <;> exact inv_with h

theorem inv_accrue {s : State} {dt : Nat} (h : StateInv s) : StateInv (accrue s dt) :=
  inv_foldl _ (fun _ _ hu => inv_ite (inv_foldl _ (fun _ _ hv => inv_accrueHead hv) _ hu) hu) _ h

theorem inv_tryRecord {s : State} {vf cluster hd count data : Nat} (h : StateInv s) :
    SomeWith PairInv (tryRecord s vf cluster hd count data) := by
  unfold tryRecord
  dsimp only
  split
  · exact inv_dropHead (inv_discardRecord h)
  · exact trivial
  · next e => exact inv_dropHead (inv_discardRecord ((inv_runAs h fun _ hu => inv_readGang hu).get e))
  · next e =>
      have hu := (inv_runAs h fun _ hu => inv_readGang hu).get e
      refine someWith_ite (inv_dropHead (inv_discardRecord hu)) ?_
      exact someWith_map (inv_admitGang (inv_dropHead hu)) fun _ ht => inv_takeRecord ht

theorem inv_tryAgain {s : State} {q : Requeue} (h : StateInv s) : SomeWith PairInv (tryAgain s q) := by
  have hd : StateInv (dropHead { s with wk := { s.wk with requeue := s.wk.requeue.filter (· != q) } } q.vf q.cluster q.prio
    (2 ^ 32 + q.num)) := inv_dropHead (inv_with h)
  exact someWith_ite (inv_joinFor hd) (someWith_map (inv_admitGang hd) fun _ ht => ht)

theorem inv_tryRequest {s : State} {vf cluster : Nat} {x : Request} (h : StateInv s) :
    SomeWith PairInv (tryRequest s vf cluster x) := by
  unfold tryRequest
  split
  · exact inv_tryRecord h
  · exact inv_tryAgain h

theorem inv_backfill {s : State} {vf cluster : Nat} {l : List Request} (h : StateInv s) :
    SomeWith StateInv (backfill s vf cluster l) := by
  induction l with
  | nil => exact trivial
  | cons _ l ih =>
    unfold backfill
    refine someWith_ite ?_ ?_
    · split
      · next e => exact inv_of_mem ((inv_tryRequest h).get e) rfl
      · exact ih
    · split
      · exact ih
      · refine someWith_ite ih ?_
        split
        · next e => exact inv_of_mem ((inv_dispatchRecord h).get e) rfl
        · exact ih

theorem inv_passTaken {s : State} {vf cluster : Nat} (h : StateInv s) : SomeWith StateInv (passTaken s vf cluster) :=
  someWith_map someWith_true fun _ _ => inv_advanceHead h

theorem inv_dispatchHead {s : State} {vf cluster : Nat} {c : Request} (h : StateInv s) :
    SomeWith StateInv (dispatchHead s vf cluster c) := by
  refine someWith_ite (someWith_map (inv_tryRequest h) fun _ hx => hx) ?_
  split
  · exact trivial
  · exact someWith_ite (inv_discardRecord h) (someWith_ite (inv_passGraph h) (inv_dispatchRecord h))

theorem inv_dispatchStep {vf cluster : Nat} {s : State} (h : StateInv s) : NextInv (dispatchStep vf cluster s) := by
  unfold dispatchStep
  refine nextInv_ite h ?_
  split
  · next e => exact inv_of_mem ((inv_passTaken h).get e) rfl
  · split
    · exact h
    · split
      · next e => exact inv_of_mem ((inv_dispatchHead h).get e) rfl
      · exact inv_dueOr h (someWith_ite trivial (inv_backfill h))

theorem inv_execHoldReached {vf cluster : Nat} {s : State} (h : StateInv s) : NextInv (execHoldReached vf cluster s) := by
  unfold execHoldReached
  split
  · exact h
  · split
    · exact nextInv_ite h (inv_with h)
    · exact h

theorem inv_admissionStep {vf cluster : Nat} {s : State} (h : StateInv s) : NextInv (admissionStep vf cluster s) := by
  refine nextInv_ite h ?_
  split
  · exact h
  · exact inv_dueOr h (someWith_map (inv_tryRequest h) fun _ hx => hx)

theorem inv_execOverflowRetry {n : Nat} {s : State} (h : StateInv s) : NextInv (execOverflowRetry n s) := by
  unfold execOverflowRetry
  split
  · exact h
  · exact nextInv_ite h (inv_runChores (inv_enqueueAs (inv_with h)))

theorem inv_launchNode {s : State} {vf cluster node h : Nat} {mine : List (Nat × Nat)} (hs : StateInv s) :
    SomeWith StateInv (launchNode s vf cluster node h mine) := by
  unfold launchNode
  split
  · split
    · exact trivial
    · exact inv_addCtx (inv_foldl _ (fun _ _ hu => inv_takeRecord hu) _ (inv_copyEntry (inv_takeFresh hs)))
  · exact trivial

theorem inv_execGraphNodeLaunch {vf node : Nat} {s : State} (h : StateInv s) : NextInv (execGraphNodeLaunch vf node s) := by
  unfold execGraphNodeLaunch
  refine nextInv_ite h ?_
  dsimp only
  split
  · exact inv_discardRecord h
  · refine nextInv_ite h ?_
    split
    · exact inv_discardRecord h
    · exact inv_dueOr h (inv_launchNode h)

theorem inv_endGang {s : State} {gang : Nat} (h : StateInv s) : StateInv (endGang s gang) := by
  unfold endGang
  refine inv_ite h ?_
  split
  · exact h
  · exact inv_joinFor (inv_with h)

theorem inv_failGang {s : State} {gang cause : Nat} (h : StateInv s) : StateInv (failGang s gang cause) := inv_with h

theorem inv_noteEnd {s : State} {gang : Nat} {ids : List Nat} (h : StateInv s) : StateInv (noteEnd s gang ids) := inv_with h

theorem inv_removeCtx {s : State} {vf ident : Nat} (h : StateInv s) : StateInv (removeCtx s vf ident) :=
  inv_with (inv_withdraw (inv_dropMatrix h))

theorem inv_closeCmds {s : State} {uid : Nat} (h : StateInv s) : StateInv (closeCmds s uid) := inv_with h

theorem inv_finishCtx {s : State} {c : Ctx} (h : StateInv s) : StateInv (finishCtx s c) := by
  unfold finishCtx
  dsimp only
  split
  · split
    · exact inv_joinFor (inv_closeCmds (inv_removeCtx h))
    · exact inv_closeCmds (inv_removeCtx h)
  · refine inv_endGang (inv_noteEnd ?_)
    split
    · exact inv_failGang (inv_closeCmds (inv_removeCtx h))
    · exact inv_closeCmds (inv_removeCtx h)

theorem inv_execGroupEnd {vf ident : Nat} {s : State} (h : StateInv s) : NextInv (execGroupEnd vf ident s) := by
  unfold execGroupEnd
  split
  · exact h
  · exact nextInv_ite h (nextInv_ite (inv_dueOr h (inv_onCtx h fun _ hu => inv_takeTrap hu)) (nextInv_ite h (inv_finishCtx h)))

theorem inv_loseLink {die : Nat} {s : State} {g : Gang} (h : StateInv s) : StateInv (loseLink die s g) :=
  inv_ite (inv_joinFor (inv_with (inv_foldl _ (fun _ _ hu => inv_removeCtx hu) _ h)))
    (inv_ite (inv_joinFor (inv_qCount (inv_with (inv_foldl _ (fun _ _ hu => inv_removeCtx hu) _ h))))
      (inv_with (inv_takeFresh (inv_with (inv_foldl _ (fun _ _ hu => inv_removeCtx hu) _ h)))))

theorem inv_abandonHomeMoves {s : State} (h : StateInv s) : StateInv (abandonHomeMoves s) := inv_with h

theorem inv_execDieLinkLoss {die : Nat} {s : State} (h : StateInv s) : NextInv (execDieLinkLoss die s) :=
  inv_abandonHomeMoves (inv_foldl _ (fun _ _ hu => inv_loseLink hu) _ h)

theorem inv_execGspawn {f : FmtR} {s : State} (h : StateInv s) : NextInv (execGspawn f s) := by
  unfold execGspawn
  refine inv_issue h fun _ hu => ?_
  split
  · exact inv_portStop hu
  · next v e =>
      have hv := (inv_takeAll hu).get e
      dsimp only
      split
      · exact inv_putUniform (inv_addCtx (inv_copyEntry (inv_takeFresh (inv_uniteActive hv))))
      · exact inv_putUniform hv

theorem inv_pushCheck {s : State} {cluster data : Nat} (h : StateInv s) : OkWith PairInv (pushCheck s cluster data) := by
  unfold pushCheck
  refine okWith_ite h (okWith_ite h (okWith_ite ?_ h))
  split
  · exact trivial
  · next e => exact inv_of_mem ((inv_readGang h).get e) rfl
  · next e => exact inv_of_mem ((inv_readGang h).get e) rfl

theorem inv_pushRecord {s s' : State} {d : RegCode} {cluster data : Nat} (h : StateInv s) (hs' : StateInv s') :
    ResInv (pushRecord s s' d cluster data) := by
  unfold pushRecord
  split
  · exact inv_haltRes h
  · next u e =>
      have hu := (inv_pushCheck hs').get e
      exact trivial
  · next u e =>
      have hu := (inv_pushCheck hs').get e
      split
      · exact inv_putUniform (inv_joinFor (inv_qCount hu))
      · refine resInv_ite trivial ?_
        split
        · next e2 => exact (inv_releaseStop h).get e2
        · exact resInv_ite (inv_putUniform hu) (inv_withFiled (inv_putUniform (inv_qWrite
            (inv_arriveAll (inv_uniteActive hu)))))

theorem inv_execGcpush {f : FmtR} {s : State} (h : StateInv s) : NextInv (execGcpush f s) := by
  unfold execGcpush
  refine inv_issue h fun _ hu => ?_
  split
  · exact inv_portStop hu
  · next v e =>
      have hv := (inv_takeAll hu).get e
      exact resInv_ite trivial (inv_pushRecord hu hv)

theorem inv_execGlaunch {f : FmtR} {s : State} (h : StateInv s) : NextInv (execGlaunch f s) := by
  unfold execGlaunch
  refine inv_issue h fun _ hu => ?_
  split
  · exact inv_portStop hu
  · next v e =>
      have hv := (inv_takeAll hu).get e
      exact inv_pushRecord hu hv

theorem inv_joinKeys {s s' : State} {addr : Nat} (h : StateInv s) (hs' : StateInv s') :
    EndsWith ResInv PairInv (joinKeys s s' addr) := by
  unfold joinKeys
  split
  · exact resInv_ite trivial (inv_haltRes h)
  · exact inv_haltRes h
  · next p e =>
      have hp := (inv_vaKeys hs').get e
      exact endsWith_ite trivial hp

theorem inv_execGcjoin {f : FmtR} {s : State} (h : StateInv s) : NextInv (execGcjoin f s) := by
  unfold execGcjoin
  refine inv_issue h fun _ hu => ?_
  split
  · exact inv_portStop hu
  · next v e =>
      have hv := (inv_takeAll hu).get e
      refine resInv_ite trivial ?_
      split
      · next e2 => exact (inv_joinKeys hu hv).err e2
      · next w e2 =>
          have hw := (inv_joinKeys hu hv).get e2
          split
          · next e3 => exact (inv_releaseStop hu).get e3
          · exact resInv_ite trivial (resInv_ite trivial (inv_withFiled (inv_runChores (inv_afterJoin
              (inv_joinRmw (inv_uniteActive (inv_countVa hw)))))))

theorem inv_execGapon {f : FmtR} {s : State} (h : StateInv s) : NextInv (execGapon f s) := by
  unfold execGapon
  refine inv_issue h fun _ hu => ?_
  split
  · exact inv_portStop hu
  · next v e =>
      have hv := (inv_takeAll hu).get e
      refine resInv_ite (inv_putUniform hv) ?_
      dsimp only
      split
      · exact inv_putUniform hv
      · exact inv_with (inv_putUniform (inv_uniteActive hv))

theorem inv_execGapoff {f : FmtR} {s : State} (h : StateInv s) : NextInv (execGapoff f s) := inv_issue h fun _ hu => inv_with hu

theorem inv_execGid {f : FmtI} {s : State} (h : StateInv s) : NextInv (execGid f s) :=
  inv_issue h fun _ hu => resInv_ite hu (resInv_ite (inv_putLanes hu) (inv_putUniform hu))

theorem inv_execGyield {f : FmtR} {s : State} (h : StateInv s) : NextInv (execGyield f s) := inv_issue h fun _ hu => hu

theorem inv_execGmfence {f : FmtR} {s : State} (h : StateInv s) : NextInv (execGmfence f s) :=
  inv_issue h fun _ hu => resInv_ite hu (inv_with (inv_putUniform hu))

theorem inv_execGmwait {f : FmtI} {s : State} (h : StateInv s) : NextInv (execGmwait f s) := by
  unfold execGmwait
  refine inv_issue h fun _ hu => ?_
  split
  · exact inv_portStop hu
  · next v e =>
      have hv := (inv_takeAll hu).get e
      exact resInv_ite hu hv

/-! ## KV forms, splices and repairs -/

/-- A computation for the group that acts keeps the invariant, and what it gives meets a predicate. -/
def KvGives {α : Type} (P : α → Prop) (m : Kv α) : Prop := ∀ s, StateInv s → OkWith (fun x => P x.1 ∧ StateInv x.2) (m s)

theorem kvGives_pure {α : Type} {P : α → Prop} {x : α} (h : P x) : KvGives P (pure x : Kv α) := fun _ hs => ⟨h, hs⟩

theorem kvGives_ite {α : Type} {P : α → Prop} {p : Prop} [Decidable p] {a b : Kv α} (h : KvGives P a) (k : KvGives P b) :
    KvGives P (if p then a else b) := by
  split <;> assumption

theorem kvGives_bind {α β : Type} {P : β → Prop} {m : Kv α} {f : α → Kv β} (h : KvInv m) (k : ∀ x, KvGives P (f x)) :
    KvGives P (m >>= f) := by
  intro s hs
  have hm := h s hs
  simp only [bind, StateT.bind, Except.bind]
  cases e : m s with
  | error _ => exact trivial
  | ok p => exact k p.1 p.2 (hm.get e)

theorem inv_readNode {a : Acc} {r : KvRoot} {n : Nat} : KvInv (readNode a r n) :=
  kvInv_bind inv_kvWhen fun _ => kvInv_bind inv_kvStruct fun _ => kvInv_bind inv_kvWhen fun _ => kvInv_pure

theorem inv_tokAt {a : Acc} {d : SeqDesc} {p : Nat} : KvInv (tokAt a d p) := inv_kvStruct

theorem inv_liveBlock {a : Acc} {r : KvRoot} {b : Nat} : KvInv (liveBlock a r b) :=
  kvInv_bind inv_kvWhen fun _ => kvInv_bind inv_readEntry fun _ => inv_kvWhen

theorem inv_walkNode {a : Acc} {r : KvRoot} {d : SeqDesc} {pos n n1 : Nat} : KvInv (walkNode a r d pos n n1) := by
  induction n generalizing n1 with
  | zero => exact inv_kvFail
  | succ n ih =>
    unfold walkNode
    refine kvInv_bind inv_readNode fun _ => kvInv_bind inv_kvWhen fun _ =>
      kvInv_ite (kvInv_bind inv_liveBlock fun _ => kvInv_pure) (kvInv_bind inv_tokAt fun _ => ?_)
    split
    · exact inv_kvFail
    · exact ih

theorem inv_walkPos {a : Acc} {r : KvRoot} {d : SeqDesc} {pos : Nat} : KvInv (walkPos a r d pos) :=
  kvInv_bind inv_kvWhen fun _ => inv_walkNode

theorem inv_findChild {a : Acc} {r : KvRoot} {key n n1 : Nat} : KvInv (findChild a r key n n1) := by
  induction n generalizing n1 with
  | zero => exact kvInv_pure
  | succ n ih =>
    unfold findChild
    split
    · exact kvInv_pure
    · split
      · exact kvInv_pure
      · exact kvInv_bind inv_readNode fun _ => ih

theorem inv_descend {a : Acc} {r : KvRoot} {p key n n1 n2 : Nat} : KvInv (descend a r p key n n1 n2) := by
  induction n generalizing n1 n2 with
  | zero => exact kvInv_pure
  | succ n ih =>
    unfold descend
    refine kvInv_ite kvInv_pure (kvInv_bind inv_findChild fun _ => ?_)
    split
    · exact kvInv_pure
    · exact kvInv_bind inv_readNode fun _ => kvInv_ite ih kvInv_pure

theorem inv_leafOf {a : Acc} {r : KvRoot} {d : SeqDesc} : KvInv (leafOf a r d) :=
  kvInv_ite
    (kvInv_bind inv_readNode fun _ => kvInv_bind kvInv_pure fun _ => kvInv_bind inv_tokAt fun _ =>
      kvInv_bind inv_descend fun _ => kvInv_bind inv_kvWhen fun _ => kvInv_pure)
    (kvInv_bind inv_walkPos fun _ => kvInv_bind kvInv_pure fun _ => kvInv_bind inv_tokAt fun _ =>
      kvInv_bind inv_descend fun _ => kvInv_bind inv_kvWhen fun _ => kvInv_pure)

theorem inv_append {a : Acc} {seq : Nat} : KvInv (append a seq) :=
  kvInv_bind inv_readSeq fun _ => kvInv_bind inv_readRoot fun _ => kvInv_bind inv_leafOf fun _ => kvInv_bind inv_kvWhen fun _ =>
    kvInv_bind inv_kvWhen fun _ =>
    kvInv_ite
      (kvInv_bind inv_kvWhen fun _ => kvInv_bind inv_takeFree fun _ => kvInv_bind inv_kvPut fun _ =>
        kvInv_bind kvInv_pure fun _ => kvInv_bind inv_kvPut fun _ => kvInv_bind inv_kvRelease fun _ =>
        kvInv_bind inv_kvPeek fun _ => kvInv_bind (inv_kvMod fun _ hu => inv_stepMade hu) fun _ => kvInv_pure)
      (kvInv_bind inv_kvWhen fun _ => kvInv_bind inv_kvHome fun _ => kvInv_bind inv_kvWhen fun _ =>
        kvInv_bind inv_kvWhen fun _ => kvInv_bind inv_kvRmw fun _ => kvInv_bind kvInv_pure fun _ =>
        kvInv_bind inv_kvPut fun _ => kvInv_bind inv_kvRelease fun _ => kvInv_bind inv_kvPeek fun _ =>
        kvInv_bind (inv_kvMod fun _ hu => inv_stepMade hu) fun _ => kvInv_pure)

theorem inv_kvResOf {α : Type} {P : α → Prop} {s s' : State} {m : Kv α} {k : α → State → Res} (h : StateInv s)
    (hs' : StateInv s') (hm : KvGives P m) (hk : ∀ x t, P x → StateInv t → ResInv (k x t)) : ResInv (kvRes s s' m k) := by
  unfold kvRes
  split
  · exact inv_haltRes h
  · next e =>
    obtain ⟨hx, hu⟩ := (hm _ hs').get e
    exact inv_withFiled (hk _ _ hx hu)

theorem inv_kvRes {α : Type} {s s' : State} {m : Kv α} {k : α → State → Res} (h : StateInv s) (hs' : StateInv s')
    (hm : KvInv m) (hk : ∀ x t, StateInv t → ResInv (k x t)) : ResInv (kvRes s s' m k) := by
  unfold kvRes
  split
  · exact inv_haltRes h
  · next u e =>
      have hu := (hm _ hs').get e
      exact inv_withFiled (hk _ _ hu)

theorem inv_kvResult {s t : State} {f : FmtE} {vals : List Word} (ht : StateInv t) : ResInv (kvResult s t f vals) :=
  inv_uniWindow (inv_putUniforms ht)

theorem inv_kvStop {s : State} {o : KvOrd} (h : StateInv s) : SomeWith ResInv (kvStop s o) := by
  cases o with
  | plain => exact trivial
  | strong => exact someWith_map (inv_goneStop h) fun _ ht => ht
  | release => exact inv_releaseStop h

theorem inv_kvForm {f : FmtE} {bad : State → List Nat} {srcs : List (Nat × RegCode × Nat)} {w : Nat} {ord : KvOrd}
    {fn : State → List Opnd → Acc → Kv (List Word)} {s : State} (hfn : ∀ t os a, StateInv t → KvInv (fn t os a))
    (h : StateInv s) : NextInv (kvForm f bad srcs w ord fn s) := by
  unfold kvForm
  refine inv_issue h fun _ hu => resInv_ite hu ?_
  split
  · exact inv_portStop hu
  · next v e =>
      have hv := (inv_takeAll hu).get e
      split
      · next e2 => exact (inv_kvStop hu).get e2
      · exact inv_kvRes hu (inv_uniteActive hv) (hfn _ _ _ hu) fun _ _ hx => inv_kvResult hx

theorem inv_execGkvwalk {f : FmtE} {s : State} (h : StateInv s) : NextInv (execGkvwalk f s) :=
  inv_kvForm (fun _ _ _ _ =>
    kvInv_bind inv_readSeq fun _ => kvInv_bind inv_readRoot fun _ => kvInv_bind inv_walkPos fun _ => kvInv_pure) h

theorem inv_execGkvwalkNode {f : FmtE} {s : State} (h : StateInv s) : NextInv (execGkvwalkNode f s) :=
  inv_kvForm (fun _ _ _ _ =>
    kvInv_bind inv_readSeq fun _ => kvInv_bind inv_readRoot fun _ => kvInv_bind inv_walkPos fun _ => kvInv_pure) h

theorem inv_execGkvref {f : FmtE} {s : State} (h : StateInv s) : NextInv (execGkvref f s) :=
  inv_kvForm (fun _ _ _ _ =>
    kvInv_bind inv_readRoot fun _ => kvInv_bind inv_kvWhen fun _ => kvInv_bind inv_addRef fun _ =>
    kvInv_bind (inv_kvMod fun _ hv => inv_stepMade hv) fun _ => kvInv_pure) h

theorem inv_execGkvnew {f : FmtE} {s : State} (h : StateInv s) : NextInv (execGkvnew f s) :=
  inv_kvForm (fun _ _ _ _ => kvInv_bind inv_append fun _ => kvInv_pure) h

theorem inv_execGrepwm {f : FmtE} {s : State} (h : StateInv s) : NextInv (execGrepwm f s) :=
  inv_kvForm (fun _ _ _ _ =>
    kvInv_bind inv_readRoot fun _ => kvInv_bind inv_kvWhen fun _ => kvInv_bind inv_kvAcquire fun _ => kvInv_pure) h

theorem inv_execGprov {f : FmtE} {s : State} (h : StateInv s) : NextInv (execGprov f s) :=
  inv_kvForm (fun _ _ _ _ =>
    kvInv_bind inv_readRoot fun _ => kvInv_bind inv_kvWhen fun _ => kvInv_bind inv_kvRd fun _ =>
    kvInv_ite kvInv_pure (kvInv_bind inv_kvRd fun _ => kvInv_pure)) h

theorem inv_execGprovEnt {f : FmtE} {s : State} (h : StateInv s) : NextInv (execGprovEnt f s) :=
  inv_kvForm (fun _ _ _ _ =>
    kvInv_bind inv_readRoot fun _ => kvInv_bind inv_kvWhen fun _ => kvInv_bind inv_kvRd fun _ => kvInv_pure) h

theorem inv_execGring {f : FmtE} {s : State} (h : StateInv s) : NextInv (execGring f s) :=
  inv_kvForm (fun _ _ _ _ =>
    kvInv_bind inv_kvRd fun _ => kvInv_bind (inv_kvMap fun _ => inv_kvRd) fun _ => kvInv_bind inv_kvWhen fun _ => kvInv_pure) h

theorem inv_runSteps {l : List (Kv Unit)} {n n1 : Nat} {s : State} (hl : ∀ m ∈ l, KvInv m) (h : StateInv s) :
    PairInv (runSteps l n n1 s) := by
  induction l generalizing n s with
  | nil => exact h
  | cons m l ih =>
    have ih' (n : Nat) {s : State} := ih (n := n) (s := s) fun x hx => hl x (List.mem_cons_of_mem _ hx)
    refine pairInv_ite (ih' _ h) ?_
    split
    · exact h
    · next e =>
        have hu := (hl m List.mem_cons_self _ h).get e
        exact ih' _ (inv_stepMade (inv_with hu))

theorem inv_stopLong {s t : State} {h : Halt} (ht : StateInv t) : ResInv (stopLong s t h) := by
  unfold stopLong
  split
  · exact inv_collapseAt ht
  · exact resInv_ite ht (inv_raiseNow ht)

theorem inv_readSplice {a : Acc} {va : Nat} : KvInv (readSplice a va) :=
  kvInv_bind inv_kvRd fun _ => kvInv_bind inv_kvWhen fun _ => kvInv_pure

theorem inv_oldPath {a : Acc} {r : KvRoot} {d : SeqDesc} {p m n n1 n2 : Nat} : KvInv (oldPath a r d p m n n1 n2) := by
  induction n generalizing n1 n2 with
  | zero => exact inv_kvFail
  | succ n ih =>
    unfold oldPath
    refine kvInv_bind inv_readNode fun _ => kvInv_ite kvInv_pure (kvInv_bind inv_tokAt fun _ => ?_)
    split
    · exact inv_kvFail
    · exact kvInv_bind ih fun _ => kvInv_pure

theorem inv_newPath {a : Acc} {r : KvRoot} {d : SeqDesc} {m n n1 n2 : Nat} : KvInv (newPath a r d m n n1 n2) := by
  induction n generalizing n1 n2 with
  | zero => exact inv_kvFail
  | succ n ih =>
    unfold newPath
    refine kvInv_ite kvInv_pure (kvInv_bind inv_tokAt fun _ => ?_)
    split
    · exact inv_kvFail
    · exact kvInv_bind inv_readNode fun _ => kvInv_bind ih fun _ => kvInv_pure

theorem inv_spliceFills {a : Acc} {r : KvRoot} {check : Bool} {l : List Nat} : KvInv (spliceFills a r check l) :=
  inv_kvMap fun _ => kvInv_bind inv_kvWhen fun _ => kvInv_bind inv_readEntry fun _ => kvInv_bind inv_kvWhen fun _ => kvInv_pure

theorem inv_spliceTag {a : Acc} {r : KvRoot} {d : SeqDesc} {b : Nat} : KvInv (spliceTag a r d b) :=
  kvInv_bind inv_readEntry fun _ => kvInv_bind inv_kvWhen fun _ => kvInv_bind inv_kvRd fun _ => inv_kvWhen

theorem inv_splicePlan {a : Acc} {r : KvRoot} {d : SeqDesc} {q : SpliceDesc} {check : Bool} : KvInv (splicePlan a r d q check) := by
  refine kvInv_bind inv_kvWhen fun _ => kvInv_bind inv_spliceFills fun _ =>
    kvInv_ite (kvInv_bind (inv_kvEach fun _ => inv_spliceTag) fun _ => ?_) ?_
  all_goals
    refine kvInv_bind inv_oldPath fun _ => kvInv_bind inv_kvWhen fun _ =>
      kvInv_ite (kvInv_bind inv_leafOf fun _ => ?_) (kvInv_bind kvInv_pure fun _ => ?_)
  all_goals
    refine kvInv_ite (kvInv_bind ?_ fun _ => ?_) kvInv_pure
    · exact inv_kvEach fun _ => inv_kvEach fun _ => kvInv_bind inv_readEntry fun _ => inv_kvWhen
    · exact kvInv_bind inv_kvWhen fun _ => kvInv_bind inv_kvPeek fun _ => kvInv_bind inv_kvWhen fun _ => kvInv_pure

theorem inv_stepRef {a : Acc} {r : KvRoot} {b : Nat} {delta : Int} : KvInv (stepRef a r b delta) :=
  kvInv_bind inv_kvHome fun _ => kvInv_bind inv_kvState fun _ => kvInv_bind inv_kvRmw fun _ => kvInv_pure

theorem inv_displace {a : Acc} {r : KvRoot} {b : Nat} : KvInv (displace a r b) :=
  kvInv_bind inv_kvPeek fun _ => kvInv_ite inv_kvRmw kvInv_pure

theorem inv_copySlots {a : Acc} {d : SeqDesc} {src dst slot : Nat} : KvInv (copySlots a d src dst slot) :=
  inv_kvEach fun _ => inv_kvCopy

theorem inv_spliceBlock {a : Acc} {r : KvRoot} {va : Nat} {p : SplicePlan} : KvInv (spliceBlock a r va p) := by
  unfold spliceBlock
  refine kvInv_bind inv_kvState fun _ => kvInv_ite kvInv_pure ?_
  split <;> exact kvInv_pure

theorem inv_spliceStep1 {a : Acc} {r : KvRoot} {d : SeqDesc} {va : Nat} {p : SplicePlan} : KvInv (spliceStep1 a r d va p) :=
  kvInv_ite kvInv_pure (kvInv_bind inv_kvWhen fun _ => kvInv_bind inv_pinBlock fun _ => kvInv_bind inv_kvPeek fun _ =>
    kvInv_bind inv_takeFree fun _ => kvInv_bind inv_pinBlock fun _ => kvInv_bind inv_kvPeek fun _ =>
    kvInv_bind inv_copySlots fun _ => kvInv_bind inv_unpinBlock fun _ => kvInv_bind inv_unpinBlock fun _ =>
    inv_kvMod fun _ hu => inv_with hu)

theorem inv_spliceStep2 {a : Acc} {r : KvRoot} {q : SpliceDesc} {va : Nat} {p : SplicePlan} : KvInv (spliceStep2 a r q va p) :=
  kvInv_ite kvInv_pure (kvInv_bind inv_spliceBlock fun _ => kvInv_bind inv_kvPut fun _ => inv_kvEach fun _ => inv_displace)

theorem inv_spliceStep3 {a : Acc} {r : KvRoot} {d : SeqDesc} {q : SpliceDesc} {p : SplicePlan} : KvInv (spliceStep3 a r d q p) :=
  kvInv_ite (kvInv_bind kvInv_pure fun _ => inv_kvPut) (kvInv_bind inv_tokAt fun _ => inv_kvPut)

theorem inv_spliceStep4 {a : Acc} {r : KvRoot} {d : SeqDesc} {q : SpliceDesc} {p : SplicePlan} :
    KvInv (spliceStep4 a r d q p) := by
  unfold spliceStep4
  refine kvInv_bind inv_tokAt fun _ => ?_
  dsimp only
  split
  · exact kvInv_bind inv_kvPut fun _ => kvInv_bind inv_kvPut fun _ => kvInv_bind inv_kvPut fun _ => inv_kvEach fun _ =>
      kvInv_bind inv_stepRef fun _ => kvInv_ite inv_updEntry kvInv_pure
  · exact kvInv_bind inv_kvRmw fun _ => inv_kvEach fun _ => kvInv_bind inv_stepRef fun _ => kvInv_ite inv_updEntry kvInv_pure
  · exact kvInv_bind inv_kvRmw fun _ => inv_kvEach fun _ => kvInv_bind inv_stepRef fun _ => kvInv_ite inv_updEntry kvInv_pure
  · exact kvInv_bind inv_kvPut fun _ => kvInv_bind inv_kvPut fun _ => inv_kvEach fun _ => kvInv_bind inv_stepRef fun _ =>
      kvInv_ite inv_updEntry kvInv_pure

theorem inv_spliceShift {a : Acc} {r : KvRoot} {m n : Nat} : KvInv (spliceShift a r m n) :=
  kvInv_bind inv_readNode fun _ => kvInv_bind inv_kvPut fun _ => inv_kvEach fun _ => inv_displace

theorem inv_shiftedRun {a : Acc} {r : KvRoot} {l : List Nat} {n : Nat} : KvInv (shiftedRun a r l n) := by
  induction l generalizing n with
  | nil => exact kvInv_pure
  | cons _ l ih => exact kvInv_bind inv_readNode (fun _ => kvInv_ite (kvInv_bind (ih) (fun _ => kvInv_pure)) kvInv_pure)

theorem inv_exceptTail {a : Acc} {r : KvRoot} {q : SpliceDesc} {m done : Nat} {l : List Nat} :
    KvInv (exceptTail a r q m done l) :=
  kvInv_bind inv_shiftedRun fun _ => kvInv_pure

/-- Every step of a splice keeps the invariant. -/
theorem kvGives_spliceSteps {a : Acc} {va pidx : Nat} :
    KvGives (fun x => ∀ m ∈ x.2.1, KvInv m) (spliceSteps a va pidx) := by
  refine kvGives_bind inv_readSplice fun _ => kvGives_bind inv_readSeq fun _ => kvGives_bind inv_readRoot fun _ => kvGives_ite ?_ ?_
  · refine kvGives_bind inv_splicePlan fun p => kvGives_pure fun m hm => ?_
    simp only [List.mem_append, List.mem_cons, List.not_mem_nil, or_false, List.mem_map] at hm
    obtain (rfl | rfl | rfl | rfl) | ⟨_, _, rfl⟩ := hm
    · exact inv_spliceStep1
    · exact inv_spliceStep2
    · exact inv_spliceStep3
    · exact inv_spliceStep4
    · exact inv_spliceShift
  · refine kvGives_bind inv_spliceFills fun _ => kvGives_bind inv_readNode fun _ => kvGives_bind inv_newPath fun _ =>
      kvGives_bind inv_exceptTail fun _ => kvGives_pure fun m hm => ?_
    simp only [List.mem_append, List.mem_cons, List.not_mem_nil, or_false, or_self, List.mem_map] at hm
    obtain rfl | ⟨_, _, rfl⟩ := hm
    · exact kvInv_pure
    · exact inv_spliceShift

theorem inv_dropSplices {s : State} {a : Acc} {va : Nat} (h : StateInv s) : StateInv (dropSplices s a va) := inv_with h

theorem inv_execGsplice {f : FmtE} {s : State} (h : StateInv s) : NextInv (execGsplice f s) := by
  refine inv_issue h fun u hu => ?_
  split
  · exact inv_portStop hu
  · next os s' e =>
    have hv := (inv_takeAll hu).get e
    dsimp only
    split
    · next e2 => exact (inv_releaseStop hu).get e2
    · refine inv_kvResOf hu (inv_uniteActive hv) kvGives_spliceSteps fun ⟨m, steps, d, q⟩ t hl ht => ?_
      refine resInv_ite trivial ?_
      have hr := inv_runSteps (n := 0) (n1 := u.g.pidx.toNat) hl
        (inv_ite (p := u.g.pidx = 0) (inv_dropSplices (a := accOf u.g) (va := (uniPair u os 0).toNat) ht) ht)
      split
      · next e3 => exact inv_stopLong (hr.of_eq e3)
      · next e3 =>
        split
        · exact inv_stopLong (hr.of_eq e3)
        · next e4 =>
          have hw := (inv_kvRelease _ (hr.of_eq e3)).get e4
          exact inv_kvResult (inv_dropSplices (inv_with (inv_stepMade hw)))

theorem inv_readRepair {a : Acc} {va : Nat} : KvInv (readRepair a va) :=
  kvInv_bind inv_kvRd fun _ => kvInv_bind inv_kvWhen fun _ => kvInv_pure

theorem inv_selectedOf {a : Acc} {q : RepairDesc} {done : Nat} : KvInv (selectedOf a q done) :=
  kvInv_bind inv_kvRd fun _ => kvInv_pure

theorem inv_measure {a : Acc} {r : KvRoot} {d : SeqDesc} {q : RepairDesc} {j : Nat} : KvInv (measure a r d q j) :=
  kvInv_bind inv_walkPos fun _ => kvInv_bind inv_pinBlock fun _ => kvInv_bind inv_kvPeek fun _ => kvInv_bind inv_kvRd fun _ =>
    kvInv_bind inv_kvRd fun _ => kvInv_bind inv_kvState fun _ => kvInv_bind inv_kvRd fun _ => kvInv_bind inv_selectedOf fun _ =>
    kvInv_bind inv_kvPut fun _ => kvInv_ite (kvInv_bind inv_kvPut fun _ => inv_unpinBlock) inv_unpinBlock

theorem inv_privatise {a : Acc} {r : KvRoot} {d : SeqDesc} {q : RepairDesc} {j : Nat} : KvInv (privatise a r d q j) :=
  kvInv_bind inv_walkPos fun _ => kvInv_bind inv_kvPeek fun _ =>
    kvInv_ite kvInv_pure (kvInv_bind inv_pinBlock fun _ => kvInv_bind inv_takeFree fun _ => kvInv_bind inv_pinBlock fun _ =>
    kvInv_bind inv_kvPeek fun _ => kvInv_bind inv_copySlots fun _ => kvInv_bind inv_unpinBlock fun _ =>
    kvInv_bind inv_unpinBlock fun _ => kvInv_bind inv_kvPut fun _ => kvInv_bind inv_stepRef fun _ => kvInv_pure)

theorem inv_markedBlocks {a : Acc} {r : KvRoot} {d : SeqDesc} {q : RepairDesc} {picks : List Nat} :
    KvInv (markedBlocks a r d q picks) :=
  kvInv_bind (inv_kvMap fun _ => kvInv_bind inv_walkPos fun _ => kvInv_pure) fun _ => kvInv_pure

theorem inv_checkpoint {a : Acc} {r : KvRoot} {d : SeqDesc} {q : RepairDesc} {j : Nat} : KvInv (checkpoint a r d q j) :=
  kvInv_bind inv_walkPos fun _ => kvInv_bind inv_pinBlock fun _ => kvInv_bind inv_kvPeek fun _ =>
    kvInv_bind (inv_kvEach fun _ => inv_kvCopy) fun _ => inv_unpinBlock

theorem inv_repairChecks {a : Acc} {r : KvRoot} {d : SeqDesc} {q : RepairDesc} : KvInv (repairChecks a r d q) :=
  kvInv_bind inv_kvWhen fun _ => kvInv_bind (inv_kvMap fun _ => inv_walkPos) fun _ => inv_kvEach fun _ =>
    kvInv_bind inv_readEntry fun _ => inv_kvWhen

/-- Every step of a repair keeps the invariant. -/
theorem inv_repairSteps {a : Acc} {r : KvRoot} {d : SeqDesc} {q : RepairDesc} : ∀ m ∈ repairSteps a r d q, KvInv m := by
  intro m hm
  simp only [repairSteps, List.mem_append, List.mem_cons, List.not_mem_nil, or_false, List.mem_map] at hm
  obtain ⟨_, _, rfl⟩ | rfl | rfl | rfl := hm
  · exact inv_measure
  · exact kvInv_bind inv_selectedOf fun _ => inv_kvEach fun _ => inv_privatise
  · exact kvInv_bind inv_selectedOf fun _ => kvInv_bind inv_markedBlocks fun _ => inv_kvEach fun _ => inv_updEntry
  · exact kvInv_bind inv_selectedOf fun _ => kvInv_bind (inv_kvEach fun _ => inv_checkpoint) fun _ =>
      kvInv_bind inv_markedBlocks fun _ => kvInv_bind (inv_kvEach fun _ => inv_updEntry) fun _ => inv_kvPut

theorem inv_annealLayer {r : Repair} : KvInv (annealLayer r) :=
  kvInv_ite (kvInv_bind (inv_kvEach fun _ => kvInv_bind inv_kvHome fun _ => inv_kvRmw) fun _ => kvInv_pure)
    (kvInv_bind (inv_kvEach fun _ => inv_kvPut) fun _ => kvInv_bind inv_kvPut fun _ => kvInv_pure)

theorem inv_pushFrames {r : Repair} {at_ : Nat} {ids : List Nat} {n n1 : Nat} {s : State} (h : StateInv s) :
    StateInv (pushFrames r at_ ids n n1 s) := by
  induction n generalizing n1 s with
  | zero => exact h
  | succ n ih =>
    unfold pushFrames
    split
    · next u e =>
        have hu := (inv_enqueueAs h).of_eq e
        exact ih hu
    · next u _ e =>
        have hu := (inv_enqueueAs h).of_eq e
        exact inv_runChores hu

theorem inv_dropGone {s : State} {vf at_ : Nat} (h : StateInv s) : StateInv (dropGone s vf at_) := inv_with h

theorem inv_annealGo {s : State} {r : Repair} (h : StateInv s) : OkWith StateInv (annealGo s r) := by
  unfold annealGo
  split
  · exact trivial
  · next e =>
      have hu := (inv_runAs h inv_annealLayer).get e
      exact inv_joinedRepairs (inv_ite (inv_setRepair hu) (inv_doChore (inv_setRepair hu)))
  · next e => exact inv_pushFrames (inv_setRepair (inv_dropGone ((inv_runAs h inv_annealLayer).get e)))

theorem inv_kvBeside {α : Type} {b : Bool} {c : Nat} {m : Kv α} (hm : KvInv m) : KvInv (kvBeside b c m) := by
  unfold kvBeside
  refine fun _ hu => okWith_ite (hm _ hu) ?_
  split <;> exact trivial

theorem inv_execGrepair {f : FmtE} {s : State} (h : StateInv s) : NextInv (execGrepair f s) := by
  refine inv_issue h fun u hu => ?_
  split
  · exact inv_portStop hu
  · next os s' e =>
    have hv := (inv_takeAll hu).get e
    extract_lets a va pidx plan isMine done
    split
    · next e2 => exact (inv_releaseStop hu).get e2
    · refine inv_kvRes hu (inv_uniteActive hv) ?_ fun x t ht => ?_
      · refine kvInv_bind inv_readRepair fun q => kvInv_bind inv_readSeq fun d => kvInv_bind inv_kvWhen fun _ =>
          kvInv_bind (inv_kvBeside inv_readRoot) fun r => ?_
        have hs := kvInv_bind (inv_selectedOf (a := a) (q := q) (done := pidx)) fun l =>
          kvInv_pure (x := (r, d, q, l))
        exact kvInv_ite (kvInv_bind inv_repairChecks fun _ => hs) hs
      · split
        next r d q sel =>
        have hfound : KvInv (do
            let l ← selectedOf (a) q q.n
            let bs ← markedBlocks (a) r d q l
            pure (l, bs)) :=
          kvInv_bind inv_selectedOf fun _ => kvInv_bind inv_markedBlocks fun _ => kvInv_pure
        have hfresh (o : Option Repair) : PairInv (match o with | some x => (x.num, t) | none => takeFresh t) := by
          cases o
          · exact inv_takeFresh ht
          · exact ht
        split
        next num w e3 =>
          have hw : StateInv w := (hfresh _).of_eq e3
          extract_lets base found kept
          have hdone {w : State} {n : Nat} (hw : StateInv w) : ResInv (done w n) := inv_kvResult (inv_with hw)
          refine resInv_ite (hdone (inv_setRepair hw)) ?_
          have hr := inv_runSteps (n := 0) (n1 := pidx) (inv_repairSteps (a := a) (r := r) (d := d) (q := q)) hw
          split
          · next e4 => exact inv_stopLong (inv_setRepair (hr.of_eq e4))
          · next e4 =>
            split
            · exact inv_stopLong (inv_setRepair (hr.of_eq e4))
            · next e5 =>
              have hx := (hfound _ (hr.of_eq e4)).get e5
              extract_lets ready
              split
              · next e6 => exact hdone ((inv_annealGo hx).get e6)
              · exact inv_collapseAt (inv_setRepair hx)
              · exact hdone (inv_abandon (inv_setRepair hx))

theorem inv_heldStep {s : State} {pte : Nat} (h : StateInv s) : NextInv (heldStep s pte) := inv_collapseAt h

theorem inv_advanceRwm {r : Repair} : KvInv (advanceRwm r) := inv_kvEach fun _ => kvInv_bind inv_kvHome fun _ => inv_kvRmw

theorem inv_execLayerJoinComplete {n : Nat} {s : State} (h : StateInv s) : NextInv (execLayerJoinComplete n s) := by
  unfold execLayerJoinComplete
  split
  · exact h
  · refine nextInv_ite h ?_
    split
    · exact inv_heldStep h
    · exact inv_abandon h
    · next e =>
      have ht := (inv_runAs h inv_advanceRwm).get e
      dsimp only
      split
      · next e2 => exact (inv_annealGo (inv_stepMade ht)).get e2
      · exact inv_heldStep h
      · exact inv_abandon (inv_setRepair ht)

theorem inv_abortRepair {s : State} {r : Repair} (h : StateInv s) : StateInv (abortRepair s r) :=
  inv_ite (inv_doChore (inv_setRepair (inv_dropFrames h)))
    (inv_ite (inv_setRepair (inv_abandon (inv_with h))) (inv_abandon (inv_with h)))

theorem inv_execGrepwmAbort {f : FmtE} {s : State} (h : StateInv s) : NextInv (execGrepwmAbort f s) := by
  unfold execGrepwmAbort
  refine inv_issue h fun _ hu => ?_
  split
  · exact inv_portStop hu
  · next v e =>
      have hv := (inv_takeAll hu).get e
      exact resInv_ite trivial (inv_kvResult (inv_foldl _ (fun _ _ hw => inv_abortRepair hw) _ hv))

theorem inv_openBlock {a : Acc} {seq b y part mode : Nat} : KvInv (openBlock a seq b y part mode) := by
  have ht (d : SeqDesc) (r : KvRoot) (e : Nat) (tag : Option Nat) : KvInv (match blockTest d e y tag mode with
      | .fails c => kvFail c
      | .stalls => do kvHold true; pure (0, 0, false)
      | .reads stale => do
        kvHold (eDrel e)
        pinBlock a r b
        pure (blockVa r e + y * d.ls + part * 16 * d.row, 4 * d.row, stale)) := by
    split
    · exact inv_kvFail
    · exact kvInv_bind inv_kvHold fun _ => kvInv_pure
    · exact kvInv_bind inv_kvHold fun _ => kvInv_bind inv_pinBlock fun _ => kvInv_pure
  exact kvInv_bind inv_readSeq fun d => kvInv_bind inv_readRoot fun r => kvInv_bind inv_kvWhen fun _ =>
    kvInv_bind inv_kvAcquire fun e => kvInv_bind inv_kvWhen fun _ =>
      kvInv_ite (kvInv_bind kvInv_pure fun _ => ht d r e _) (kvInv_bind inv_kvRd fun _ => kvInv_bind kvInv_pure fun _ => ht d r e _)

theorem inv_execVkvld {f : FmtM} {s : State} (h : StateInv s) : NextInv (execVkvld f s) := by
  unfold execVkvld
  refine inv_issue h fun _ hu => ?_
  split
  · exact inv_portStop hu
  · next v e =>
      have hv := (inv_takeAll hu).get e
      refine resInv_ite hv ?_
      split
      · next e2 => exact inv_of_mem ((inv_goneStop hu).get e2) rfl
      · refine inv_kvRes hu hv inv_openBlock fun _ _ hw => ?_
        split
        · dsimp only
          split
          · next x e2 =>
              exact hu
          · next e2 => exact (inv_checkAccess hw).err e2
          · exact inv_finishAccess (inv_openLoad (inv_keepChore (inv_ite (inv_putMask (inv_putReturned (inv_doLoads hw)))
              (inv_putReturned (inv_doLoads hw)))))

/-! ## Engines -/

theorem inv_barKeys {s : State} {a : Acc} {die bb : Nat} {vault : Bool} (h : StateInv s) :
    OkWith PairInv (barKeys s a die bb vault) :=
  okWith_ite (okWith_ite trivial (okWith_ite trivial h)) (okWith_ite h (okWith_ite trivial (inv_vaKeys h)))

theorem inv_barKeysOf {a : Acc} {die x : Nat} {vault : Bool} : KvInv (barKeysOf a die x vault) := fun _ hu => inv_barKeys hu

theorem inv_pinFor {a : Acc} {b : Option Nat} : KvInv (pinFor a b) := by
  unfold pinFor
  split
  · exact kvInv_pure
  · exact kvInv_bind inv_readRoot fun _ => kvInv_bind inv_kvWhen fun _ => inv_pinBlock

theorem inv_startStop {s : State} {l : List (Nat × Nat)} (h : StateInv s) : SomeWith ResInv (startStop s l) := by
  unfold startStop
  split
  · exact trivial
  · exact someWith_map someWith_true fun _ _ => inv_haltRes h

theorem inv_startCmd {p : Start} {f : FmtE} {s : State} (h : StateInv s) : NextInv (startCmd p f s) := by
  unfold startCmd
  refine inv_issue h fun _ hu => ?_
  split
  · exact inv_portStopWith hu
  · next v e =>
      have hv := (inv_takeAll hu).get e
      dsimp only
      split
      · split
        · next e2 => exact (inv_startStop hu).get e2
        · exact inv_haltRes hu
      · next w e2 =>
          have hw := (inv_vaPlain (inv_uniteActive hv)).get e2
          split
          · next e3 => exact (inv_startStop hu).get e3
          · split
            · next e3 => exact (inv_releaseStop hu).get e3
            · exact inv_kvRes hu hw (kvInv_bind inv_barKeysOf fun _ => kvInv_bind inv_pinFor fun _ => kvInv_pure) fun _ _ hx =>
                resInv_ite (inv_setG (inv_with (inv_takeFresh (inv_arriveAll hx))))
                  (inv_setG (inv_with (inv_takeFresh (inv_arriveAll hx))))

theorem inv_engRead {c : Cmd} {vault : Bool} {va n : Nat} : KvInv (engRead c vault va n) := by
  unfold engRead
  refine fun _ hu => okWith_ite ?_ ?_
  · split
    · exact trivial
    · exact hu
  · split
    · exact trivial
    · next v e =>
        have hv := (inv_vaKeys hu).get e
        exact inv_countVa hv

theorem inv_engWrite {c : Cmd} {w : EngWrite} : KvInv (engWrite c w) := by
  unfold engWrite
  refine fun _ hu => okWith_ite ?_ ?_
  · split
    · exact trivial
    · split
      · exact okWith_ite trivial (inv_putObject hu)
      · exact inv_arrivedPut (inv_takeFresh hu)
  · split
    · exact trivial
    · next v e =>
        have hv := (inv_vaKeys hu).get e
        split
        · exact okWith_ite trivial (inv_putObject (inv_countVa hv))
        · exact inv_arrivedPut (inv_takeFresh (inv_countVa hv))

theorem inv_copyWrites {c : Cmd} {j : Nat} : KvInv (copyWrites c j) :=
  kvInv_ite (kvInv_bind kvInv_pure fun _ => kvInv_pure)
    (kvInv_bind inv_engRead fun _ => kvInv_bind inv_kvState fun _ =>
      kvInv_ite (kvInv_bind kvInv_pure fun _ => kvInv_pure) (kvInv_bind kvInv_pure fun _ => kvInv_pure))

theorem inv_gatherWrites {c : Cmd} {j : Nat} : KvInv (gatherWrites c j) :=
  inv_kvMap fun _ => kvInv_bind inv_engRead fun _ =>
    kvInv_ite (kvInv_bind inv_engRead fun _ => kvInv_pure) (kvInv_bind inv_engRead fun _ => kvInv_pure)

theorem inv_collWrites {c : Cmd} {j : Nat} {peers : List (List Byte)} : KvInv (collWrites c j peers) := by
  unfold collWrites
  refine kvInv_bind inv_kvState fun _ => kvInv_bind inv_kvWhen fun _ => ?_
  dsimp only
  split
  · exact kvInv_ite (kvInv_bind kvInv_pure fun _ => kvInv_pure)
      (kvInv_bind inv_engRead fun _ => kvInv_bind kvInv_pure fun _ => kvInv_pure)
  · exact kvInv_bind inv_engRead fun _ => kvInv_bind kvInv_pure fun _ => kvInv_pure
  · exact kvInv_ite (kvInv_bind inv_engRead fun _ => kvInv_bind kvInv_pure fun _ => kvInv_pure)
      (kvInv_bind kvInv_pure fun _ => kvInv_pure)
  · exact kvInv_bind inv_engRead fun _ => kvInv_bind kvInv_pure fun _ => kvInv_pure

theorem inv_chunkWrites {c : Cmd} {j : Nat} {peers : List (List Byte)} : KvInv (chunkWrites c j peers) := by
  unfold chunkWrites
  split
  · exact inv_copyWrites
  · exact inv_copyWrites
  · exact inv_gatherWrites
  · exact inv_gatherWrites
  · exact inv_gatherWrites
  · exact inv_gatherWrites
  · exact inv_collWrites

theorem inv_setCmd {s : State} {c : Cmd} (h : StateInv s) : StateInv (setCmd s c) := inv_ite (inv_with h) (inv_with h)

theorem inv_faultCmd {s : State} {c : Cmd} {j cause va : Nat} (h : StateInv s) : StateInv (faultCmd s c j cause va) :=
  inv_setCmd h

theorem inv_unpinFor {s : State} {c : Cmd} (h : StateInv s) : StateInv (unpinFor s c) := by
  unfold unpinFor
  split
  · exact h
  · exact inv_doChore h

theorem inv_chunkBody {c : Cmd} {j : Nat} {peers : List (List Byte)} : KvInv (chunkBody c j peers) :=
  kvInv_bind inv_chunkWrites fun _ => kvInv_bind inv_barKeysOf fun _ => kvInv_bind (inv_kvMap fun _ => inv_engWrite) fun _ =>
    kvInv_bind (inv_kvMod fun _ hu => inv_learnFor hu) fun _ => kvInv_bind inv_kvState fun _ =>
    kvInv_ite kvInv_pure (kvInv_bind (inv_kvMod fun _ hu => inv_barArrival (inv_ite hu (inv_countVa hu))) fun _ => kvInv_pure)

theorem inv_runChunk {s : State} {c : Cmd} {j : Nat} {peers : List (List Byte)} (h : StateInv s) :
    SomeWith StateInv (runChunk s c j peers) := by
  unfold runChunk
  split
  · exact someWith_ite trivial (inv_collapseAt h)
  · exact inv_faultCmd h
  · next e =>
      have hu := (inv_runAs h inv_chunkBody).get e
      exact inv_ite (inv_unpinFor (inv_setCmd hu)) (inv_setCmd hu)

theorem inv_execEngineChunkComplete {cmd chunk : Nat} {peers : List (List Byte)} {s : State} (h : StateInv s) :
    NextInv (execEngineChunkComplete cmd chunk peers s) := by
  unfold execEngineChunkComplete
  split
  · exact h
  · exact nextInv_ite h (inv_dueOr h (inv_runChunk h))

theorem inv_execCollectiveMismatch {cmd : Nat} {s : State} (h : StateInv s) : NextInv (execCollectiveMismatch cmd s) := by
  unfold execCollectiveMismatch
  split
  · exact h
  · exact inv_faultCmd h

end Sys2Proof.Machine
end

section
/-! The system keeps the canonical form of memory. -/

namespace Sys2Proof.Machine

/-! ## Placement -/

theorem inv_placeForm {f : FmtR} {dbad w : List Nat} {b : Bool} {fn : State → State → Nat → PlaceLeaf → Word → Res} {s : State}
    (hfn : ∀ t u n l x, StateInv t → StateInv u → ResInv (fn t u n l x)) (h : StateInv s) :
    NextInv (placeForm f dbad w b fn s) := by
  unfold placeForm
  refine inv_issue h fun _ hu => ?_
  split
  · exact inv_portStop hu
  · next v e =>
      have hv := (inv_takeAll hu).get e
      refine resInv_ite trivial ?_
      split
      · exact inv_haltRes hv
      · exact hfn _ _ _ _ _ hu hv

theorem inv_putPte {s : State} {at_ pte : Nat} (h : StateInv s) : StateInv (putPte s at_ pte) := inv_physPut h ..

theorem inv_markEntries {s : State} {at_ pages : Nat} {f : Nat → Nat} (h : StateInv s) : StateInv (markEntries s at_ pages f) :=
  inv_foldl _ (fun _ _ hu => inv_putPte hu) _ h

theorem inv_setPinsUsed {s : State} {vf n : Nat} (h : StateInv s) : StateInv (setPinsUsed s vf n) := inv_setVfReg h

theorem inv_execGpin {f : FmtR} {s : State} (h : StateInv s) : NextInv (execGpin f s) :=
  inv_placeForm (fun _ _ _ _ _ hu hv =>
    resInv_ite (inv_putUniform hv) (resInv_ite hu (resInv_ite (inv_putUniform (inv_setPinsUsed (inv_markEntries hv)))
    (inv_putUniform hv)))) h

theorem inv_execGunpin {f : FmtR} {s : State} (h : StateInv s) : NextInv (execGunpin f s) :=
  inv_placeForm (fun _ _ _ _ _ _ hv => resInv_ite (inv_setPinsUsed (inv_markEntries hv)) hv) h

theorem inv_filedRes {t : State} {trap : Bool} (h : StateInv t) : ResInv (filedRes t trap) := resInv_ite h h

theorem inv_execGhint {f : FmtR} {s : State} (h : StateInv s) : NextInv (execGhint f s) :=
  inv_placeForm (fun _ _ _ _ _ _ hv => resInv_ite hv (inv_filedRes (inv_fileProposal hv ..))) h

theorem inv_execGdup {f : FmtR} {s : State} (h : StateInv s) : NextInv (execGdup f s) :=
  inv_placeForm (fun _ _ _ _ _ _ hv => resInv_ite (inv_putUniform hv) (inv_filedRes (inv_putUniform (inv_fileProposal hv ..))))
    h

theorem inv_execGwhere {f : FmtR} {s : State} (h : StateInv s) : NextInv (execGwhere f s) := by
  unfold execGwhere
  refine inv_issue h fun _ hu => resInv_ite hu ?_
  split
  · exact inv_portStop hu
  · next v e =>
      have hv := (inv_takeAll hu).get e
      exact inv_putUniform hv

theorem inv_execEpochEnd {vf : Nat} {s : State} (h : StateInv s) : NextInv (execEpochEnd vf s) :=
  nextInv_ite h (inv_dueOr h (someWith_map (inv_periodDue h) fun _ hu => inv_with hu))

theorem inv_popFrame {s : State} {at_ : Nat} (h : StateInv s) : SomeWith PairInv (popFrame s at_) :=
  someWith_ite trivial (inv_physPut h ..)

theorem inv_pushFrame {s : State} {vf at_ pfn : Nat} (h : StateInv s) : StateInv (pushFrame s vf at_ pfn) :=
  inv_ite (inv_ladleCount h ..) (inv_physPut (inv_physPut h ..) ..)

theorem inv_copyFrames {s : State} {src dst pages : Nat} (h : StateInv s) : StateInv (copyFrames s src dst pages) :=
  inv_foldl _ (fun _ _ hu => inv_copyPiece hu ..) _ h

theorem inv_followPiece {s : State} {src dst : Nat} (h : StateInv s) : StateInv (followPiece s src dst) := inv_withMs h

theorem inv_moveFrames {s : State} {src dst pages : Nat} (h : StateInv s) : StateInv (moveFrames s src dst pages) :=
  inv_foldl _ (fun _ _ hu => inv_followPiece (inv_copyPiece hu ..)) _ h

theorem inv_recallFrames {s : State} {pfn pages : Nat} (h : StateInv s) : StateInv (recallFrames s pfn pages) :=
  inv_countArrived (inv_arriveIf h _)

theorem inv_dropTlb {s : State} {vf va pages : Nat} (h : StateInv s) : StateInv (dropTlb s vf va pages) := inv_withMs h

theorem inv_dropProposal {s : State} {vf root va : Nat} (h : StateInv s) : StateInv (dropProposal s vf root va) := inv_with h

theorem inv_beginAction {s : State} {p : Proposal} (h : StateInv s) : StateInv (beginAction s p) := by
  unfold beginAction
  dsimp only
  split
  · exact inv_dropProposal h
  · refine inv_ite (inv_dropProposal h) ?_
    split
    · exact inv_dropProposal (inv_ladleCount h ..)
    · next u e =>
        have hu := (inv_popFrame h).get e
        exact inv_ite (inv_with hu) (inv_dropProposal (inv_ladleCount (inv_with (inv_markEntries (inv_copyFrames hu))) ..))

theorem inv_execDuplicateCreate {vf va : Nat} {s : State} (h : StateInv s) : NextInv (execDuplicateCreate vf va s) :=
  inv_dueOr h (someWith_map someWith_true fun _ _ => inv_beginAction h)

theorem inv_setMove {s : State} {m : Move} {new : Option Move} (h : StateInv s) : StateInv (setMove s m new) := inv_with h

theorem inv_updateKept {s : State} {m : Move} {f : Nat → Nat → Nat} (h : StateInv s) : StateInv (updateKept s m f) :=
  inv_foldl _ (fun _ _ hu => inv_ite (inv_putPte hu) hu) _ h

theorem inv_dropMove {s : State} {m : Move} (h : StateInv s) : StateInv (dropMove s m) :=
  inv_dropProposal (inv_setMove (inv_pushFrame (inv_ladleCount h ..)))

theorem inv_startInval {s : State} {m new : Move} (h : StateInv s) : StateInv (startInval s m new) :=
  inv_setMove (inv_takeFresh h)

theorem inv_abandonMove {s : State} {m : Move} (h : StateInv s) : StateInv (abandonMove s m) := inv_dropMove (inv_updateKept h)

theorem inv_execLadleMoveBegin {vf va : Nat} {s : State} (h : StateInv s) : NextInv (execLadleMoveBegin vf va s) := by
  unfold execLadleMoveBegin
  split
  · exact nextInv_ite (inv_abandonMove h) (inv_startInval (inv_markEntries h))
  · exact inv_dueOr h (someWith_map someWith_true fun _ _ => inv_beginAction h)

theorem inv_dropForwards {s : State} {m : Move} (h : StateInv s) : StateInv (dropForwards s m) := inv_with h

theorem inv_undoMove {s : State} {m : Move} (h : StateInv s) : StateInv (undoMove s m) :=
  inv_dropMove (inv_foldl _ (fun _ _ hu => inv_ite (inv_putPte hu) hu) _
    (inv_dropTlb (inv_dropForwards (inv_moveFrames (inv_recallFrames h)))))

theorem inv_moveInvalidated {s : State} {m : Move} (h : StateInv s) : StateInv (moveInvalidated s m) :=
  inv_setMove (inv_ite (inv_recallFrames (inv_dropTlb h)) (inv_dropTlb h))

theorem inv_execMoveCopyComplete {vf va : Nat} {s : State} (h : StateInv s) : NextInv (execMoveCopyComplete vf va s) := by
  unfold execMoveCopyComplete
  split
  · exact h
  · exact nextInv_ite (inv_abandonMove h) (inv_ladleCount (inv_startInval (inv_updateKept (inv_with (inv_moveFrames h)))) ..)

theorem inv_execMoveRetire {vf va : Nat} {s : State} (h : StateInv s) : NextInv (execMoveRetire vf va s) := by
  unfold execMoveRetire
  split
  · exact h
  · exact nextInv_ite (inv_undoMove h) (inv_dropProposal (inv_setMove (inv_pushFrame (inv_dropForwards h))))

theorem inv_execDupCollapse {vf va : Nat} {s : State} (h : StateInv s) : NextInv (execDupCollapse vf va s) := by
  unfold execDupCollapse
  split
  · exact h
  · exact inv_with h

theorem inv_execCollapseEnd {vf va : Nat} {s : State} (h : StateInv s) : NextInv (execCollapseEnd vf va s) := by
  unfold execCollapseEnd
  split
  · exact h
  · exact inv_with (inv_markEntries (inv_foldl _ (fun _ _ hu => inv_pushFrame hu) _ (inv_dropTlb h)))

theorem inv_execLadleRingAction {vf : Nat} {s : State} (h : StateInv s) : NextInv (execLadleRingAction vf s) := by
  unfold execLadleRingAction
  refine nextInv_ite h ?_
  dsimp only
  split
  · exact inv_dropProposal (inv_ladleCount (inv_with h) ..)
  · split
    · exact nextInv_ite (inv_dropProposal (inv_ladleCount (inv_with h) ..)) (inv_beginAction (inv_with h))
    · exact inv_beginAction (inv_with h)

theorem inv_replayReduce {s : State} {e : LogEntry} {p : Party} {code pa at_ : Nat} (h : StateInv s) :
    StateInv (replayReduce s e p code pa at_) :=
  inv_ite (inv_noteStrong (inv_strongPut (inv_meet h))) h

theorem inv_replayEntry {s : State} {e : LogEntry} {pa : Nat} (h : StateInv s) : StateInv (replayEntry s e pa) := by
  unfold replayEntry
  dsimp only
  split
  · exact inv_followed (inv_ite (inv_arrivedPut h) (inv_quieten (inv_plainPut h))) ..
  · exact inv_noteStrong (inv_followed (inv_strongPut h) ..)
  · exact inv_foldl _ (fun _ _ hu => inv_replayReduce hu) _ h

theorem inv_execSideLogReplay {core : Nat} {s : State} (h : StateInv s) : NextInv (execSideLogReplay core s) := by
  unfold execSideLogReplay
  split
  · exact h
  · dsimp only
    split
    · exact nextInv_ite (inv_updCtx (inv_withMs h)) h
    · exact nextInv_ite h (nextInv_ite (inv_heldStep h) (nextInv_ite (nextInv_ite h (inv_updCtx (inv_withMs h)))
        (inv_ite
          (inv_actAs
              (inv_ite (inv_spoilEntries (inv_replayEntry (inv_noteWalk (inv_withMs h) ..)))
                (inv_replayEntry (inv_noteWalk (inv_withMs h) ..))) fun _ hu =>
              inv_countVa hu)
          (inv_ite (inv_spoilEntries (inv_replayEntry (inv_noteWalk (inv_withMs h) ..)))
            (inv_replayEntry (inv_noteWalk (inv_withMs h) ..))))))

theorem inv_discardLog {s : State} {core vf : Nat} {x : DWord} (h : StateInv s) : StateInv (discardLog s core vf x) :=
  inv_ite (inv_updCtx (inv_withMs h)) h

theorem inv_execLeaseRenewal {_sector : Nat} {s : State} (h : StateInv s) : NextInv (execLeaseRenewal _sector s) := h

/-! ## Saved contexts -/

theorem inv_drainStep {s : State} {part vf ident : Nat} (h : StateInv s) :
    SomeWith StateInv (drainStep s part vf ident) := by
  refine someWith_orElse (inv_finishWrite h) (someWith_orElse (inv_finishRow h) (someWith_orElse (inv_takeEntry h) ?_))
  split
  · exact trivial
  · exact inv_finishWrite h

theorem inv_drainMatrix {part vf ident n : Nat} {s : State} (h : StateInv s) : StateInv (drainMatrix part vf ident n s) := by
  induction n generalizing s with
  | zero => exact h
  | succ n ih =>
    unfold drainMatrix
    split
    · exact h
    · refine inv_ite ?_ h
      split
      · next u e =>
          have hu := (inv_drainStep h).get e
          exact ih hu
      · exact h

theorem inv_deadlineEnd {s : State} {vf ident : Nat} {other : Bool} (h : StateInv s) :
    SomeWith StateInv (deadlineEnd s vf ident other) := by
  unfold deadlineEnd
  refine inv_resume h fun _ _ _ => ?_
  split
  · refine fun _ hv => resInv_ite hv ?_
    split
    · exact inv_portStop hv
    · next w e =>
        have hw := (inv_takeAll hv).get e
        exact inv_putUniform hw
  · exact trivial

theorem inv_bringToRest {s : State} {coll : Bool} {vf ident : Nat} (h : StateInv s) : StateInv (bringToRest s coll vf ident) := by
  unfold bringToRest
  dsimp only
  split
  · exact inv_getD (inv_deadlineEnd (inv_getD (inv_deadlineEnd h) h)) (inv_getD (inv_deadlineEnd h) h)
  · exact inv_with (inv_countArrived (inv_arriveAll (inv_updCtx (inv_withdraw (inv_drainMatrix
      (inv_getD (inv_deadlineEnd (inv_getD (inv_deadlineEnd h) h)) (inv_getD (inv_deadlineEnd h) h)))))))

theorem inv_putPiece {s : State} {im : Store Byte} {off key : Nat} (h : StateInv s) : StateInv (putPiece s im off key) :=
  inv_devPutKeys h ..

theorem inv_putArea {s : State} {c : Ctx} {key : Nat → Nat} {lo hi : Nat} (h : StateInv s) : StateInv (putArea s c key lo hi) :=
  inv_foldl _ (fun _ _ hu => inv_ite hu (inv_putPiece hu)) _ h

theorem inv_logOfArea {rd : Nat → Nat → Nat} {s : State} {c : Ctx} {old : List LogEntry} (h : StateInv s) :
    StateInv (logOfArea rd s c old).1 := by
  refine List.foldlRecOn (motive := fun x : State × Ctx => StateInv x.1) _ _ h fun x hx i _ => ?_
  dsimp only
  split
  · exact inv_logAll hx
  · exact inv_logAll (inv_takeFresh hx)

theorem inv_parkCtx {s : State} {vf ident : Nat} (h : StateInv s) : StateInv (parkCtx s vf ident) := inv_withMs h

theorem inv_saveCtx {s : State} {vf ident by_ unit area : Nat} (h : StateInv s) :
    StateInv (saveCtx s vf ident by_ unit area) := by
  unfold saveCtx
  dsimp only
  split
  · exact h
  · exact inv_with (inv_parkCtx (inv_putArea (inv_bringToRest h)))

theorem inv_copyVault {s : State} {t : Team} {area : Nat} {back : Bool} (h : StateInv s) : StateInv (copyVault s t area back) :=
  inv_foldl _ (fun _ _ hu => inv_ite (inv_copyPiece hu ..) (inv_copyPiece hu ..)) _ h

theorem inv_gangVaults {s : State} {g : Gang} {ws : List Who} {back : Bool} (h : StateInv s) :
    StateInv (gangVaults s g ws back) := by
  unfold gangVaults
  refine inv_foldl _ (fun _ _ hu => inv_ite hu ?_) _ h
  split
  · exact inv_copyVault hu
  · exact hu

theorem inv_sweep {s : State} (h : StateInv s) : StateInv (sweep s) := inv_foldl _ (fun _ _ hu => inv_finishCtx hu) _ h

theorem inv_saveAll {s : State} {p : Ctx → Bool} {by_ : Nat} (h : StateInv s) : StateInv (saveAll s p by_) :=
  inv_with (inv_foldl _ (fun _ _ hu => inv_saveCtx hu) _ (inv_foldl _ (fun _ _ hu => inv_gangVaults hu) _ (inv_sweep h)))

theorem inv_resumeCmds {s : State} {x : Saved} (h : StateInv s) : StateInv (resumeCmds s x) := inv_with h

theorem inv_loseSaved {s : State} {x : Saved} (h : StateInv s) : StateInv (loseSaved s x) := by
  unfold loseSaved
  dsimp only
  split
  · exact inv_endGang (inv_noteEnd (inv_failGang (inv_logError h ..)))
  · exact inv_joinFor (inv_logError h ..)

theorem inv_dropSaved {s : State} {x : Saved} (h : StateInv s) : StateInv (dropSaved s x) := inv_with h

theorem inv_rereadTop {s : State} {vf ident : Nat} (h : StateInv s) : StateInv (rereadTop s vf ident) := by
  unfold rereadTop
  refine inv_getD (inv_onCtx h fun _ hu => ?_) h
  split
  · next e => exact inv_of_mem ((inv_loadTop hu).get e) rfl
  · exact hu

theorem inv_acquireAp {s : State} (h : StateInv s) : StateInv (acquireAp s) := by
  unfold acquireAp
  split
  · exact inv_ite (inv_setG h) h
  · exact h

theorem inv_restoreSaved {s : State} {x : Saved} {loc : Loc} (h : StateInv s) : StateInv (restoreSaved s x loc) :=
  inv_ite (inv_loseSaved (inv_dropSaved h)) (inv_rereadTop (inv_resumeCmds (inv_addCtx (inv_logOfArea (inv_dropSaved h)))))

theorem inv_restoreAll {s : State} {xs : List Saved} {vaults : Bool} (h : StateInv s) : StateInv (restoreAll s xs vaults) :=
  inv_foldl _ (fun _ _ hu => inv_restoreSaved hu) _ (inv_with (inv_ite (inv_foldl _ (fun _ _ hu => inv_gangVaults hu) _ h) h))

/-! ## Partitions -/

theorem inv_writeVfctl {s : State} {vf : Nat} {x : DWord} (h : StateInv s) : StateInv (writeVfctl s vf x) := inv_setVfReg h

theorem inv_setQctl {s : State} {nrows : Nat} {go load err : Bool} {row : Nat} (h : StateInv s) :
    StateInv (setQctl s nrows go load err row) :=
  inv_setDevReg h ..

theorem inv_restoreRow {s : State} (h : StateInv s) : StateInv (restoreRow s) := inv_restoreAll h

theorem inv_writeQctl {s : State} {x : DWord} (h : StateInv s) : StateInv (writeQctl s x) :=
  inv_ite (inv_restoreRow (inv_with (inv_setQctl h))) (inv_setQctl h)

theorem inv_switchRows {s : State} {old new : Option QRow} {row : Nat} (h : StateInv s) : StateInv (switchRows s old new row) :=
  inv_restoreAll (inv_setQctl (inv_saveAll h))

theorem inv_execQuantumRowBoundary {s : State} (h : StateInv s) : NextInv (execQuantumRowBoundary s) :=
  nextInv_ite h (inv_switchRows (inv_with h))

theorem inv_discardGang {s : State} {g : Gang} {cause : Nat} (h : StateInv s) : StateInv (discardGang s g cause) :=
  inv_joinFor (inv_with h)

theorem inv_restoreTeam {s : State} {xs : List Saved} {core : Nat} {ps : List Nat} (h : StateInv s) :
    StateInv (restoreTeam s xs core ps) :=
  inv_foldl _ (fun _ _ hu => inv_restoreSaved hu) _ h

theorem inv_restoreGang {s : State} {g : Gang} {ts : List SavedTeam} {places : List (Nat × List Nat)} (h : StateInv s) :
    StateInv (restoreGang s g ts places) :=
  inv_foldl _ (fun _ _ hu => inv_restoreTeam hu) _ (inv_with (inv_gangVaults h))

theorem inv_readmitGang {s : State} {g : Gang} (h : StateInv s) : SomeWith StateInv (readmitGang s g) :=
  someWith_ite (inv_discardGang (inv_qCount h))
    (someWith_ite (inv_discardGang h) (someWith_ite (inv_discardGang h) (someWith_map someWith_true fun _ _ =>
      inv_restoreGang h)))

theorem inv_readmitOne {s : State} {x : Saved} (h : StateInv s) : SomeWith StateInv (readmitOne s x) :=
  someWith_bind someWith_true fun _ _ => someWith_map someWith_true fun _ _ => inv_restoreSaved h

theorem inv_readmitAll {s : State} {vf : Nat} (h : StateInv s) : StateInv (readmitAll s vf) :=
  inv_ite (inv_foldl _ (fun _ _ hu => inv_ite (inv_getD (inv_readmitGang hu) hu) hu) _ h)
    (inv_foldl _ (fun _ _ hu => inv_getD (inv_readmitOne hu) hu) _
      (inv_foldl _ (fun _ _ hu => inv_ite (inv_getD (inv_readmitGang hu) hu) hu) _ h))

theorem inv_execGangAdmission {vf cluster : Nat} {s : State} (h : StateInv s) : NextInv (execGangAdmission vf cluster s) := by
  unfold execGangAdmission
  split
  · exact inv_dueOr h (inv_readmitGang h)
  · exact nextInv_ite h (inv_admissionStep h)

theorem inv_execRecordDispatch {vf cluster : Nat} {s : State} (h : StateInv s) : NextInv (execRecordDispatch vf cluster s) := by
  unfold execRecordDispatch
  refine nextInv_ite h ?_
  split
  · exact inv_dueOr h (inv_readmitOne h)
  · exact nextInv_ite h (inv_dispatchStep h)

theorem inv_takeTable {s : State} {rows : List QRow} (h : StateInv s) : StateInv (takeTable s rows) :=
  inv_foldl _ (fun _ _ hu => inv_readmitAll hu) _ (inv_switchRows (inv_setQctl (inv_with (inv_with (inv_saveAll h)))))

theorem inv_execQuantumTableTake {s : State} (h : StateInv s) : NextInv (execQuantumTableTake s) :=
  nextInv_ite h (nextInv_ite (inv_setQctl h) (inv_takeTable h))

theorem inv_writeAmb {s : State} {i : Nat} {x : DWord} (h : StateInv s) : StateInv (writeAmb s i x) :=
  inv_ite (inv_setDevReg (inv_setDevReg h ..) ..) (inv_setDevReg h ..)

theorem inv_setPoolst {s : State} {busy err owned : Bool} (h : StateInv s) : StateInv (setPoolst s busy err owned) :=
  inv_setDevReg h ..

theorem inv_setOwned {s : State} {w page : Nat} {on : Bool} (h : StateInv s) : StateInv (setOwned s w page on) := inv_physPut h ..

theorem inv_poolCommand {s : State} {op w page : Nat} {reserved : Bool} (h : StateInv s) :
    StateInv (poolCommand s op w page reserved) :=
  inv_ite h (inv_ite (inv_setPoolst h) (inv_ite (inv_with (inv_setPoolst (inv_setOwned h)))
    (inv_ite (inv_setPoolst (inv_setOwned h)) (inv_setPoolst h))))

theorem inv_writePoolcmd {s : State} {x : DWord} (h : StateInv s) : StateInv (writePoolcmd s x) := inv_poolCommand h

theorem inv_execPoolReleaseDone {s : State} (h : StateInv s) : NextInv (execPoolReleaseDone s) := by
  unfold execPoolReleaseDone
  split
  · exact h
  · exact inv_setPoolst (inv_with (inv_arriveAt h _))

theorem inv_setExt {s : State} {i j x : Nat} (h : StateInv s) : StateInv (setExt s i j x) := inv_with h

theorem inv_setExtState {s : State} {i st : Nat} (h : StateInv s) : StateInv (setExtState s i st) := inv_setExt h

theorem inv_writeExtState {s : State} {i st : Nat} (h : StateInv s) : StateInv (writeExtState s i st) := by
  unfold writeExtState
  split
  · exact inv_setExtState h
  · exact inv_setExtState h
  · exact inv_setExtState h
  · exact h

theorem inv_execExtentFree {i : Nat} {s : State} (h : StateInv s) : NextInv (execExtentFree i s) :=
  nextInv_ite (inv_writeExtState h) h

theorem inv_execExtentReleaseAck {i : Nat} {s : State} (h : StateInv s) : NextInv (execExtentReleaseAck i s) :=
  nextInv_ite h (inv_setExtState (inv_countArrived (inv_arriveAt h _)))

theorem inv_poisonEntries {s : State} {inside : Nat → Bool} (h : StateInv s) : StateInv (poisonEntries s inside) :=
  inv_foldl _ (fun _ _ hu => inv_updCtx (inv_withMs hu)) _ h

theorem inv_execForcedWithdrawal {i : Nat} {dropped : List Nat} {s : State} (h : StateInv s) :
    NextInv (execForcedWithdrawal i dropped s) :=
  nextInv_ite h (inv_setExt (inv_with (inv_poisonEntries (inv_dropSectors h ..))))

theorem inv_setPeer {s : State} {q x : Nat} (h : StateInv s) : StateInv (setPeer s q x) := inv_with h

theorem inv_countLoss {s : State} {gone : List Nat} {hist : List WriteRec} (h : StateInv s) :
    StateInv (countLoss s gone hist) := by
  unfold countLoss
  refine inv_foldl _ (fun _ _ hu => ?_) _ h
  split
  · split
    · exact inv_ladleCount hu ..
    · exact hu
  · exact hu

theorem inv_cutLoads {s : State} {p : Nat → Bool} (h : StateInv s) : StateInv (cutLoads s p) := inv_with h

theorem inv_failStores {s : State} {p : Nat → Bool} (h : StateInv s) : StateInv (failStores s p) := by
  refine inv_foldl _ (fun u _ hu => ?_) _ (inv_withMs h)
  split
  · exact inv_set hu _ _
  · exact hu

theorem inv_execPeerDown {q : Nat} {dropped : List Nat} {s : State} (h : StateInv s) : NextInv (execPeerDown q dropped s) :=
  inv_with (inv_cutLoads (inv_foldl _ (fun _ _ hu => inv_ite hu (inv_faultCmd hu)) _
    (inv_dropSectors (inv_countLoss (inv_failStores (inv_withMs (inv_setPeer h)))) ..)))

theorem inv_execPeerUp {q pkg inc : Nat} {s : State} (h : StateInv s) : NextInv (execPeerUp q pkg inc s) :=
  inv_setPeer (inv_withMs h)

/-! ## Health -/

theorem inv_setFleet {s : State} {off x : Nat} (h : StateInv s) : StateInv (setFleet s off x) := inv_with h

theorem inv_countFleet {s : State} {i n : Nat} (h : StateInv s) : StateInv (countFleet s i n) := inv_setFleet h

theorem inv_execAssayAudit {links : List (Nat × Nat × Nat × Nat)} {s : State} (h : StateInv s) :
    NextInv (execAssayAudit links s) :=
  inv_dueOr h (someWith_map (inv_periodDue h) fun _ hu =>
    inv_foldl _ (fun _ _ hv => inv_logError hv ..) _ (inv_with (inv_foldl _ (fun _ _ hv => inv_auditOne hv) _ hu)))

theorem inv_captureUnit {s : State} {unit cause : Nat} (h : StateInv s) : StateInv (captureUnit s unit cause) :=
  inv_with (inv_foldl _ (fun _ _ hu => inv_saveCtx hu) _ (inv_physPut (inv_sweep h) ..))

theorem inv_countHalt {s : State} {unit : Nat} {beat : Bool} (h : StateInv s) : StateInv (countHalt s unit beat) :=
  inv_setDevReg h ..

theorem inv_haltByBeat {s : State} {unit : Nat} (h : StateInv s) : StateInv (haltByBeat s unit) :=
  inv_captureUnit (inv_countFleet (inv_countHalt (inv_logError h ..)))

theorem inv_sampleBeat {s : State} {unit : Nat} (h : StateInv s) : StateInv (sampleBeat s unit) :=
  inv_ite (inv_haltByBeat (inv_with h)) (inv_with h)

theorem inv_execHeartbeatSample {s : State} (h : StateInv s) : NextInv (execHeartbeatSample s) :=
  nextInv_ite h (inv_foldl _ (fun _ _ hu => inv_sampleBeat hu) _ (inv_with h))

theorem inv_restoreNear {s : State} {x : Saved} (h : StateInv s) : SomeWith StateInv (restoreNear s x) :=
  someWith_ite (inv_restoreSaved h) (someWith_map someWith_true fun _ _ => inv_restoreSaved h)

theorem inv_resumeCore {unit : Nat} {s : State} (h : StateInv s) : StateInv (resumeCore unit s) :=
  inv_foldl _ (fun _ _ hu => inv_resumeCmds hu) _ h

theorem inv_resumeUnit {s : State} {unit : Nat} (h : StateInv s) : StateInv (resumeUnit s unit) := by
  refine inv_ite h ?_
  dsimp only
  split
  · next e =>
    refine SomeWith.get (List.foldlRecOn (motive := SomeWith StateInv) _ _ ?_ fun o ho x _ => ?_) e
    · exact inv_with (inv_with (inv_resumeCore h))
    · exact someWith_bind ho fun _ hu => inv_restoreNear hu
  · exact inv_with (inv_with (inv_resumeCore h))

theorem inv_discardUnit {s : State} {unit : Nat} (h : StateInv s) : StateInv (discardUnit s unit) := by
  unfold discardUnit
  refine inv_ite h (inv_foldl _ (fun _ _ hu => ?_) _ (inv_with h))
  split
  · exact inv_endGang (inv_noteEnd (inv_failGang hu))
  · exact inv_joinFor hu

theorem inv_writeMcmd {s : State} {x : DWord} (h : StateInv s) : StateInv (writeMcmd s x) := by
  unfold writeMcmd
  dsimp only
  split
  · exact inv_resumeUnit h
  · exact inv_discardUnit h
  · exact h

theorem inv_countClass {s : State} {cls at_ : Nat} (h : StateInv s) : StateInv (countClass s cls at_) :=
  inv_logError (inv_with h) ..

theorem inv_discardCopy {s : State} {x : ArrayEntryAt} (h : StateInv s) : StateInv (discardCopy s x) := by
  unfold discardCopy
  split
  · exact inv_withMs h
  · exact h

theorem inv_zeroEntry {s : State} {x : ArrayEntryAt} (h : StateInv s) : StateInv (zeroEntry s x) := by
  unfold zeroEntry
  split
  · exact inv_devPutKeys h ..
  · exact inv_devPutKeys (inv_withMs h) ..
  · exact inv_withMs h
  · exact h

theorem inv_recallRegion {s : State} {p : Nat → Bool} (h : StateInv s) : StateInv (recallRegion s p) :=
  inv_cutLoads (inv_arriveAt h _)

theorem inv_treatEntry {s : State} {e : ArrayEntryAt} (h : StateInv s) : StateInv (treatEntry s e) := by
  unfold treatEntry
  dsimp only
  split
  · exact inv_discardCopy (inv_countClass h)
  · split
    · next e2 =>
        have ht := (someWith_bind someWith_true fun _ _ => inv_onCtx (inv_zeroEntry h) fun _ hu => inv_endContext hu).get e2
        exact inv_countFleet ht
    · exact inv_zeroEntry h
  · exact inv_recallRegion (inv_countFleet (inv_countClass h))
  · exact inv_captureUnit (inv_countHalt (inv_logError h ..))

theorem inv_fettle {s : State} {cls : Nat} (h : StateInv s) : SomeWith StateInv (fettle s cls) :=
  someWith_ite trivial (inv_with h)

theorem inv_execScrubRead {turn : Bool} {err : ArrayError} {e : ArrayEntryAt} {s : State} (h : StateInv s) :
    NextInv (execScrubRead turn err e s) := by
  unfold execScrubRead
  refine inv_dueOr h (someWith_map (someWith_ite (inv_fettle h) h) fun _ hu => ?_)
  split
  · next v => exact hu
  · next v =>
      dsimp only
      split
      · exact inv_countFleet (inv_countClass hu)
      · exact inv_countClass hu
  · next v => exact inv_treatEntry hu

theorem inv_execLinkPacketCorrupt {port tries vf ident win : Nat} {lanes : Mask} {s : State} (h : StateInv s) :
    NextInv (execLinkPacketCorrupt port tries vf ident win lanes s) := by
  unfold execLinkPacketCorrupt
  refine nextInv_ite (inv_logError (inv_countFleet h) ..) ?_
  dsimp only
  split
  · exact inv_updCtx (inv_countFleet (inv_logError (inv_countFleet h) ..))
  · exact inv_with (inv_countFleet (inv_logError (inv_countFleet h) ..))

/-! ## The fleet -/

theorem inv_setLock {s : State} {on : Bool} (h : StateInv s) : StateInv (setLock s on) := inv_with (inv_setDevReg h ..)

theorem inv_execServoLock {t : DWord} {s : State} (h : StateInv s) : NextInv (execServoLock t s) :=
  nextInv_ite h (nextInv_ite (inv_setLock (inv_with h)) (inv_with h))

theorem inv_execGrandmasterLoss {s : State} (h : StateInv s) : NextInv (execGrandmasterLoss s) := inv_setLock (inv_with h)

theorem inv_execTnowAgreement {s : State} (h : StateInv s) : NextInv (execTnowAgreement s) :=
  nextInv_ite (inv_setLock (inv_with h)) h

theorem inv_advanceTnow {s : State} {dt : Nat} (h : StateInv s) : StateInv (advanceTnow s dt) := by
  unfold advanceTnow
  split
  · exact inv_with h
  · exact inv_ite (inv_with h) (inv_with h)

theorem inv_setTg {s : State} {d : Nat} {t : Throttle} (h : StateInv s) : StateInv (setTg s d t) := inv_with h

theorem inv_setSt {s : State} {d hi lo x : Nat} (h : StateInv s) : StateInv (setSt s d hi lo x) := inv_setFleet h

theorem inv_setLevel {s : State} {d x : Nat} (h : StateInv s) : StateInv (setLevel s d x) :=
  inv_ite (inv_setSt (inv_setSt h)) (inv_setSt h)

theorem inv_markGrid {s : State} {d : Nat} (h : StateInv s) : StateInv (markGrid s d) := inv_with h

theorem inv_sendStep {s : State} {d : Nat} {a : Announce} (h : StateInv s) : StateInv (sendStep s d a) := inv_setTg h

theorem inv_announce {s : State} {d x : Nat} (h : StateInv s) : StateInv (announce s d x) := inv_sendStep h

theorem inv_coordinate {s : State} {d : Nat} (h : StateInv s) : StateInv (coordinate s d) := inv_ite (inv_announce h) h

theorem inv_takeRequest {s : State} {c key req : Nat} (h : StateInv s) : StateInv (takeRequest s c key req) :=
  inv_coordinate (inv_setTg h)

theorem inv_execTgRequest {die pkg mdie req : Nat} {s : State} (h : StateInv s) :
    NextInv (execTgRequest die pkg mdie req s) := by
  refine nextInv_ite (nextInv_ite (inv_takeRequest h) h) (nextInv_ite h ?_)
  dsimp only
  generalize eu : markGrid _ _ = u
  have hu : StateInv u := eu ▸ inv_markGrid (inv_setTg h)
  clear eu
  split
  · exact inv_takeRequest hu
  · exact hu

theorem inv_execTgDwellExpiry {die : Nat} {s : State} (h : StateInv s) : NextInv (execTgDwellExpiry die s) :=
  nextInv_ite (inv_announce h) h

theorem inv_execTgAckTimeout {die : Nat} {acked : List Nat} {s : State} (h : StateInv s) :
    NextInv (execTgAckTimeout die acked s) := by
  unfold execTgAckTimeout
  dsimp only
  split
  · exact h
  · exact nextInv_ite (inv_sendStep h) h

theorem inv_groupStep {s : State} {d : Nat} {a : Announce} (h : StateInv s) : StateInv (groupStep s d a) :=
  inv_ite (inv_coordinate (inv_setTg h)) h

theorem inv_applyStep {s : State} {d : Nat} {a : Announce} (h : StateInv s) : StateInv (applyStep s d a) :=
  inv_groupStep (inv_countFleet (inv_setLevel (inv_setTg h)))

theorem inv_execTgAnnouncement {die level at_ seq nmem : Nat} {s : State} (h : StateInv s) :
    NextInv (execTgAnnouncement die level at_ seq nmem s) := by
  unfold execTgAnnouncement
  refine nextInv_ite h (nextInv_ite h (nextInv_ite (inv_ite ?_ (inv_countFleet (inv_applyStep ?_)))
    (inv_setSt (inv_setTg (inv_setFleet ?_)))))
  all_goals
    split
    · exact inv_ite (inv_setTg (inv_setTg (inv_setSt (inv_setSt h)))) (inv_setTg (inv_setSt (inv_setSt h)))
    · exact inv_setTg (inv_setSt (inv_setSt h))

theorem inv_execTgStepApply {die : Nat} {s : State} (h : StateInv s) : NextInv (execTgStepApply die s) := by
  unfold execTgStepApply
  split
  · exact h
  · exact nextInv_ite h (inv_applyStep h)

theorem inv_setCoord {s : State} {d pkg cdie : Nat} (h : StateInv s) : StateInv (setCoord s d pkg cdie) := inv_setSt (inv_setSt h)

theorem inv_handOver {s : State} {d : Nat} (h : StateInv s) : StateInv (handOver s d) := inv_setTg h

theorem inv_beginRegister {s : State} {d : Nat} (h : StateInv s) : StateInv (beginRegister s d) := inv_with (inv_setFleet h)

theorem inv_dropMember {s : State} {c key : Nat} (h : StateInv s) : StateInv (dropMember s c key) := inv_setTg h

theorem inv_succeed {s : State} {d : Nat} (h : StateInv s) : StateInv (succeed s d) := by
  unfold succeed
  split
  · exact h
  · exact inv_ite (inv_setCoord (inv_ite (inv_handOver h) h)) (inv_ite (inv_handOver h) h)

theorem inv_withdrawDie {s : State} {d : Nat} (h : StateInv s) : StateInv (withdrawDie s d) := by
  unfold withdrawDie
  refine inv_markGrid (inv_setLevel (inv_setTg (inv_setSt (inv_setSt (inv_setFleet (inv_ite (inv_succeed ?_) ?_))))))
  · split
    · exact inv_dropMember h
    · exact h
  · split
    · exact inv_dropMember h
    · exact h

theorem inv_execTgRegister {die pkg mdie : Nat} {s : State} (h : StateInv s) : NextInv (execTgRegister die pkg mdie s) :=
  nextInv_ite (inv_ite h (inv_beginRegister h))
    (nextInv_ite h (nextInv_ite (inv_foldl _ (fun _ _ hu => inv_setCoord hu) _ (inv_setTg h)) (inv_setTg h)))

theorem inv_takeOver {s : State} {d : Nat} {held : GroupHeld} {before : Option Nat} (h : StateInv s) :
    StateInv (takeOver s d held before) := by
  unfold takeOver
  split
  · exact inv_setTg h
  · exact inv_ite h (inv_setCoord (inv_handOver h))

theorem inv_execTgRegisterAck {die pkg cdie nmem : Nat} {held : GroupHeld} {s : State} (h : StateInv s) :
    NextInv (execTgRegisterAck die pkg cdie nmem held s) := by
  have hc : StateInv (setCoord (setSt (setSt s die 6 6 1) die 7 7 0) die pkg cdie) :=
    inv_setCoord (inv_setSt (inv_setSt h))
  refine nextInv_ite ?_ h
  dsimp only
  generalize ek : (if memberKey pkg cdie = memberKey (pkgId s) die then _ else _) = u
  have hu : StateInv u := ek ▸ inv_ite (inv_takeOver hc) hc
  clear ek
  split
  · exact inv_setSt (inv_takeRequest hu)
  · exact inv_setSt hu

theorem inv_execTgWithdraw {die pkg mdie : Nat} {s : State} (h : StateInv s) : NextInv (execTgWithdraw die pkg mdie s) :=
  nextInv_ite (inv_ite (inv_withdrawDie h) h) (nextInv_ite (inv_dropMember h) h)

theorem inv_detach {s : State} {d : Nat} (h : StateInv s) : StateInv (detach s d) :=
  inv_markGrid (inv_setLevel (inv_setSt (inv_setTg h)))

theorem inv_execTgDetach {die : Nat} {path : Bool} {s : State} (h : StateInv s) : NextInv (execTgDetach die path s) :=
  nextInv_ite (inv_setTg (inv_detach h)) h

theorem inv_execTgLocalStep {die : Nat} {s : State} (h : StateInv s) : NextInv (execTgLocalStep die s) :=
  nextInv_ite h (inv_countFleet (inv_setLevel (inv_setTg h)))

theorem inv_execTgRegisterRetry {die : Nat} {s : State} (h : StateInv s) : NextInv (execTgRegisterRetry die s) :=
  nextInv_ite (inv_setTg h) h

theorem inv_writePcap {s : State} {x : DWord} (h : StateInv s) : StateInv (writePcap s x) := inv_setDevReg h ..

theorem inv_askFor {s : State} {high : Bool} {d : Nat} (h : StateInv s) : StateInv (askFor s high d) := inv_setTg h

theorem inv_execPowerCapSample {watts : Nat} {s : State} (h : StateInv s) : NextInv (execPowerCapSample watts s) :=
  inv_dueOr h (someWith_map (inv_periodDue h) fun _ hu => inv_foldl _ (fun _ _ hv => inv_askFor hv) _ (inv_with hu))

theorem inv_execPowerCapFallback {s : State} (h : StateInv s) : NextInv (execPowerCapFallback s) :=
  nextInv_ite h (inv_foldl _ (fun _ _ hu => inv_ite (inv_setTg (inv_detach hu)) hu) _ h)

/-- A filter of memory keeps its canonical form. -/
theorem inv_filterMem {s : State} (h : StateInv s) (p : Host.Cell → Bool) :
    Memory.wf (s.ms.mem.filter p) = true := storeWf_filter _ _ _ h

theorem inv_railsDown {s : State} (h : StateInv s) : StateInv (railsDown s) := inv_filterMem h _

theorem inv_execThermalTrip {unit temp : Nat} {s : State} (h : StateInv s) : NextInv (execThermalTrip unit temp s) :=
  nextInv_ite h (inv_railsDown (inv_logError h ..))

theorem inv_countBelow {s : State} {key : Nat} {low : Bool} (h : StateInv s) : PairInv (countBelow s key low) := inv_with h

theorem inv_sampleStack {s : State} {i t : Nat} (h : StateInv s) : StateInv (sampleStack s i t) :=
  inv_setFleet (inv_countBelow (inv_countBelow (inv_countBelow h)))

theorem inv_execSensorSample {inlet outlet : Nat} {temps0 temps1 : List Nat} {s : State} (h : StateInv s) :
    NextInv (execSensorSample inlet outlet temps0 temps1 s) :=
  inv_dueOr h (someWith_map (inv_periodDue h) fun _ hu =>
    inv_ite
      (inv_countFleet (inv_countFleet (inv_countFleet (inv_foldl _ (fun _ _ hv => inv_sampleStack hv) _ (inv_setFleet hu)))))
      (inv_countFleet (inv_countFleet (inv_foldl _ (fun _ _ hv => inv_sampleStack hv) _ (inv_setFleet hu)))))

theorem inv_execCounterCopy {s : State} (h : StateInv s) : NextInv (execCounterCopy s) :=
  inv_dueOr h (someWith_map (inv_periodDue h) fun _ hu => inv_foldl _ (fun _ _ hv => inv_setFleet hv) _ hu)

theorem inv_clearCounters {s : State} (h : StateInv s) : StateInv (clearCounters s) :=
  inv_foldl _ (fun _ _ hu => inv_setFleet hu) _ h

theorem inv_writeTgcfg {s : State} {d x : Nat} (h : StateInv s) : StateInv (writeTgcfg s d x) :=
  inv_ite (inv_beginRegister (inv_setFleet h)) (inv_ite (inv_withdrawDie (inv_setFleet h)) (inv_setFleet h))

theorem inv_writeFleet {s : State} {off x : Nat} (h : StateInv s) : StateInv (writeFleet s off x) :=
  inv_ite (inv_writeTgcfg h) (inv_ite (inv_writeTgcfg h) (inv_ite (inv_clearCounters h) h))

/-! ## Starts -/

theorem inv_extendMeas {s : State} {x : List Byte} (h : StateInv s) : StateInv (extendMeas s x) :=
  inv_foldl _ (fun _ _ hu => inv_setDevReg hu ..) _ h

theorem inv_setMstat {s : State} {kind fail keptL keptH step svn : Nat} (h : StateInv s) :
    StateInv (setMstat s kind fail keptL keptH step svn) :=
  inv_setDevReg h ..

theorem inv_markStep {s : State} {b : Boot} {fail step : Nat} (h : StateInv s) : StateInv (markStep s b fail step) :=
  inv_setMstat h

theorem inv_startFailed {s : State} {b : Boot} {step : Nat} (h : StateInv s) : StateInv (startFailed s b step) :=
  inv_with (inv_markStep h)

theorem inv_selfTest {s : State} {result : List Byte} (h : StateInv s) : StateInv (selfTest s result) :=
  inv_foldl _ (fun _ _ hu => inv_logError hu ..) _
    (inv_devPutKeys (inv_setDevReg (inv_setDevReg (inv_setDevReg h ..) ..) ..) ..)

theorem inv_finishStart {s : State} {b : Boot} (h : StateInv s) : StateInv (finishStart s b) := by
  refine inv_ite (inv_startFailed h) ?_
  extract_lets _ low _ kept _ _ joined tested measured counted marked _
  have hlow : StateInv low := storeWf_filter _ _ _ h
  have hkept : StateInv kept := storeWf_filter _ _ _ hlow
  have hjoined : StateInv joined := inv_ite (inv_with hkept) hkept
  have htested : StateInv tested := inv_selfTest hjoined
  have hmeasured : StateInv measured := inv_foldl extendMeas (fun _ _ hu => inv_extendMeas hu) _ htested
  have hcounted : StateInv counted := inv_setDevReg hmeasured ..
  have hmarked : StateInv marked := inv_markStep hcounted
  clear_value low kept joined tested measured counted marked
  exact inv_ite (inv_startFailed hlow) (inv_ite (inv_startFailed hjoined) (inv_ite (inv_startFailed htested)
    (inv_ite (inv_startFailed hcounted) (inv_with hmarked))))

theorem inv_start {s : State} {b : Boot} {primary backup : List Byte} (h : StateInv s) : StateInv (start s b primary backup) := by
  unfold start
  refine inv_ite (inv_startFailed (inv_startState h)) ?_
  split
  · exact inv_startFailed (inv_startState h)
  · exact inv_ite (inv_startFailed (inv_extendMeas (inv_startState h)))
      (inv_with (inv_markStep (inv_extendMeas (inv_startState h))))

theorem inv_execWarmStart {primary backup : List Byte} {images : List (List Byte)} {hw : Hardware} {keptL : Bool}
    {keptH : BitVec 8} {selftest : List Byte} {s : State} (h : StateInv s) :
    NextInv (execWarmStart primary backup images hw keptL keptH selftest s) :=
  nextInv_ite h (inv_start h)

theorem inv_powerUp {s : State} {b : Boot} (h : StateInv s) : StateInv (powerUp s b) := inv_with (inv_markStep h)

theorem inv_train {s : State} {b : Boot} {tier step : Nat} (h : StateInv s) : StateInv (train s b tier step) :=
  inv_ite (inv_startFailed h) (inv_with (inv_markStep h))

theorem inv_execUnitPowerUp {s : State} (h : StateInv s) : NextInv (execUnitPowerUp s) := by
  unfold execUnitPowerUp
  split
  · exact h
  · exact inv_dueOr h (someWith_map (inv_periodDue h) fun _ hu =>
      inv_ite (inv_train hu) (inv_ite (inv_train hu) (inv_ite (inv_startFailed hu) (inv_ite (inv_powerUp hu)
      (inv_finishStart hu)))))

theorem inv_writeAttreq {s : State} {x : DWord} (h : StateInv s) : StateInv (writeAttreq s x) :=
  inv_ite h (inv_with (inv_setDevReg h ..))

theorem inv_execAttestationReport {s : State} (h : StateInv s) : NextInv (execAttestationReport s) := by
  unfold execAttestationReport
  split
  · exact h
  · exact inv_with (inv_physPut (inv_devPutKeys h ..) ..)

theorem inv_execSignedFuseCommand {raise : Bool} {value : Nat} {key sig : List Byte} {s : State} (h : StateInv s) :
    NextInv (execSignedFuseCommand raise value key sig s) :=
  nextInv_ite (inv_with h) h

theorem inv_saveSection {s : State} {i : Nat} (h : StateInv s) : StateInv (saveSection s i) :=
  inv_foldFrom _ (fun _ _ hu => inv_copyPiece hu ..) _ _ h

theorem inv_writeSection {s : State} {i : Nat} (h : StateInv s) : StateInv (writeSection s i) := inv_physPut h ..

theorem inv_writeManifest {s : State} {complete : Bool} (h : StateInv s) : StateInv (writeManifest s complete) :=
  inv_devPutKeys (inv_physPut h ..) ..

theorem inv_execCheckpointStart {finish : Bool} {s : State} (h : StateInv s) : NextInv (execCheckpointStart finish s) :=
  nextInv_ite h (inv_ite
    (inv_setDevReg (inv_writeManifest (inv_foldl _ (fun _ _ hu => inv_writeSection hu) _
      (inv_foldl _ (fun _ _ hu => inv_saveSection hu) _ (inv_arriveAt (inv_with (inv_saveAll h)) _)))) ..)
    (inv_writeManifest (inv_foldl _ (fun _ _ hu => inv_writeSection hu) _
      (inv_foldl _ (fun _ _ hu => inv_saveSection hu) _ (inv_arriveAt (inv_with (inv_saveAll h)) _)))))

theorem inv_restoreSection {s : State} {i : Nat} (h : StateInv s) : StateInv (restoreSection s i) :=
  inv_ite h (inv_foldFrom _ (fun _ _ hu => inv_copyPiece hu ..) _ _ h)

theorem inv_recallSaved {s : State} (h : StateInv s) : StateInv (recallSaved s) := inv_with h

theorem inv_execRestore {s : State} (h : StateInv s) : NextInv (execRestore s) :=
  nextInv_ite (inv_logError (inv_zeroTiers h) ..)
    (nextInv_ite (inv_logError (inv_zeroTiers (inv_foldl _ (fun _ _ hu => inv_restoreSection hu) _ h)) ..)
      (inv_recallSaved (inv_foldl _ (fun _ _ hu => inv_restoreSection hu) _ h)))

/-! ## System registers -/

theorem inv_storeFields {s : State} {vf n : Nat} {x : DWord} (h : StateInv s) : StateInv (storeFields s vf n x) :=
  inv_ite (inv_setVfReg h) (inv_setDevReg h ..)

theorem inv_writeRange {s : State} {n : Nat} {x : DWord} (h : StateInv s) : StateInv (writeRange s n x) :=
  inv_ite (inv_writeAmb h) (inv_ite h (inv_ite (inv_setDevReg h ..) (inv_ite (inv_setDevReg h ..) (inv_setDevReg h ..))))

theorem inv_writeExtent {s : State} {n : Nat} {x : DWord} (h : StateInv s) : StateInv (writeExtent s n x) :=
  inv_ite (inv_writeExtState h) (inv_ite (inv_setExt h) h)

theorem inv_writePeriod {s : State} {n : Nat} {x : DWord} (h : StateInv s) : StateInv (writePeriod s n x) :=
  inv_ite h (inv_setDevReg h ..)

theorem inv_writeDev {s : State} {vf n : Nat} {x : DWord} (h : StateInv s) : StateInv (writeDev s vf n x) :=
  inv_ite (inv_writeVfctl h) (inv_ite (inv_setVfReg h) (inv_ite (inv_writeQctl h) (inv_ite (inv_writeRange h)
    (inv_ite (inv_writePoolcmd h) (inv_ite (inv_writeExtent h) (inv_ite (inv_ite h (inv_storeFields h))
    (inv_ite (inv_writeMcmd h) (inv_ite (inv_writePeriod h) (inv_ite (inv_writePcap h) (inv_ite (inv_writeAttreq h)
      (inv_storeFields h)))))))))))

theorem inv_writeSys {s : State} {n : Nat} {x : DWord} (h : StateInv s) : StateInv (writeSys s n x) :=
  inv_ite (inv_with h) (inv_ite (inv_with h) (inv_ite (inv_with h) (inv_ite (inv_discardLog h) (inv_writeDev h))))

theorem inv_execRegisterWrite {n : Nat} {x : DWord} {s : State} (h : StateInv s) : NextInv (execRegisterWrite n x s) := by
  unfold execRegisterWrite
  refine nextInv_ite (inv_writeFleet h) (nextInv_ite ?_ h)
  split
  · exact h
  · exact nextInv_ite (inv_writeDev h) h

/-! ## System forms -/

theorem inv_callForm {f : FmtI} {bad : List Nat} {cause : Nat} {s : State} (h : StateInv s) : NextInv (callForm f bad cause s) :=
  inv_issue h fun _ hu => hu

theorem inv_fenceCause {s : State} {cause orig : Nat} {addr : DWord} : ResInv (fenceCause s cause orig addr) := trivial

theorem inv_fenceTests {s : State} (h : StateInv s) : ResInv (fenceTests s) := by
  unfold fenceTests
  refine resInv_ite inv_fenceCause ?_
  split
  · exact inv_fenceCause
  · exact inv_deliverCmd h
  · refine resInv_ite inv_fenceCause ?_
    split
    · exact inv_fenceCause
    · exact inv_completeStrong (inv_with h)

theorem inv_execGtfence {f : FmtR} {s : State} (h : StateInv s) : NextInv (execGtfence f s) := by
  unfold execGtfence
  refine inv_issue h fun _ hu => ?_
  split
  · next e => exact inv_of_mem ((inv_goneStop hu).get e) rfl
  · exact resInv_ite hu (inv_fenceTests hu)

theorem inv_restartOrigin {s : State} (h : StateInv s) : StateInv (restartOrigin s) := by
  unfold restartOrigin
  refine inv_ite ?_ (inv_ite ?_ h)
  · split
    · exact inv_with h
    · exact h
  · split
    · exact inv_with h
    · exact h

theorem inv_returnFrom {s : State} (h : StateInv s) : StateInv (returnFrom s) := by
  unfold returnFrom
  dsimp only
  split
  · next e =>
      exact inv_of_mem ((inv_settled (inv_with (inv_leaveHandler (inv_restartOrigin (inv_with h))))).get e) rfl
  · exact inv_with (inv_leaveHandler (inv_restartOrigin (inv_with h)))

theorem inv_execGtret {f : FmtR} {s : State} (h : StateInv s) : NextInv (execGtret f s) := by
  unfold execGtret
  refine inv_issue h fun _ hu => resInv_ite ?_ ?_
  · split
    · exact inv_haltRes hu
    · next e => exact inv_of_mem ((inv_settled (inv_endPath hu)).get e) rfl
  · split
    · next e => exact inv_of_mem ((inv_goneStop hu).get e) rfl
    · exact inv_returnFrom hu

theorem inv_execGsrr {f : FmtI} {s : State} (h : StateInv s) : NextInv (execGsrr f s) :=
  inv_issue h fun _ hu => resInv_ite trivial (inv_putUniforms hu)

theorem inv_thenWrite {s s' : State} {nas : Nas} {n : Nat} {x : DWord} {after : State → State} (h : StateInv s)
    (hs' : StateInv s') (hafter : ∀ t, StateInv t → StateInv (after t)) : ResInv (thenWrite s s' nas n x after) := by
  unfold thenWrite
  split
  · exact inv_haltRes h
  · next u e =>
      have hu := (inv_applyNas hs').get e
      exact hafter _ (inv_writeSys hu)

theorem inv_execGsrw {f : FmtI} {s : State} (h : StateInv s) : NextInv (execGsrw f s) := by
  unfold execGsrw
  refine inv_issue h fun _ hu => resInv_ite trivial ?_
  split
  · exact inv_portStop hu
  · next v e =>
      have hv := (inv_takeAll hu).get e
      exact inv_thenWrite hu hv fun _ hw => hw

theorem inv_gsrxForm {f : FmtI} {op : DWord → DWord → DWord} {s : State} (h : StateInv s) : NextInv (gsrxForm f op s) := by
  unfold gsrxForm
  refine inv_issue h fun _ hu => resInv_ite trivial ?_
  split
  · exact inv_portStop hu
  · next v e =>
      have hv := (inv_takeAll hu).get e
      exact inv_thenWrite hu hv fun _ hw => inv_putUniforms hw

theorem inv_execGtime {f : FmtI} {s : State} (h : StateInv s) : NextInv (execGtime f s) :=
  inv_issue h fun _ hu => resInv_ite hu (inv_putUniforms hu)

theorem inv_execGsleep {f : FmtI} {s : State} (h : StateInv s) : NextInv (execGsleep f s) := by
  unfold execGsleep
  refine inv_issue h fun _ hu => ?_
  split
  · exact inv_portStop hu
  · next v e =>
      exact hu

theorem inv_execSleepEnd {vf ident : Nat} {other : Bool} {s : State} (h : StateInv s) :
    NextInv (execSleepEnd vf ident other s) := by
  unfold execSleepEnd
  refine inv_dueOr h (inv_resume h fun _ _ _ => ?_)
  split
  · refine fun _ hv => resInv_ite hv ?_
    split
    · exact inv_portStop hv
    · next e => exact inv_of_mem ((inv_takeAll hv).get e) rfl
  · exact trivial

theorem inv_execGwaitt {f : FmtR} {s : State} (h : StateInv s) : NextInv (execGwaitt f s) := by
  unfold execGwaitt
  refine inv_issue h fun _ hu => ?_
  split
  · exact inv_portStop hu
  · next v e =>
      have hv := (inv_takeAll hu).get e
      exact resInv_ite trivial (resInv_ite (inv_putUniform hv) hu)

theorem inv_execDeadlineReached {vf ident : Nat} {other : Bool} {s : State} (h : StateInv s) :
    NextInv (execDeadlineReached vf ident other s) :=
  inv_dueOr h (inv_deadlineEnd h)

theorem inv_execGtinv {f : FmtR} {s : State} (h : StateInv s) : NextInv (execGtinv f s) := by
  unfold execGtinv
  refine inv_issue h fun _ hu => ?_
  split
  · exact inv_portStop hu
  · next v e =>
      have hv := (inv_takeAll hu).get e
      refine resInv_ite trivial (resInv_ite trivial ?_)
      dsimp only
      split
      · next e2 => exact (inv_releaseAfter hu).get e2
      · exact inv_with (inv_takeFresh (inv_fenceRelease (inv_uniteActive hv)))

theorem inv_execGtsync {f : FmtR} {s : State} (h : StateInv s) : NextInv (execGtsync f s) :=
  inv_issue h fun _ hu => resInv_ite hu (inv_putUniform (inv_with hu))

theorem inv_writeBack {s : State} {e : TlbEntry} (h : StateInv s) : StateInv (writeBack s e) := inv_recallFrames h

theorem inv_execInvalidationComplete {n : Nat} {cut : Bool} {s : State} (h : StateInv s) :
    NextInv (execInvalidationComplete n cut s) := by
  unfold execInvalidationComplete
  split
  · exact inv_dueOr h (someWith_map someWith_true fun _ _ => inv_moveInvalidated h)
  · exact inv_withMs (inv_foldl _ (fun _ _ hu => inv_writeBack hu) _ h)

theorem inv_areaKeys {s : State} {u : Use} {va n : Nat} {others : List Nat} (h : StateInv s) :
    OkWith PairInv (areaKeys s u va n others) := by
  unfold areaKeys
  split
  · next p e =>
      have hp := (inv_vaKeys h).get e
      split
      · exact trivial
      · exact hp
  · split <;> exact trivial
  · split <;> exact trivial

theorem inv_noteSaved {s : State} {c : Ctx} {area : Nat} (h : StateInv s) : StateInv (noteSaved s c area) := inv_with h

theorem inv_leaveSaved {s : State} {c : Ctx} (h : StateInv s) : StateInv (leaveSaved s c) := by
  unfold leaveSaved
  dsimp only
  split
  · exact inv_endGang (inv_noteEnd (inv_with (inv_parkCtx (inv_dropMatrix h))))
  · exact inv_with (inv_parkCtx (inv_dropMatrix h))

theorem inv_savePart {s : State} {c : Ctx} {keys : List Nat} {p : Nat} (h : StateInv s) : StateInv (savePart s c keys p) :=
  inv_putArea h

theorem inv_reached {s : State} {p target : Nat} (h : StateInv s) : StateInv (reached s p target) := inv_with h

theorem inv_execGctxsv {f : FmtE} {s : State} (h : StateInv s) : NextInv (execGctxsv f s) := by
  unfold execGctxsv
  refine inv_issue h fun _ hu => ?_
  split
  · exact inv_portStop hu
  · next v e =>
      have hv := (inv_takeAll hu).get e
      dsimp only
      split
      · exact inv_haltRes hu
      · next w e2 =>
          have hw := (inv_areaKeys hv).get e2
          exact resInv_ite (inv_leaveSaved (inv_noteSaved (inv_savePart (inv_bringToRest (inv_uniteActive hw)))))
            (inv_reached (inv_savePart (inv_bringToRest (inv_uniteActive (inv_with hw)))))

theorem inv_execGctxsvTarget {f : FmtE} {s : State} (h : StateInv s) : NextInv (execGctxsvTarget f s) := by
  unfold execGctxsvTarget
  refine inv_issue h fun _ hu => ?_
  split
  · exact inv_portStop hu
  · next v e =>
      have hv := (inv_takeAll hu).get e
      dsimp only
      split
      · split
        · exact inv_haltRes hu
        · exact inv_uniWindow (inv_putUniform (inv_with hv))
      · split
        · exact inv_haltRes hu
        · next w e2 =>
            have hw := (inv_areaKeys hv).get e2
            refine resInv_ite hu ?_
            split
            · exact inv_uniWindow (inv_putUniform (inv_with (inv_bringToRest (inv_uniteActive hw))))
            · exact resInv_ite
                (inv_uniWindow (inv_putUniform (inv_with (inv_leaveSaved (inv_noteSaved (inv_savePart
                  (inv_bringToRest (inv_uniteActive hw))))))))
                (inv_reached (inv_with (inv_savePart (inv_bringToRest (inv_uniteActive hw)))))

theorem inv_loadedWho {s : State} {old : Option Saved} {origin : Origin} {ident : Nat} {loc : Loc} (h : StateInv s) :
    PairInv (loadedWho s old origin ident loc) := by
  unfold loadedWho
  split
  · next u e =>
      have hu := (inv_takeFresh h).of_eq e
      split <;> exact hu

theorem inv_takeCmds {s : State} {x : Saved} {who : Who} (h : StateInv s) : StateInv (takeCmds s x who) :=
  inv_resumeCmds (inv_with h)

theorem inv_spendNote {s : State} {old : Option Saved} (h : StateInv s) : StateInv (spendNote s old) := by
  unfold spendNote
  split
  · exact inv_with h
  · exact h

theorem inv_loadAt {s : State} {keys : List Nat} {held : Nat} (h : StateInv s) : SomeWith PairInv (loadAt s keys held) := by
  unfold loadAt
  dsimp only
  split
  · split
    · exact inv_takeCmds (inv_rereadTop (inv_addCtx (inv_logOfArea (inv_spendNote (inv_copyEntry (inv_loadedWho h))))))
    · exact inv_rereadTop (inv_addCtx (inv_logOfArea (inv_spendNote (inv_copyEntry (inv_loadedWho h)))))
  · exact trivial

theorem inv_execGctxld {f : FmtE} {s : State} (h : StateInv s) : NextInv (execGctxld f s) := by
  refine inv_issue h fun u hu => ?_
  split
  · exact inv_portStop hu
  · next e =>
    have hv := (inv_takeAll hu).get e
    dsimp only
    split
    · exact inv_haltRes hu
    · split
      · exact inv_haltRes hu
      · next e2 =>
        have ht := (inv_areaKeys hv).get e2
        refine inv_uniWindow (inv_putUniform ?_)
        split
        · next e3 => exact (inv_loadAt (inv_uniteActive ht)).get e3
        · exact inv_uniteActive ht

theorem inv_execGhalt {f : FmtR} {s : State} (h : StateInv s) : NextInv (execGhalt f s) := by
  unfold execGhalt
  refine inv_issue h fun _ hu => ?_
  split
  · exact inv_haltRes hu
  · next v e =>
      have hv := (inv_applyNas hu).get e
      exact inv_with (inv_foldl _ (fun _ _ hw => inv_bringToRest hw) _ (inv_issued hv))

theorem inv_execResultReturn {vf ident win : Nat} {s : State} (h : StateInv s) : NextInv (execResultReturn vf ident win s) := by
  unfold execResultReturn
  dsimp only
  split
  · exact h
  · split
    · exact inv_dueOr h (inv_onCtx h fun _ hu => inv_ite (inv_setG hu) (inv_takeGone (inv_setG hu)))
    · exact nextInv_ite (inv_dueOr h (inv_onCtx h fun _ hu => inv_setG hu)) h
    · exact h

theorem inv_execTrapEntry {vf ident : Nat} {s : State} (h : StateInv s) : NextInv (execTrapEntry vf ident s) := by
  unfold execTrapEntry
  split
  · exact h
  · split
    · exact h
    · exact inv_dueOr h (inv_onCtx h fun _ hu => inv_takeLate (inv_setG hu))

theorem inv_execWordNotInstruction {w : Word} {s : State} (h : StateInv s) : NextInv (execWordNotInstruction w s) :=
  inv_issue h fun _ hu => hu

theorem inv_execFetchTranslationFault {s : State} (h : StateInv s) : NextInv (execFetchTranslationFault s) := by
  unfold execFetchTranslationFault
  refine nextInv_ite trivial ?_
  split
  · exact h
  · exact inv_raiseNow h

theorem inv_fetchWord {s : State} (h : StateInv s) : PairInv (fetchWord s) := by
  unfold fetchWord
  dsimp only
  split
  · exact h
  · exact inv_noteWalk h ..

theorem inv_redoStart {s : State} {pc : Addr} {m : Mask} (h : StateInv s) : StateInv (redoStart s pc m) := inv_with h

theorem inv_redoFinish {s t : State} {pc : Addr} {m : Mask} (ht : StateInv t) : StateInv (redoFinish s t pc m) :=
  inv_ite ht (inv_ite (inv_setG ht) (inv_setG ht))

end Sys2Proof.Machine
end

section
/-! Every step keeps the canonical form of memory. -/

namespace Sys2Proof.Machine

/-! ## Dispatch -/

theorem inv_exec {i : Instr} {s : State} (h : StateInv s) : NextInv (exec i s) := by
  unfold exec
  cases i with
  | vadd | vsub | vmul | vmulhs | vmulhn | vmins | vminn | vmaxs | vmaxn | vand | vor | vxor | vshl | vshr | vsar | vbfx
  | vfmin | vfmax | vfsgnBf16x2 =>
    exact inv_lane2 h
  | vsel | vmovi | vcvt | vq4dec | vshfl | vshflx | vlane | vdev =>
    exact inv_laneForm h
  | vadd64 | vsub64 => exact inv_lanePair h
  | vclz | vpopc | vrcp | vrsq | vsqrt | vexp2 | vlog2 | vtrigSinpi | vtrigCospi =>
    exact inv_lane1f h
  | vbfi | vfma | vhfmaBf16x2 | vhfmaF16x2 => exact inv_lane3f h
  | vaddi | vandi | vori | vxori | vshli | vshri | vsari =>
    exact inv_laneImm h
  | vcmps | vcmpn | vfcmp => exact inv_laneCompare h
  | vfadd | vfsub | vfmul | vhaddBf16x2 | vhaddF16x2 | vhmulBf16x2 | vhmulF16x2 | vfsgnF16x2 =>
    exact inv_lane2f h
  | vmop => exact inv_execVmop h
  | vpk => exact inv_execVpk h
  | vred => exact inv_execVred h
  | vscan => exact inv_execVscan h
  | vvote => exact inv_execVvote h
  | vldGlS8 | vldGlN8 | vldGlS16 | vldGlN16 | vldGlN32 | vldGlN64 | vldGlN128 | vldVtN8 | vldVtN16 | vldVtN32 | vldVtN64
  | vldVtN128 | vldsGlN8 | vldsGlN16 | vldsGlN32 | vldsGlN64 | vldsGlN128 | vldsVtN32 =>
    exact inv_laneLoad h
  | vprf => exact inv_execVprf h
  | vkvld => exact inv_execVkvld h
  | vstGlN8 | vstGlN16 | vstGlN32 | vstGlN64 | vstGlN128 | vstVtN8 | vstVtN16 | vstVtN32 | vstVtN64 | vstVtN128 | vstsGlN8
  | vstsGlN16 | vstsGlN32 | vstsGlN64 | vstsGlN128 | vstsVtN32 =>
    exact inv_laneStore h
  | vxchgN32 | vxchgN64 | vcasN32 | vcasN64 | vatomAddN32 | vatomAddN64 | vatomAddF32 | vatomAndN32 | vatomOrN32 | vatomXorN32
  | vatomMinS32 | vatomMinN32 | vatomMaxS32 | vatomMaxN32 =>
    exact inv_laneRmw h
  | vredMAddN32 | vredMAddN64 | vredMAddF32 | vredMMinS32 | vredMMaxS32 => exact inv_laneReduce h
  | vmmq => exact inv_execVmmq h
  | vwld => exact inv_execVwld h
  | vaccrd => exact inv_execVaccrd h
  | vaccwr => exact inv_execVaccwr h
  | vaccz => exact inv_execVaccz h
  | vwmark => exact inv_execVwmark h
  | gadd | gsub | gmul | gmulh | gmin | gmax | gand | gor | gxor | gshl | gshr | gsar | gbfx =>
    exact inv_group2 h
  | gdiv | grem => exact inv_group2f h
  | gclz | gpopc => exact inv_group1 h
  | gbfi | gsel | gmovi | gmovhi | gaddpc | gfma | gfsqrt | gfcvt =>
    exact inv_groupForm h
  | gadd64 | gsub64 | gmul64 => exact inv_groupPair h
  | gcmp | gfcmp => exact inv_groupCompare h
  | gaddi | gandi | gori | gxori | gshli | gshri | gsari =>
    exact inv_groupImm h
  | gfadd | gfsub | gfmul | gfdiv | gfmnx => exact inv_groupFloat2 h
  | gtgt => exact inv_execGtgt h
  | gtgtr => exact inv_execGtgtr h
  | gloop => exact inv_execGloop h
  | gloopi => exact inv_execGloopi h
  | gbrk => exact inv_execGbrk h
  | gldGlN32 | gldGlN64 | gldVtN32 | gldVtN64 | gldsGlN32 | gldsGlN64 | gldsVtN32 =>
    exact inv_uniLoad h
  | gstGlN32 | gstGlN64 | gstVtN32 | gstVtN64 | gstsGlN32 | gstsGlN64 | gstsVtN32 =>
    exact inv_uniStore h
  | gfence => exact inv_execGfence h
  | gprf => exact inv_execGprf h
  | gatomAddN32 | gatomAddN64 | gatomAndN32 | gatomOrN32 | gatomXorN32 | gatomMinS32 | gatomMinN32 | gatomMaxS32 | gatomMaxN32
  | gcasN32 | gcasN64 =>
    exact inv_uniRmw h
  | gqpush | gqpop | gqtryPop | gqtryPush => exact inv_queueForm h
  | gbar => exact inv_execGbar h
  | gbarm => exact inv_execGbarm h
  | gbwait => exact inv_execGbwait h
  | gbadd => exact inv_execGbadd h
  | gcopy | gcopyFill | ggather | gscatter | gscatterAddf | gscatterAddn | gcollAllreduce | gcollAllgather | gcollReducescatter
  | gcollBroadcast =>
    exact inv_startCmd h
  | gmfence => exact inv_execGmfence h
  | gmwait => exact inv_execGmwait h
  | gewait => exact inv_execGewait h
  | gevpost => exact inv_execGevpost h
  | gpin => exact inv_execGpin h
  | gunpin => exact inv_execGunpin h
  | ghint => exact inv_execGhint h
  | gwhere => exact inv_execGwhere h
  | gdup => exact inv_execGdup h
  | gspawn => exact inv_execGspawn h
  | gcpush => exact inv_execGcpush h
  | gcjoin => exact inv_execGcjoin h
  | glaunch => exact inv_execGlaunch h
  | gapon => exact inv_execGapon h
  | gapoff => exact inv_execGapoff h
  | gid => exact inv_execGid h
  | gyield => exact inv_execGyield h
  | gsplice => exact inv_execGsplice h
  | gkvwalk => exact inv_execGkvwalk h
  | gkvwalkNode => exact inv_execGkvwalkNode h
  | gkvref => exact inv_execGkvref h
  | gkvnew => exact inv_execGkvnew h
  | grepair => exact inv_execGrepair h
  | grepwm => exact inv_execGrepwm h
  | grepwmAbort => exact inv_execGrepwmAbort h
  | gprov => exact inv_execGprov h
  | gprovEnt => exact inv_execGprovEnt h
  | gring => exact inv_execGring h
  | gtrap | gecall | ghcall => exact inv_callForm h
  | gtfence => exact inv_execGtfence h
  | gtret => exact inv_execGtret h
  | gsrr => exact inv_execGsrr h
  | gsrw => exact inv_execGsrw h
  | gsrxSet | gsrxClr => exact inv_gsrxForm h
  | gtinv => exact inv_execGtinv h
  | gtsync => exact inv_execGtsync h
  | gwaitt => exact inv_execGwaitt h
  | gtime => exact inv_execGtime h
  | gsleep => exact inv_execGsleep h
  | gctxsv => exact inv_execGctxsv h
  | gctxsvTarget => exact inv_execGctxsvTarget h
  | gctxld => exact inv_execGctxld h
  | ghalt => exact inv_execGhalt h
  | resultReturn => exact inv_execResultReturn h
  | trapEntry => exact inv_execTrapEntry h
  | groupEnd => exact inv_execGroupEnd h
  | recordDispatch => exact inv_execRecordDispatch h
  | holdReached => exact inv_execHoldReached h
  | gangAdmission => exact inv_execGangAdmission h
  | overflowRetry => exact inv_execOverflowRetry h
  | graphNodeLaunch => exact inv_execGraphNodeLaunch h
  | dieLinkLoss => exact inv_execDieLinkLoss h
  | queueWaiterServed => exact inv_execQueueWaiterServed h
  | barrierWaitEnd => exact inv_execBarrierWaitEnd h
  | byteBarrierWaitEnd => exact inv_execByteBarrierWaitEnd h
  | eventWaitEnd => exact inv_execEventWaitEnd h
  | timedWaitExpiry => exact inv_execTimedWaitExpiry h
  | sleepEnd => exact inv_execSleepEnd h
  | deadlineReached => exact inv_execDeadlineReached h
  | assayAudit => exact inv_execAssayAudit h
  | leaseRenewal => exact inv_execLeaseRenewal h
  | engineChunkComplete => exact inv_execEngineChunkComplete h
  | arrayEntryBegin => exact inv_execArrayEntryBegin h
  | arrayRowWrite => exact inv_execArrayRowWrite h
  | tileWriteApply => exact inv_execTileWriteApply h
  | sideLogReplay => exact inv_execSideLogReplay h
  | epochEnd => exact inv_execEpochEnd h
  | ladleMoveBegin => exact inv_execLadleMoveBegin h
  | moveCopyComplete => exact inv_execMoveCopyComplete h
  | moveRetire => exact inv_execMoveRetire h
  | duplicateCreate => exact inv_execDuplicateCreate h
  | dupCollapse => exact inv_execDupCollapse h
  | collapseEnd => exact inv_execCollapseEnd h
  | ladleRingAction => exact inv_execLadleRingAction h
  | invalidationComplete => exact inv_execInvalidationComplete h
  | layerJoinComplete => exact inv_execLayerJoinComplete h
  | quantumRowBoundary => exact inv_execQuantumRowBoundary h
  | quantumTableTake => exact inv_execQuantumTableTake h
  | qctlLoad => exact inv_writeQctl h
  | vfctlWrite => exact inv_writeVfctl h
  | sldiscWrite => exact inv_discardLog h
  | addressRangeEnable => exact inv_writeAmb h
  | poolRelease | poolTake | poolQuery => exact inv_poolCommand h
  | poolReleaseDone => exact inv_execPoolReleaseDone h
  | extentActivate | extentOrderlyRelease => exact inv_writeExtState h
  | extentReleaseAck => exact inv_execExtentReleaseAck h
  | forcedWithdrawal => exact inv_execForcedWithdrawal h
  | extentFree => exact inv_execExtentFree h
  | peerDown => exact inv_execPeerDown h
  | peerUp => exact inv_execPeerUp h
  | coldStart => exact inv_start h
  | warmStart => exact inv_execWarmStart h
  | unitPowerUp => exact inv_execUnitPowerUp h
  | attestationRequest => exact inv_writeAttreq h
  | attestationReport => exact inv_execAttestationReport h
  | pcapWrite => exact inv_writePcap h
  | powerCapSample => exact inv_execPowerCapSample h
  | powerCapFallback => exact inv_execPowerCapFallback h
  | thermalTrip => exact inv_execThermalTrip h
  | scrubRead => exact inv_execScrubRead h
  | linkPacketCorrupt => exact inv_execLinkPacketCorrupt h
  | heartbeatSample => exact inv_execHeartbeatSample h
  | mcmdResume => exact inv_resumeUnit h
  | mcmdDiscard => exact inv_discardUnit h
  | checkpointStart => exact inv_execCheckpointStart h
  | restore => exact inv_execRestore h
  | servoLock => exact inv_execServoLock h
  | sensorSample => exact inv_execSensorSample h
  | tgRegister => exact inv_execTgRegister h
  | tgRegisterAck => exact inv_execTgRegisterAck h
  | tgWithdraw => exact inv_execTgWithdraw h
  | tgRequest => exact inv_execTgRequest h
  | tgDwellExpiry => exact inv_execTgDwellExpiry h
  | tgAckTimeout => exact inv_execTgAckTimeout h
  | tgAnnouncement => exact inv_execTgAnnouncement h
  | tgStepApply => exact inv_execTgStepApply h
  | tgDetach => exact inv_execTgDetach h
  | tgLocalStep => exact inv_execTgLocalStep h
  | tgRegisterRetry => exact inv_execTgRegisterRetry h
  | counterCopy => exact inv_execCounterCopy h
  | counterClear => exact inv_clearCounters h
  | registerWrite => exact inv_execRegisterWrite h
  | wordNotInstruction => exact inv_execWordNotInstruction h
  | fetchTranslationFault => exact inv_execFetchTranslationFault h
  | grandmasterLoss => exact inv_execGrandmasterLoss h
  | tnowAgreement => exact inv_execTnowAgreement h
  | collectiveMismatch => exact inv_execCollectiveMismatch h
  | signedFuseCommand => exact inv_execSignedFuseCommand h

/-! ## The plan of a step and time -/

theorem inv_fetched {s : State} (h : StateInv s) : PairInv (fetched s) := by
  unfold fetched
  split
  · exact h
  · split
    · next u e =>
        have hu := (inv_fetchWord h).of_eq e
        split <;> exact hu

theorem inv_countWaits {s : State} {cs : List Cand} (h : StateInv s) : StateInv (countWaits s cs) := inv_with h

theorem inv_beginRound {s : State} (h : StateInv s) : StateInv (beginRound s) := inv_with (inv_countWaits h)

theorem inv_planCtx {s : State} {vf ident : Nat} {pick : Ctx → Option Bool} (h : StateInv s) :
    PlanInv (planCtx s vf ident pick) := by
  unfold planCtx
  split
  · exact h
  · next u e =>
      have hu := (inv_bring h).get e
      refine planInv_ite h ?_
      split
      · exact inv_acquireAp (inv_with hu)
      · exact inv_acquireAp (inv_with hu)
      · split
        · exact h
        · exact inv_with (inv_acquireAp (inv_with hu))

theorem inv_planRound {s : State} (h : StateInv s) : PlanInv (planRound s) := by
  unfold planRound
  split
  · exact inv_with h
  · exact inv_planCtx (inv_with h)

theorem inv_planIssue {s : State} {c : Ctx} {other : Bool} (h : StateInv s) : PlanInv (planIssue s c other) :=
  planInv_ite (inv_planCtx h) (planInv_ite (inv_planRound (inv_beginRound h)) (inv_planCtx (inv_with (inv_countWaits h))))

theorem inv_planSlice {s : State} {vf ident : Nat} (h : StateInv s) : PlanInv (planSlice s vf ident) := by
  unfold planSlice
  split
  · exact h
  · next u e =>
      have hu := (inv_bring h).get e
      exact planInv_ite h (inv_with hu)

theorem inv_sliceDone {s : State} {mode : Mode} (h : StateInv s) : StateInv (sliceDone s mode) := inv_with h

theorem inv_plan {s : State} (h : StateInv s) : PlanInv (plan s) := by
  unfold plan
  split
  · exact planInv_ite (inv_with h) (inv_with h)
  · exact inv_planSlice (inv_with h)
  · refine planInv_ite (inv_planRound h) ?_
    split
    · exact inv_with h
    · exact inv_planIssue (inv_with h)
  · exact inv_planRound (inv_ite (inv_beginRound h) h)

theorem inv_background {s : State} (h : StateInv s) : StateInv (background s) :=
  inv_retryChores (inv_countArrived (inv_evict (inv_with h)))

theorem inv_lull {s : State} (h : StateInv s) : StateInv (lull s) := inv_background (inv_with h)

theorem inv_tick {s : State} (h : StateInv s) : StateInv (tick s) :=
  inv_ite (inv_lull h) (inv_background (inv_accrue (inv_with (inv_advanceTnow h))))

/-! ## A step -/

theorem inv_after {f : State → State} {r : Host.Outcome State Fault Refusal} (hf : ∀ t, StateInv t → StateInv (f t))
    (h : NextInv r) : NextInv (after f r) := by
  cases r with
  | next t => exact hf t h
  | _ => exact trivial

theorem inv_step {s : State} (h : StateInv s) : NextInv (step s) := by
  have hp := inv_plan h
  unfold step
  split
  · next e => exact inv_tick (hp.of_eq e)
  · next e => exact inv_lull (hp.of_eq e)
  · next e => exact inv_after (fun _ => inv_lull) (inv_exec (hp.of_eq e))
  · next e => exact inv_after (fun _ => inv_tick) (inv_exec (hp.of_eq e))
  · next e => exact inv_after (fun _ => inv_tick) (inv_exec (inv_fetched (hp.of_eq e)))
  · next e => exact inv_after (fun _ ht => inv_tick (inv_redoFinish ht)) (inv_exec (inv_fetched (inv_redoStart (hp.of_eq e))))
  · next e => exact inv_after (fun _ ht => inv_lull (inv_sliceDone ht)) (inv_exec (inv_fetched (hp.of_eq e)))

/-- Settles O41: every function that a step is built of keeps memory in its canonical form. -/
theorem stepKeepsMemory : Obligations.StepKeepsMemory := by
  unfold Obligations.StepKeepsMemory
  intro s t h hst
  have hn := inv_step h
  rw [hst] at hn
  exact hn

end Sys2Proof.Machine
end

section
/-! What operands taken leave, and when a form of a group that gives one word completes. -/

namespace Sys2Proof.Machine

/-! ## Operands -/

/-- `t` is `s` but for the access queues and what the pops of their entries bring before the group (R33, R34). -/
def OperandsTaken (s t : State) : Prop := t = { s with g := { s.g with ap := t.g.ap, ord := t.g.ord } }

theorem OperandsTaken.refl (s : State) : OperandsTaken s s := rfl

theorem OperandsTaken.trans {s t u : State} (h : OperandsTaken s t) (k : OperandsTaken t u) : OperandsTaken s u := by
  unfold OperandsTaken at *
  rw [h] at k
  exact k

theorem operandsTaken_popPort {s t : State} {port : Nat} {x : Word} (h : popPort s port = .ok (x, t)) : OperandsTaken s t := by
  unfold popPort at h
  split at h
  · cases h
  · split at h <;> cases h
    rfl

theorem operandsTaken_takeK {pos n i : Nat} {s t : State} {xs : List Word} (h : takeK pos n i s = .ok (xs, t)) : OperandsTaken s t := by
  induction n generalizing i s t xs with
  | zero => cases h; rfl
  | succ n ih =>
    unfold takeK at h
    split at h
    · split at h
      · cases h
      · next hpop =>
        split at h <;> cases h
        next hrest => exact (operandsTaken_popPort hpop).trans (ih hrest)
    · split at h <;> cases h
      next hrest => exact ih hrest

/-- Reading operands changes nothing but the access queues and what their pops bring. -/
theorem operandsTaken_takeAll {l : List (Nat × RegCode × Nat)} {s t : State} {os : List Opnd} (h : takeAll l s = .ok (os, t)) :
    OperandsTaken s t := by
  induction l generalizing s t os with
  | nil => cases h; rfl
  | cons x l ih =>
    unfold takeAll at h
    split at h
    · split at h <;> cases h
      next hrest => exact ih hrest
    · split at h
      · cases h
      · next hk =>
        split at h <;> cases h
        next hrest => exact (operandsTaken_takeK hk).trans (ih hrest)

theorem OperandsTaken.onAp {s t : State} (h : OperandsTaken s t) : t.onAp = s.onAp := by rw [show t = _ from h]

theorem OperandsTaken.active {s t : State} (h : OperandsTaken s t) : active t = active s := by rw [show t = _ from h]; rfl

theorem uniteActive_group {s : State} (hs : s.onAp = false) :
    uniteActive s = { s with g := { s.g with ord := unite s.g.ord (active s) } } := by
  unfold uniteActive
  rw [hs]
  rfl

/-! ## Agents and register codes -/

theorem onAp_of_noAp {s : State} (h : noAp s = []) : s.onAp = false := by
  unfold noAp at h
  split at h
  · cases h
  · next hs => exact Bool.eq_false_iff.2 hs

theorem onAp_of_coreOnly {s : State} (h : coreOnly s = []) : s.onAp = false := by
  unfold coreOnly at h
  split at h
  · cases h
  · next hs => exact (Bool.or_eq_false_iff.1 (Bool.eq_false_iff.2 hs)).1

theorem isK_of_kBad {c : RegCode} {w : Nat} (h : kBad c w = []) : isK c = true := by
  by_contra hk
  rw [kBad, if_neg hk] at h
  cases h

theorem le_of_isK {c : RegCode} (h : isK c = true) : 48 ≤ c.toNat := by
  simpa [isK, isV] using h

/-! ## Forms with one result word -/

/-- A group's write of one word to a k register. -/
theorem putUniform_k {e : State} {d : RegCode} (he : e.onAp = false) (hd : isK d = true) (x : Word) :
    ∃ regs, UniformWritten e.g e.g.regs regs d 1 (fun _ => x) ∧ putUniform e d.toNat x = { e with g := { e.g with regs := regs } } := by
  have hk := le_of_isK hd
  have hv : isV d = false := by simpa [isK] using hd
  have hput : putUniform e d.toNat x = putK e (d.toNat - 48) x := by rw [putUniform, if_neg (by omega)]
  refine ⟨(putK e (d.toNat - 48) x).g.regs, ?_, ?_⟩
  · rw [UniformWritten, if_neg (by simp [hv])]
    intro key
    rw [putK_get he]
    exact if_congr (by unfold kKey; omega) rfl rfl
  · rw [hput]
    exact regsOnly_putK he _ _

/-- A form whose effect ends with the write of one word to a k register writes it, and completes. -/
theorem writes_of_body {i : Instr} {nas : Nas} {io : Io} {body : State → Res} {s e : State} {d : RegCode} {x : Word}
    (hi : exec i s = issue s nas io body) (hw : io.writes = codes d 1) (hc : Clear s nas io) (hd : isK d = true) (he : e.onAp = false)
    (hb : body (closed s (codes d 1)) = .ok (putUniform e d.toNat x)) : Claims.Writes i nas d s e x := by
  obtain ⟨regs, hregs, hput⟩ := putUniform_k he hd x
  refine ⟨regs, hregs, fun u hu => ?_⟩
  rw [hi, ← hw]
  exact issue_completes hc (by rw [hw, hb, hput]) (by rw [hw]; exact hu)

end Sys2Proof.Machine
end

section
/-! What the device does for a group leaves who issues, and the management unit. -/

namespace Sys2Proof.Machine

/-! ## Who issues, while the device acts -/

/-- `t` is `s` as far as who issues is concerned, and in its management: the same agent, and the group but for a cause that it has still to
take. -/
def SameIssuer (s t : State) : Prop := t.onAp = s.onAp ∧ t.mg = s.mg ∧ t.g = { s.g with pend := t.g.pend }

theorem SameIssuer.refl (s : State) : SameIssuer s s := ⟨rfl, rfl, rfl⟩

theorem SameIssuer.trans {s t u : State} (h : SameIssuer s t) (k : SameIssuer t u) : SameIssuer s u := by
  obtain ⟨hap, hmg, hg⟩ := h
  obtain ⟨kap, kmg, kg⟩ := k
  refine ⟨kap.trans hap, kmg.trans hmg, ?_⟩
  rw [hg] at kg
  exact kg

theorem SameIssuer.onAp {s t : State} (h : SameIssuer s t) : t.onAp = s.onAp := h.1

theorem SameIssuer.mg {s t : State} (h : SameIssuer s t) : t.mg = s.mg := h.2.1

theorem SameIssuer.active {s t : State} (h : SameIssuer s t) : active t = active s := by
  obtain ⟨hap, -, hg⟩ := h
  unfold Machine.active
  rw [hap, hg]
  rfl

theorem SameIssuer.of_eq {s t : State} (ho : t.onAp = s.onAp) (hm : t.mg = s.mg) (hg : t.g = s.g) : SameIssuer s t :=
  ⟨ho, hm, by rw [hg]⟩

theorem MemOnly.sameIssuer {s t : State} (h : MemOnly s t) : SameIssuer s t := by
  rw [show t = _ from h]
  exact .refl s

theorem SameIssuer.ite {s t u : State} {p : Prop} [Decidable p] (h : SameIssuer s t) (k : SameIssuer s u) :
    SameIssuer s (if p then t else u) := by
  split <;> assumption

theorem SameIssuer.foldl {β : Type} (f : State → β → State) (hf : ∀ s x, SameIssuer s (f s x)) (l : List β) (s : State) :
    SameIssuer s (l.foldl f s) := by
  induction l generalizing s with
  | nil => exact .refl s
  | cons x l ih => exact (hf s x).trans (ih _)

theorem memOnly_vaPieces {a : Acc} {u : Use} {n : Nat} {s t : State} {va len : Nat} {keys : List Nat}
    (h : vaPieces a u n s va len = .ok (keys, t)) : MemOnly s t := by
  induction n generalizing s t va len keys with
  | zero => cases h; rfl
  | succ n ih =>
    unfold vaPieces at h
    split at h
    · cases h; rfl
    · dsimp only at h
      split at h
      · cases h
      · split at h
        · cases h
        · split at h
          · cases h
          · split at h <;> cases h
            next hrest => exact (memOnly_noteWalk ..).trans (ih hrest)

/-- Finding the bytes of a device access changes memory alone. -/
theorem memOnly_vaKeys {s t : State} {a : Acc} {u : Use} {va n : Nat} {keys : List Nat} (h : vaKeys s a u va n = .ok (keys, t)) :
    MemOnly s t := memOnly_vaPieces h

theorem sameIssuer_ladleCount (s : State) (vf off : Nat) : SameIssuer s (ladleCount s vf off) :=
  .ite (.refl s) (memOnly_physPut ..).sameIssuer

theorem sameIssuer_ringPut (s : State) (p : Proposal) : SameIssuer s (ringPut s p).1 := by
  unfold ringPut
  dsimp only
  split
  · exact .refl s
  · split
    · exact sameIssuer_ladleCount ..
    · exact ((memOnly_physPut ..).trans (memOnly_physPut ..)).sameIssuer

theorem sameIssuer_fileProposal (s : State) (a : Acc) (src va level pte : Nat) (what : Nat × Nat × Nat) (asked : Bool) :
    SameIssuer s (fileProposal s a src va level pte what asked).1 := by
  unfold fileProposal
  dsimp only
  generalize (decide (2 ≤ _) || _ || _) = stays
  cases stays with
  | true => exact .refl s
  | false =>
    rw [if_neg Bool.false_ne_true]
    by_cases hlist : migMode s a.vf = 1
    · rw [if_pos hlist]
      exact .of_eq rfl rfl rfl
    rw [if_neg hlist]
    by_cases hring : migMode s a.vf = 2
    · rw [if_pos hring]
      exact sameIssuer_ringPut ..
    · rw [if_neg hring]
      exact .refl s

theorem sameIssuer_hot (s : State) (x : Store Nat) : SameIssuer s { s with ld := { s.ld with hot := x } } := .of_eq rfl rfl rfl

theorem sameIssuer_countSector (s : State) (a : Acc) (va : Nat) (g : Page) : SameIssuer s (countSector s a va g).1 := by
  have hfile (x : Store Nat) := sameIssuer_fileProposal { s with ld := { s.ld with hot := x } } a a.die va g.level g.pte
    (ladleAction a.die g.pte) false
  unfold countSector
  dsimp only
  split
  · exact (sameIssuer_hot s _).trans (hfile _)
  · exact sameIssuer_hot s _

theorem sameIssuer_notifyFiled (s : State) (vf ident : Nat) (m : Mask) : SameIssuer s (notifyFiled s vf ident m) := by
  unfold notifyFiled updCtx
  split
  · dsimp only
    split
    · exact .refl s
    · exact ⟨rfl, rfl, rfl⟩
  · exact .refl s

theorem sameIssuer_countLater (s : State) (d : DirtySector) (m : Mask) : SameIssuer s (countLater s d m) := by
  unfold countLater
  dsimp only
  split
  · exact sameIssuer_countSector ..
  · split
    · exact .refl s
    · exact (sameIssuer_countSector ..).trans (sameIssuer_notifyFiled ..)

theorem sameIssuer_countVa (s : State) (a : Acc) (u : Use) (fixed : Bool) (va n : Nat) : SameIssuer s (countVa s a u fixed va n) :=
  SameIssuer.foldl _ (fun s _ => .ite (.refl s) (sameIssuer_countLater ..)) _ s

theorem sameIssuer_vaPlain {s t : State} {a : Acc} {va n x : Nat} (h : vaPlain s a va n = .ok (x, t)) : SameIssuer s t := by
  unfold vaPlain at h
  split at h <;> cases h
  next hkeys => exact (memOnly_vaKeys hkeys).sameIssuer.trans (sameIssuer_countVa ..)

theorem sameIssuer_readTeams {a : Acc} {n : Nat} {s t : State} {va : Nat} {l : Option (List TeamEntry)}
    (h : readTeams a n s va = .ok (l, t)) : SameIssuer s t := by
  induction n generalizing s t va l with
  | zero => cases h; exact .refl s
  | succ n ih =>
    unfold readTeams at h
    split at h
    · cases h
    · next hread =>
      split at h <;> cases h
      next hrest => exact (sameIssuer_vaPlain hread).trans (ih hrest)

theorem sameIssuer_readGang {s t : State} {a : Acc} {va : Nat} {d : Option GangDesc} (h : readGang s a va = .ok (d, t)) :
    SameIssuer s t := by
  unfold readGang at h
  split at h
  · cases h; exact .refl s
  · split at h
    · cases h
    · next hread =>
      dsimp only at h
      split at h
      · cases h; exact sameIssuer_vaPlain hread
      · split at h <;> cases h
        next hteams => exact (sameIssuer_vaPlain hread).trans (sameIssuer_readTeams hteams)

/-- The checks of a pushed record may read a gang descriptor, and change nothing of who issues but a cause still to be taken. -/
theorem sameIssuer_pushCheck {s t : State} {cluster data : Nat} {c : Option Nat} (h : pushCheck s cluster data = .ok (c, t)) :
    SameIssuer s t := by
  unfold pushCheck at h
  split at h
  · cases h; exact .refl s
  · split at h
    · cases h; exact .refl s
    · split at h
      · split at h <;> cases h
        · next hgang => exact sameIssuer_readGang hgang
        · next hgang => exact sameIssuer_readGang hgang
      · cases h; exact .refl s

/-! ## Steps on memory -/

theorem MemOnly.mg {s t : State} (h : MemOnly s t) : t.mg = s.mg := by rw [show t = _ from h]

theorem MemOnly.onAp {s t : State} (h : MemOnly s t) : t.onAp = s.onAp := by rw [show t = _ from h]

@[simp] theorem devPutKeys_mg (s : State) (ks : List Nat) (bs : List Byte) : (devPutKeys s ks bs).mg = s.mg := (memOnly_devPutKeys ..).mg

@[simp] theorem physPut_mg (s : State) (pa n x : Nat) : (physPut s pa n x).mg = s.mg := (memOnly_physPut ..).mg

@[simp] theorem putBytes_mg (s : State) (p : Party) (ev : Nat) (w : Option Nat) (b : Bool) (scope : Nat) (rels : List Rel) (ks : List Nat)
    (bs : List Byte) : (putBytes s p ev w b scope rels ks bs).mg = s.mg := (memOnly_putBytes ..).mg

@[simp] theorem learnFor_mg (s : State) (ids : List Nat) (m : Mask) : (learnFor s ids m).mg = s.mg := by
  unfold learnFor
  split <;> rfl

@[simp] theorem landed_mg (s : State) (m : Mask) : (landed s m).mg = s.mg := by
  unfold landed
  split <;> rfl

@[simp] theorem arriveAll_mg (s : State) (o : Order) (m : Mask) : (arriveAll s o m).mg = s.mg := landed_mg s m

@[simp] theorem performAt_mg (s : State) (m : Mask) (ks : List Nat) : (performAt s m ks).mg = s.mg := rfl

@[simp] theorem putObject_mg (s : State) (m : Mask) (scope : Nat) (release : Bool) (ks : List Nat) (x : Nat) :
    (putObject s m scope release ks x).mg = s.mg := by
  have hput (t : State) (p : Party) (ev : Nat) (rels : List Rel) (bs : List Byte) :
      (learnFor (noteStrong (strongPut t p ev scope rels ks bs) ks) [ev] m).mg = t.mg := (learnFor_mg ..).trans (putBytes_mg ..)
  refine (hput ..).trans ?_
  cases release with
  | false => exact landed_mg s m
  | true => exact (landed_mg (performAt (landed s m) m ks) m).trans (landed_mg s m)

@[simp] theorem qCount_mg (s : State) (h off : Nat) : (qCount s h off).mg = s.mg := physPut_mg ..

theorem qWrite_mg (s : State) (h data ident issuer : Nat) (ids : List Nat) : (qWrite s h data ident issuer ids).mg = s.mg :=
  (putObject_mg ..).trans (putObject_mg ..)

/-! ## Tables of keys and values -/

/-- A computation on the tables leaves the management unit. -/
def KvApart {α : Type} (m : Kv α) : Prop := ∀ s, OkWith (fun x => x.2.mg = s.mg) (m s)

theorem kvApart_pure {α : Type} {x : α} : KvApart (pure x : Kv α) := fun _ => rfl

theorem kvApart_bind {α β : Type} {m : Kv α} {f : α → Kv β} (h : KvApart m) (k : ∀ x, KvApart (f x)) : KvApart (m >>= f) := by
  intro s
  have hm := h s
  simp only [bind, StateT.bind, Except.bind]
  cases e : m s with
  | error _ => exact trivial
  | ok p =>
    have hp := hm.get e
    have hf := k p.1 p.2
    rw [hp] at hf
    exact hf

theorem kvApart_ite {α : Type} {p : Prop} [Decidable p] {a b : Kv α} (h : KvApart a) (k : KvApart b) : KvApart (if p then a else b) := by
  split <;> assumption

theorem kvApart_kvWhen {b : Bool} {c : Nat} : KvApart (kvWhen b c) := kvApart_ite (fun _ => trivial) kvApart_pure

theorem kvApart_kvState : KvApart kvState := fun _ => rfl

theorem vaHome_mg {s t : State} {a : Acc} {u : Use} {va n x : Nat} (h : vaHome s a u va n = .ok (x, t)) : t.mg = s.mg := by
  unfold vaHome at h
  split at h <;> cases h
  next hkeys => exact (performAt_mg ..).trans (memOnly_vaKeys hkeys).mg

theorem kvApart_kvHome {a : Acc} {va n : Nat} : KvApart (kvHome a va n) := by
  intro s
  cases e : kvHome a va n s with
  | error _ => exact trivial
  | ok p => exact vaHome_mg e

theorem kvApart_kvStruct {a : Acc} {va n : Nat} : KvApart (kvStruct a va n) := by
  intro s
  unfold kvStruct vaStruct
  split
  · exact trivial
  · next hkeys => exact (sameIssuer_countVa ..).mg.trans (memOnly_vaKeys hkeys).mg

theorem vaRmw_mg {s t : State} {a : Acc} {va n x : Nat} (h : vaRmw s a va n x = .ok t) : t.mg = s.mg := by
  unfold vaRmw at h
  split at h
  · cases h
  · next hkeys =>
    split at h <;> cases h
    exact (putObject_mg ..).trans ((learnFor_mg ..).trans ((sameIssuer_countVa ..).mg.trans (memOnly_vaKeys hkeys).mg))

theorem kvApart_kvRmw {a : Acc} {va n x : Nat} : KvApart (kvRmw a va n x) := by
  intro s
  unfold kvRmw
  split
  · next h => exact vaRmw_mg h
  · exact trivial

theorem kvApart_readRoot {a : Acc} : KvApart (readRoot a) :=
  kvApart_bind kvApart_kvState fun _ => kvApart_bind kvApart_kvWhen fun _ => kvApart_bind kvApart_kvStruct fun _ =>
    kvApart_bind kvApart_kvWhen fun _ => kvApart_pure

theorem kvApart_freeEntry {a : Acc} {r : KvRoot} {b x : Nat} : KvApart (freeEntry a r b x) :=
  kvApart_bind kvApart_kvHome fun _ => kvApart_bind kvApart_kvRmw fun _ => kvApart_kvRmw

theorem kvApart_unpinBlock {a : Acc} {r : KvRoot} {b : Nat} : KvApart (unpinBlock a r b) :=
  kvApart_bind kvApart_kvHome fun _ => kvApart_ite kvApart_freeEntry kvApart_kvRmw

theorem kvApart_failEntry {a : Acc} {at_ : Nat} {rwm : Option Nat} : KvApart (failEntry a at_ rwm) := by
  have hmark : KvApart (kvHome a at_ 16 >>= fun x => kvRmw a at_ 16 (setBits (setBits x 91 91 1) 81 81 0)) :=
    kvApart_bind kvApart_kvHome fun _ => kvApart_kvRmw
  cases rwm with
  | none => exact hmark
  | some n => exact kvApart_bind kvApart_kvHome fun _ => kvApart_bind kvApart_kvRmw fun _ => hmark

/-! ## Chores -/

/-- `t` has the issuing agent and the management of `s`. -/
def Beside (s t : State) : Prop := t.onAp = s.onAp ∧ t.mg = s.mg

theorem Beside.refl (s : State) : Beside s s := ⟨rfl, rfl⟩

theorem Beside.trans {s t u : State} (h : Beside s t) (k : Beside t u) : Beside s u := ⟨k.1.trans h.1, k.2.trans h.2⟩

theorem Beside.onAp {s t : State} (h : Beside s t) : t.onAp = s.onAp := h.1

theorem Beside.mg {s t : State} (h : Beside s t) : t.mg = s.mg := h.2

theorem MemOnly.beside {s t : State} (h : MemOnly s t) : Beside s t := ⟨h.onAp, h.mg⟩

/-- Whoever acted for the device, the issue goes back. -/
theorem leave_beside {s t : State} (h : t.mg = s.mg) : Beside s (leave s t) := by
  unfold leave
  split <;> exact ⟨rfl, h⟩

theorem collapseAt_beside (s : State) (pte : Nat) : Beside s (collapseAt s pte) := by
  unfold collapseAt
  split <;> exact ⟨rfl, rfl⟩

theorem refuseJoin_beside (s : State) (j : Join) : Beside s (refuseJoin s j) := (memOnly_physPut ..).beside

theorem setRepair_beside (s : State) (num : Nat) (r : Option Repair) : Beside s (setRepair s num r) := ⟨rfl, rfl⟩

theorem dropFrames_beside (s : State) (r : Repair) : Beside s (dropFrames s r) := ⟨rfl, rfl⟩

/-- The state that enqueueing comes to. -/
def Enq.state : Enq → State
  | .done t | .discard t _ => t

theorem enqueueAs_state (s : State) (a : Acc) (cluster data issuer : Nat) (ids : List Nat) :
    (enqueueAs s a cluster data issuer ids).2 = leave s (enqueue (enter s a ids) a.vf cluster data a.ident issuer ids).state := by
  unfold enqueueAs
  split <;> next e => rw [e]; rfl

theorem enqueue_mg (s : State) (vf cluster data ident issuer : Nat) (ids : List Nat) :
    (enqueue s vf cluster data ident issuer ids).state.mg = s.mg := by
  unfold enqueue
  split
  · exact qCount_mg ..
  · split
    · exact qCount_mg ..
    · split
      · exact qCount_mg ..
      · split
        · rfl
        · exact qWrite_mg ..

theorem continueJoin_beside (s : State) (j : Join) (ids : List Nat) (cont : Nat) : Beside s (continueJoin s j ids cont).2 := by
  have h : (continueJoin s j ids cont).2 = (enqueueAs s j.acc j.cluster cont j.cluster ids).2 := rfl
  rw [h, enqueueAs_state]
  exact leave_beside (enqueue_mg ..)

theorem joinRmw_mg (s : State) (keys : List Nat) (count : Nat) (fail : Bool) (cause : Nat) : (joinRmw s keys count fail cause).mg = s.mg := by
  cases fail with
  | false => exact putObject_mg ..
  | true => exact (putObject_mg ..).trans (putObject_mg ..)

theorem afterJoin_beside (s : State) (j : Join) (key left : Nat) (ids : List Nat) : Beside s (afterJoin s j key left ids).2 := by
  unfold afterJoin
  split
  · exact .refl s
  · split
    · split
      · exact continueJoin_beside ..
      · exact .refl s
    · dsimp only
      split
      · split
        · exact .refl s
        · split
          · exact setRepair_beside ..
          · exact (setRepair_beside ..).trans (continueJoin_beside ..)
      · split
        · exact (dropFrames_beside ..).trans (setRepair_beside ..)
        · exact .refl s

theorem joinStep_beside (s : State) (j : Join) : EndsWith (Beside s) (fun x => Beside s x.2) (joinStep s j) := by
  unfold joinStep
  refine endsWith_ite (refuseJoin_beside s j) ?_
  split
  · exact collapseAt_beside ..
  · exact refuseJoin_beside s j
  · next t hkeys =>
    have ht := (memOnly_vaKeys hkeys).beside
    have hleave (keys : List Nat) (count : Nat) := leave_beside (s := t) (joinRmw_mg (enter t j.acc j.ids) keys count j.fail j.cause)
    exact endsWith_ite (ht.trans (refuseJoin_beside t j)) (ht.trans ((hleave ..).trans (afterJoin_beside ..)))

theorem runAs_beside {α : Type} {s : State} {a : Acc} {ids : List Nat} {m : Kv α} (hm : KvApart m) {x : α × List Nat × State}
    (h : runAs s a ids m = .ok x) : Beside s x.2.2 := by
  unfold runAs at h
  split at h <;> cases h
  next hrun => exact leave_beside ((hm _).get hrun)

theorem choreStep_beside (s : State) (x : Chore) : EndsWith (Beside s) (fun x => Beside s x.2) (choreStep s x) := by
  unfold choreStep
  split
  · exact joinStep_beside ..
  · exact Beside.refl s
  · split
    · exact collapseAt_beside ..
    · exact Beside.refl s
    · next h => exact runAs_beside kvApart_failEntry h
  · refine endsWith_ite (Beside.refl s) ?_
    split
    · exact collapseAt_beside ..
    · exact Beside.refl s
    · next h => exact runAs_beside (kvApart_bind kvApart_readRoot fun _ => kvApart_unpinBlock) h

theorem runChores_beside (n : Nat) (s : State) (l : List Chore) : Beside s (runChores n s l) := by
  induction n generalizing s l with
  | zero => cases l <;> exact ⟨rfl, rfl⟩
  | succ n ih =>
    cases l with
    | nil => exact .refl s
    | cons x l =>
      unfold runChores
      split
      · next h =>
        have hu := (choreStep_beside s x).err h
        exact hu.trans (ih (keepChore _ _) _)
      · next h => exact ((choreStep_beside s x).get h).trans (ih ..)

theorem joinFor_beside (s : State) (a : Acc) (cluster prio join : Nat) (fail : Bool) (cause : Nat) (ids : List Nat) :
    Beside s (joinFor s a cluster prio join fail cause ids) := by
  unfold joinFor
  split
  · exact .refl s
  · exact runChores_beside ..

end Sys2Proof.Machine
end

section
/-! Team barriers and joins: two statements that a write on its way refutes, whose event number has not been given out yet. The next event
takes its number, and the group that makes it counts the write as its own. -/

namespace Sys2Proof.Machine

/-- A write on its way to a byte, under the event number 1, which no event of a state with `fresh = 0` has yet; it follows an entry of the
side log, so that it does not arrive at its home (R81). -/
def earlyWrite (key : Nat) (x : Byte) : WriteRec := ⟨1, key, x, [2], none, none, none, 7, [], 0, 0, none⟩

/-- The entry of another context's side log that `earlyWrite` follows. -/
def earlyEntry : LogEntry := ⟨0, 0, 1, 0, [], 0, .plain, 7, 0, 0, 2, [], [], .usr, false⟩

/-! ## A barrier whose arrival's event has the number of another write -/

/-- A group of origin SPAWN with k2 = 0x500 before a team barrier there, N = LEFT = 2 and PHASE = 0, to whose second byte an
`earlyWrite` is on its way that would set PHASE. -/
def racedBarrier : State :=
  { State.reset with
    g := { noCtx with
      live := true, who := { noCtx.who with origin := .spawn }, s0 := ⟨true, 0x10000, 1, .none⟩, regs := [(kKey 2, 0x500)] }
    ms := { State.reset.ms with
      mem := [(vaultKey 0 0x500, 0x42)], hist := [earlyWrite (vaultKey 0 0x501) 4], log := [earlyEntry] } }

/-- gbar on k2. -/
def barrierForm : FmtE := ⟨.seq, 0, 50, 0, 0⟩

theorem racedBarrier_clear :
    Clear racedBarrier barrierForm.nas ⟨coreOnly racedBarrier ++ kBad barrierForm.a 1, codes barrierForm.a 1, []⟩ := by
  unfold Clear; decide +kernel

theorem racedBarrier_released : Claims.Released (closed racedBarrier []) := by
  unfold Claims.Released; decide +kernel

/-- The arrival's own event takes the number of the write on its way, which the group so counts as its own: it reads PHASE flipped, and
completes instead of waiting. -/
theorem racedBarrier_completes :
    (match exec (.gbar barrierForm) racedBarrier with | .next u => u.g.stamp | _ => none) = some 0 := by decide +kernel

theorem setWait_stamp (s : State) (w : Wait) : (setWait s w).g.stamp = s.g.stamp := by
  unfold setWait setG setCur
  split
  · rfl
  · split <;> rfl

/-- Refutes O31: an arrival that is not the last completes at once where a write on its way bears the number of the arrival's event. -/
theorem not_teamBarriers : ¬ Obligations.TeamBarriers := by
  unfold Obligations.TeamBarriers
  rintro ⟨harrival, -, -⟩
  obtain ⟨e, -, he, -, hwait⟩ := harrival barrierForm racedBarrier (closed racedBarrier []) (closed racedBarrier []) [.k [0x500]] 2 2 0 rfl
    racedBarrier_clear (by decide +kernel) (by decide +kernel) (by decide +kernel) (by decide +kernel) (by decide +kernel)
    (by decide) (by decide) (by decide) (by decide) (by decide +kernel) (by decide +kernel) (by decide +kernel) (by decide +kernel)
    racedBarrier_released (by decide +kernel)
  have hstamp := racedBarrier_completes
  rw [hwait (by decide)] at hstamp
  simp only [setWait_stamp] at hstamp
  rw [he] at hstamp
  have hnone : (closed racedBarrier []).g.stamp = none := by decide +kernel
  exact nomatch hnone.symm.trans hstamp

/-! ## What a join queues -/

/-- Every record in an overflow buffer of `t` was in one of `s`, or its push is after just the events `ids`. -/
def OverflowAfter (ids : List Nat) (s t : State) : Prop := ∀ o ∈ t.wk.overflow, o ∈ s.wk.overflow ∨ o.ids = ids

theorem OverflowAfter.of_eq {ids : List Nat} {s t : State} (h : t.wk.overflow = s.wk.overflow) : OverflowAfter ids s t :=
  fun _ ho => .inl (h ▸ ho)

theorem MemOnly.overflow {s t : State} (h : MemOnly s t) : t.wk.overflow = s.wk.overflow := by rw [show t = _ from h]

theorem Accesses.overflow {s t : State} (h : Accesses s t) : t.wk.overflow = s.wk.overflow := by rw [show t = _ from h]

theorem leave_wk (s t : State) : (leave s t).wk = t.wk := by unfold leave; split <;> rfl

theorem qWrite_overflow {s : State} (hs : s.onAp = false) (h data ident issuer : Nat) (ids : List Nat) :
    (qWrite s h data ident issuer ids).wk.overflow = s.wk.overflow := by
  have hslot := (putObject_spec hs (active s) 3 data (physKeys s (qSlot s h (qTailCount s h)) 32)).1
  have htail (t : State) (ht : Accesses s t) (x : Nat) (ks : List Nat) := (putObject_spec (ht.onAp.trans hs) (active t) 3 x ks).1
  exact (hslot.trans (htail _ hslot ..)).overflow

/-- The device's enqueueing of a record puts it into an overflow buffer after the events that it is given, or into none. -/
theorem enqueue_overflow {s : State} (hs : s.onAp = false) (vf cluster data ident issuer : Nat) (ids : List Nat) :
    OverflowAfter ids s (enqueue s vf cluster data ident issuer ids).state := by
  have hcount (h off : Nat) : OverflowAfter ids s (qCount s h off) := .of_eq (memOnly_physPut ..).overflow
  unfold enqueue
  split
  · exact hcount _ 20
  · split
    · exact hcount _ 20
    · split
      · exact hcount _ 20
      · split
        · exact fun o ho => (List.mem_append.1 ho).imp_right fun hn => by rw [List.mem_singleton.1 hn]
        · exact .of_eq (qWrite_overflow hs ..)

theorem enqueueAs_overflow (s : State) (a : Acc) (cluster data issuer : Nat) (ids : List Nat) :
    OverflowAfter ids s (enqueueAs s a cluster data issuer ids).2 := by
  intro o ho
  rw [enqueueAs_state, leave_wk] at ho
  exact enqueue_overflow (s := enter s a ids) rfl _ _ _ _ _ _ o ho

theorem layerJoin_none {s : State} (h : s.en.repairs = []) (key : Nat) : layerJoin s key = none := by
  unfold layerJoin; rw [h]; rfl

/-- Without a repair, what follows a join's RMW queues the block's continuation after the events that the join gained. -/
theorem afterJoin_overflow {s : State} (h : s.en.repairs = []) (j : Join) (key left : Nat) (ids : List Nat) :
    OverflowAfter ids s (afterJoin s j key left ids).2 := by
  unfold afterJoin
  rw [layerJoin_none h]
  split
  · exact .of_eq rfl
  · dsimp only
    split
    · exact enqueueAs_overflow s j.acc j.cluster _ j.cluster ids
    · exact .of_eq rfl

/-! ## A join whose event has the number of another write -/

/-- A byte of memory in the one tier that the machine of `racedJoin` maps. -/
def cellAt (a : Nat) (x : Byte) : Nat × Byte := (locKey 16 a, x)

/-- Context 0 of VF 0 with the first GiB mapped to itself and the translation of the page at 0x20000 held; there, at 0x20100, a join block
with COUNT = 1 whose continuation is a record of zeros, and at 0x21100 the header of its queue, of 16 places which are all taken. An
`earlyWrite` is on its way to the first byte of the block. -/
def racedJoin : State :=
  let s := setDevReg (setDevReg (setDevReg State.reset 0x140 0x8000000000000000) 0x141 0x7FE00000) 0x142 0xFE000101
  let s := setVfReg s 0 0x100 0x21100
  { s with ms := { s.ms with
      mem := [cellAt 0 0x01, cellAt 1 0x10, cellAt 0x1000 0x01, cellAt 0x1002 0x02, cellAt 0x1007 0x70, cellAt 0x2000 0x01,
        cellAt 0x2002 0x03, cellAt 0x2007 0x70, cellAt 0x3000 0x6F, cellAt 0x20100 1, cellAt 0x21108 4, cellAt 0x21110 16]
      tlb := [⟨0, some 0, 0x1001, 0x20, 3, 0x6F⟩]
      hist := [earlyWrite (locKey 16 0x20100) 0]
      log := [earlyEntry] } }

/-- A join of the block, made after event 5. -/
def lateJoin : Join := ⟨⟨0, 0, .mch, 0⟩, 0, 0, 0x20100, false, 0, [5]⟩

/-- The join's own event takes the number of the write on its way, which so passes for the latest of the joins' writes and releases
nothing: the continuation is queued after no event. -/
theorem racedJoin_overflow :
    (match joinStep racedJoin lateJoin with | .ok r => r.2.wk.overflow.map (·.ids) | .error _ => []) = [[]] := by decide +kernel

/-- Refutes O39: the continuation of a join that comes after event 5 is queued as after none, where a write on its way bears the number of
the join's event. -/
theorem not_joins : ¬ Obligations.Joins := by
  unfold Obligations.Joins
  rintro ⟨-, hjoin, -⟩
  have hat : Claims.At racedJoin lateJoin.acc .store lateJoin.addr 8 ((List.range 8).map (locKey 16 0x20100 + ·)) := by
    unfold Claims.At; decide +kernel
  obtain ⟨-, hdone⟩ := hjoin racedJoin lateJoin _ (by decide) hat
  obtain ⟨e, ids, he, -, hids, hstep⟩ := hdone (by decide +kernel)
  have hrepairs : e.en.repairs = [] := by rw [he]; rfl
  have hempty : e.wk.overflow = [] := by rw [he]; rfl
  have hqueued := racedJoin_overflow
  rw [hstep] at hqueued
  dsimp only at hqueued
  obtain ⟨o, ho, hoids⟩ := List.mem_map.1 (hqueued ▸ List.mem_singleton_self ([] : List Nat))
  rcases afterJoin_overflow hrepairs lateJoin _ _ ids o ho with hold | hnew
  · rw [hempty] at hold
    exact List.not_mem_nil hold
  · have hfive : 5 ∈ ids := hids 5 (List.mem_singleton_self 5)
    rw [← hnew, hoids] at hfive
    exact List.not_mem_nil hfive

end Sys2Proof.Machine
end

section
/-! The group that gspawn creates. -/

namespace Sys2Proof.Machine

/-! ## Registers filled one by one -/

/-- A key that no write of a list of writes hits keeps its value. -/
theorem storeGet_foldl_set_miss {ι : Type} (k : ι → Nat) (f : ι → Word) (l : List ι) (r : Store Word) {key : Nat}
    (hk : ∀ i ∈ l, k i ≠ key) : storeGet 0 (l.foldl (fun r i => storeSet 0 r (k i) (f i)) r) key = storeGet 0 r key := by
  induction l generalizing r with
  | nil => rfl
  | cons i l ih =>
    rw [List.foldl_cons, ih _ fun j hj => hk j (List.mem_cons_of_mem i hj), storeGet_set_ne _ _ _ (hk i List.mem_cons_self).symm]

/-- A key that some write of a list hits has the value that every write which hits it gives. -/
theorem storeGet_foldl_set_hit {ι : Type} (k : ι → Nat) (f : ι → Word) (l : List ι) (r : Store Word) {key : Nat} {x : Word}
    (hk : ∃ i ∈ l, k i = key) (hx : ∀ i ∈ l, k i = key → f i = x) :
    storeGet 0 (l.foldl (fun r i => storeSet 0 r (k i) (f i)) r) key = x := by
  induction l generalizing r with
  | nil => simp at hk
  | cons i l ih =>
    rw [List.foldl_cons]
    by_cases hl : ∃ j ∈ l, k j = key
    · exact ih _ hl fun j hj => hx j (List.mem_cons_of_mem i hj)
    · have hi : k i = key := by
        obtain ⟨j, hj, he⟩ := hk
        rcases List.mem_cons.1 hj with rfl | hj
        · exact he
        · exact absurd ⟨j, hj, he⟩ hl
      rw [storeGet_foldl_set_miss _ _ _ _ fun j hj he => hl ⟨j, hj, he⟩, ← hi, storeGet_set_self]
      exact hx i List.mem_cons_self hi

/-- k0 to k15 with the group's values. -/
def parentKs (c : Ctx) : Store Word := (upto 16).foldl (fun r i => storeSet 0 r (kKey i) (kAt c i)) []

theorem parentKs_k (c : Ctx) {i : Nat} (hi : i < 16) : storeGet 0 (parentKs c) (kKey i) = kAt c i := by
  refine storeGet_foldl_set_hit kKey (kAt c) _ _ ⟨i, (mem_upto ..).2 hi, rfl⟩ fun j _ hj => ?_
  rw [show j = i by unfold kKey at hj; omega]

theorem parentKs_other (c : Ctx) {key : Nat} (hk : ∀ i < 16, kKey i ≠ key) : storeGet 0 (parentKs c) key = 0 :=
  storeGet_foldl_set_miss kKey (kAt c) _ _ fun i hi => hk i ((mem_upto ..).1 hi)

/-- The registers of a spawned group: the parent's k registers, and the eight v registers of an operand as v0 to v7. -/
def spawnRegs (s : State) (o : Opnd) : Store Word :=
  (upto 8).foldl (fun r i => (upto 32).foldl (fun r l => storeSet 0 r (vKey i l) (o.word s i l)) r) (parentKs s.g)

/-- The places of v0 to v7. -/
def spawnPlaces : List (Nat × Nat) := (upto 8).flatMap fun i => (upto 32).map fun l => (i, l)

theorem mem_spawnPlaces (p : Nat × Nat) : p ∈ spawnPlaces ↔ p.1 < 8 ∧ p.2 < 32 := by
  obtain ⟨i, l⟩ := p
  simp [spawnPlaces]

theorem spawnRegs_eq (s : State) (o : Opnd) :
    spawnRegs s o = spawnPlaces.foldl (fun r p => storeSet 0 r (vKey p.1 p.2) (o.word s p.1 p.2)) (parentKs s.g) := by
  simp only [spawnRegs, spawnPlaces, List.foldl_flatMap, List.foldl_map]

/-- The spawned group has the operand in v0 to v7. -/
theorem spawnRegs_v (s : State) (o : Opnd) {i l : Nat} (hi : i < 8) (hl : l < 32) :
    storeGet 0 (spawnRegs s o) (vKey i l) = o.word s i l := by
  rw [spawnRegs_eq]
  refine storeGet_foldl_set_hit (fun p : Nat × Nat => vKey p.1 p.2) (fun p => o.word s p.1 p.2) _ _
    ⟨(i, l), (mem_spawnPlaces _).2 ⟨hi, hl⟩, rfl⟩ ?_
  rintro ⟨i', l'⟩ hp he
  have hl' := ((mem_spawnPlaces _).1 hp).2
  obtain ⟨rfl, rfl⟩ : i' = i ∧ l' = l := by simp only [vKey] at he hl'; omega
  rfl

/-- Above v7 it has the parent's k registers. -/
theorem spawnRegs_above (s : State) (o : Opnd) {key : Nat} (hk : 256 ≤ key) :
    storeGet 0 (spawnRegs s o) key = storeGet 0 (parentKs s.g) key := by
  rw [spawnRegs_eq]
  refine storeGet_foldl_set_miss (fun p : Nat × Nat => vKey p.1 p.2) (fun p => o.word s p.1 p.2) _ _ fun p hp => ?_
  obtain ⟨hi, hl⟩ := (mem_spawnPlaces p).1 hp
  unfold vKey
  omega

/-! ## The new group -/

/-- The identity of the group that the issuing group of `s` spawns in a partition, `tid` a fresh number. -/
def spawnWho (s : State) (part ident gidx tid : Nat) : Who :=
  ⟨s.g.who.vf, ident, locOf (coreNum s.g.who.loc) part (freeNum s (coreNum s.g.who.loc) part), .spawn, s.g.who.recClass, s.g.who.gang,
    s.g.who.team, if s.g.who.team.isSome then s.g.who.teamId else tid, gidx, 0, tid⟩

/-- The groups of the issuing group's team, itself among them. -/
def teamMates (s : State) : List Ctx := (allCtx s).filter fun c => c.who.vf == s.g.who.vf && c.who.teamId == s.g.who.teamId

/-- The index in its team of a group that the issuing group spawns. -/
def spawnIndex (s : State) : Nat :=
  let groups := match s.wk.gangs.find? fun g => some g.num == s.g.who.gang, s.g.who.team with
    | some g, some i => (g.teams.getD i ⟨⟨0, 0, 0, 0, 0⟩, 0, 0⟩).entry.groups
    | _, _ => 0
  (((upto 512).map (groups + ·)).find? fun i => !(teamMates s).any fun c => c.who.gidx == i).getD 0

/-- The group that gspawn creates with the operands `os`. -/
def spawned (s : State) (os : List Opnd) (part ident tid : Nat) (ids : List Nat) : Ctx :=
  newCtx (spawnWho s part ident (spawnIndex s) tid) s.g.prio s.g.mode ((uniPair s os 1).toNat % 2 ^ 57) (active s) 0
    (spawnRegs s (os.getD 0 (.k []))) ids

/-- What gspawn leaves of the state `t` of its operands when it creates a group. -/
def afterSpawn (s t : State) (os : List Opnd) (part ident : Nat) : State :=
  let u := (takeFresh (uniteActive t)).2
  addCtx (copyEntry u s.g.who.vf s.g.who.ident ident) (spawned s os part ident u.fresh (knownIds u.g.ord (active s)))

/-- The effect of gspawn (R52). -/
def spawnBody (f : FmtR) (s : State) : Res :=
  match takeAll [(1, f.a, 8), (2, f.b, 2)] s with
  | .error e => portStop s e
  | .ok (os, t) =>
    match bestPart s (coreNum s.g.who.loc), freeIdent s s.g.who.vf, s.g.who.team.isSome && decide (16 ≤ (teamMates s).length) with
    | some part, some ident, false => .ok (putUniform (afterSpawn s t os part ident) f.d.toNat 0)
    | _, _, _ => .ok (putUniform t f.d.toNat 1)

theorem exec_gspawn (f : FmtR) (s : State) : exec (.gspawn f) s = issue s f.nas
    ⟨coreOnly s ++ kBad f.d 1 ++ (if f.a.toNat ≤ 40 then [] else [0x03]) ++ kBad f.b 2, codes f.a 8 ++ codes f.b 2, codes f.d 1⟩
    (spawnBody f) := rfl

theorem ofNat_mod_setWidth (x : DWord) : BitVec.ofNat 57 (x.toNat % 2 ^ 57) = x.setWidth 57 := by
  refine BitVec.eq_of_toNat_eq ?_
  simp

/-- A spawned group's registers (R52). -/
theorem spawned_regs (s : State) (os : List Opnd) (part ident tid : Nat) (ids : List Nat) :
    let c := spawned s os part ident tid ids
    (∀ i < 16, kAt c i = kAt s.g i) ∧ (∀ i < 8, ∀ l < 32, vAt c i l = src s os 0 i l) ∧
      (∀ i < 48, 8 ≤ i → ∀ l < 32, vAt c i l = 0) ∧ ∀ i, 1 ≤ i → i < 8 → mAt c i = 0 := by
  have habove {key : Nat} (hk : 256 ≤ key) := spawnRegs_above s (os.getD 0 (.k [])) hk
  refine ⟨fun i hi => ?_, fun i hi l hl => ?_, fun i hi h8 l hl => ?_, fun i h1 hi => ?_⟩
  · exact (habove (key := kKey i) (by unfold kKey; omega)).trans (parentKs_k _ hi)
  · exact spawnRegs_v s _ hi hl
  · exact (habove (key := vKey i l) (by unfold vKey; omega)).trans (parentKs_other _ fun j _ => by unfold vKey kKey; omega)
  · rw [mAt, if_neg (by omega)]
    exact (habove (key := mKey i) (by unfold mKey; omega)).trans (parentKs_other _ fun j _ => by unfold mKey kKey; omega)

/-- The state of the operands `t` once gspawn has united its lanes' order and taken a number. -/
def spawnBase (s t : State) : State := { t with g := { t.g with ord := unite t.g.ord (active s) }, fresh := t.fresh + 1 }

theorem afterSpawn_eq {s t : State} (ht : OperandsTaken s t) (hs : s.onAp = false) (os : List Opnd) (part ident : Nat) :
    afterSpawn s t os part ident = addCtx (copyEntry (spawnBase s t) s.g.who.vf s.g.who.ident ident)
      (spawned s os part ident (t.fresh + 1) (knownIds (unite t.g.ord (active s)) (active s))) := by
  unfold afterSpawn
  rw [uniteActive_group (ht.onAp.trans hs), ht.active]
  rfl

/-- The creation of a context copies an entry of the context table, keeps older translations under their root only, and adds the context
(R109, R350). -/
theorem addCtx_copyEntry_eq (b : State) (vf from_ ident : Nat) (c : Ctx) :
    addCtx (copyEntry b vf from_ ident) c = { b with
      ms := { b.ms with
        mem := (copyEntry b vf from_ ident).ms.mem, hist := (copyEntry b vf from_ ident).ms.hist
        undef := (copyEntry b vf from_ ident).ms.undef
        tlb := b.ms.tlb.map fun x => if x.vf = vf ∧ x.ident = some ident then { x with ident := none } else x }
      fresh := (copyEntry b vf from_ ident).fresh, others := b.others ++ [c] } := by
  have htlb : (renewTlb b vf ident).ms.tlb =
      b.ms.tlb.map fun x => if x.vf = vf ∧ x.ident = some ident then { x with ident := none } else x := by
    simp [renewTlb, mapWhere]
  have hput : copyEntry b vf from_ ident = _ := physPut_spec (renewTlb b vf ident) _ _ _
  rw [← htlb, hput]
  rfl

theorem homeByte_copyEntry (b : State) (vf from_ ident key : Nat) : homeByte (copyEntry b vf from_ ident) key =
    Claims.writeAll (homeByte b) ((physKeys b (ctxEntryAt b vf ident) 16).zip
      (bytesOfNat 16 (physNat b (ctxEntryAt b vf from_) 16))) key := homeByte_physPut (renewTlb b vf ident) ..

/-- The team of the issuing group has sixteen groups, so that a spawn finds no place (R52). -/
def teamFull (s : State) : Bool := s.g.who.team.isSome && decide (16 ≤ (teamMates s).length)

theorem teamFull_iff (s : State) : teamFull s = true ↔ s.g.who.team ≠ none ∧
    16 ≤ ((allCtx s).filter fun c => c.who.vf = s.g.who.vf ∧ c.who.teamId = s.g.who.teamId).length := by
  have hmates : teamMates s = (allCtx s).filter fun c => c.who.vf = s.g.who.vf ∧ c.who.teamId = s.g.who.teamId := by
    unfold teamMates
    congr 1
    funext c
    rw [Bool.eq_iff_iff]
    simp
  rw [teamFull, hmates, Bool.and_eq_true, decide_eq_true_eq, Option.isSome_iff_ne_none]

section
variable {f : FmtR} {s t : State} {os : List Opnd} (hops : takeAll [(1, f.a, 8), (2, f.b, 2)] s = .ok (os, t))
include hops

theorem spawnBody_creates {part ident : Nat} (hp : bestPart s (coreNum s.g.who.loc) = some part)
    (hi : freeIdent s s.g.who.vf = some ident) (hf : teamFull s = false) :
    spawnBody f s = .ok (putUniform (afterSpawn s t os part ident) f.d.toNat 0) := by
  unfold spawnBody
  unfold teamFull at hf
  rw [hops]
  dsimp only
  rw [hp, hi, hf]

theorem spawnBody_refuses (h : bestPart s (coreNum s.g.who.loc) = none ∨ freeIdent s s.g.who.vf = none ∨ teamFull s = true) :
    spawnBody f s = .ok (putUniform t f.d.toNat 1) := by
  unfold spawnBody
  unfold teamFull at h
  rw [hops]
  dsimp only
  split
  · next hp hi hf =>
    rw [hp, hi, hf] at h
    simp at h
  · rfl

end

/-- Settles O36: what gspawn leaves is the copy of a context-table entry and one context more, whose registers are lists of writes. -/
theorem groupSpawn : Obligations.GroupSpawn := by
  unfold Obligations.GroupSpawn
  intro f s t s' os core mates full ht hc hops
  have hbad := hc.2.1
  simp only [List.append_eq_nil_iff] at hbad
  obtain ⟨⟨⟨hcore, hd⟩, -⟩, -⟩ := hbad
  have hs : t.onAp = false := by rw [ht, closed, setWins_onAp]; exact onAp_of_coreOnly hcore
  have htaken := operandsTaken_takeAll hops
  have hs' : s'.onAp = false := htaken.onAp.trans hs
  have hwrites {e : State} {x : Word} (he : e.onAp = false) (hb : spawnBody f t = .ok (putUniform e f.d.toNat x)) :
      Claims.Writes (.gspawn f) f.nas f.d s e x :=
    writes_of_body (exec_gspawn f s) rfl hc (isK_of_kBad hd) he (ht ▸ hb)
  have hfull : full ↔ teamFull t = true := (teamFull_iff t).symm
  refine ⟨fun h => hwrites hs' (spawnBody_refuses hops ?_), fun part ident hp hi hf => ?_⟩
  · rwa [← hfull]
  · have hnot : teamFull t = false := Bool.eq_false_iff.2 fun h => hf (hfull.2 h)
    have heq := afterSpawn_eq htaken hs os part ident
    have hframe := addCtx_copyEntry_eq (spawnBase t s') t.g.who.vf t.g.who.ident ident
      (spawned t os part ident (s'.fresh + 1) (knownIds (unite s'.g.ord (active t)) (active t)))
    rw [← heq] at hframe
    refine ⟨_, spawned t os part ident (s'.fresh + 1) (knownIds (unite s'.g.ord (active t)) (active t)),
      hwrites ?_ (spawnBody_creates hops hp hi hnot), ?_, ?_, rfl, rfl, rfl, rfl, rfl, rfl, rfl, rfl, rfl, rfl,
      congrArg (Slot.mk true · (active t) .none) (ofNat_mod_setWidth _), rfl, rfl, rfl, rfl, rfl, spawned_regs ..⟩
    · rw [hframe]; exact hs'
    · rw [hframe]; rfl
    · intro key
      rw [heq]
      exact homeByte_copyEntry ..

end Sys2Proof.Machine
end

section
/-! Records that a group pushes. -/

namespace Sys2Proof.Machine

/-! ## Where a push goes on -/

theorem Accesses.pend {s t : State} (h : Accesses s t) : t.g.pend = s.g.pend := by rw [show t = _ from h]

/-- A record written for the group leaves who issues, and the cause still to be taken. -/
theorem qWrite_issuer {s : State} (hs : s.onAp = false) (h data ident issuer : Nat) (ids : List Nat) :
    (qWrite s h data ident issuer ids).onAp = s.onAp ∧ (qWrite s h data ident issuer ids).g.pend = s.g.pend := by
  have hslot := (putObject_spec hs (active s) 3 data (physKeys s (qSlot s h (qTailCount s h)) 32)).1
  have htail (t : State) (ht : Accesses s t) (x : Nat) (ks : List Nat) := (putObject_spec (ht.onAp.trans hs) (active t) 3 x ks).1
  have hboth (ks : List Nat) := hslot.trans (htail _ hslot ((qTailCount s h + 1) % 2 ^ 32) ks)
  exact ⟨(hboth _).onAp, (hboth _).pend⟩

theorem withFiled_of_pend {s t : State} (h : t.g.pend = s.g.pend) : withFiled s (.ok t) = .ok t := by
  unfold withFiled
  dsimp only
  rw [h]
  cases s.g.pend <;> rfl

/-- Nothing stops a group whose accesses have all completed from releasing. -/
theorem releaseStop_of_released {s : State} (h : Claims.Released s) : releaseStop s = none := by
  obtain ⟨hgone, hunres, hlog⟩ := h
  have hnone : (winsOf s).find? (fun w => (w.gone &&& active s) != 0) = none := by
    rw [List.find?_eq_none]
    intro w hw
    rw [hgone w hw]
    simp
  unfold releaseStop releaseAfter goneStop
  rw [hnone, hunres, hlog]
  rfl

/-- A write that has been told to arrive is on its way only if the test did not choose it. -/
theorem arriveWhere_hist {s : State} {pick : WriteRec → Bool} {w : WriteRec} (h : w ∈ (arriveWhere s pick).ms.hist) :
    w.arrived ≠ none ∨ pick w = false := by
  unfold arriveWhere at h
  dsimp only at h
  rcases List.mem_append.1 h with hold | hnew
  · have hgo := (List.mem_filter.1 hold).2
    cases ha : w.arrived with
    | some _ => exact .inl nofun
    | none =>
      rw [ha] at hgo
      right
      cases hp : pick w with
      | false => rfl
      | true => simp [hp] at hgo
  · obtain ⟨x, -, rfl⟩ := List.mem_map.1 hnew
    exact .inl nofun

/-- After the group's earlier writes have arrived, one of them that is still on its way must wait (R75, R81). -/
theorem arriveIf_hist {s : State} {p : WriteRec → Bool} {w : WriteRec} (h : w ∈ (arriveIf s p).ms.hist) (hp : p w = true) :
    w.arrived ≠ none ∨ unreadable (arriveIf s p) w = true ∨ early (arriveIf s p) w = true := by
  refine (arriveWhere_hist h).imp_right fun hnot => ?_
  have hnot' : (!unreadable (arriveIf s p) w && !early (arriveIf s p) w && p w) = false := hnot
  rw [hp] at hnot'
  revert hnot'
  cases unreadable (arriveIf s p) w <;> cases early (arriveIf s p) w <;> decide

/-- A group that releases: its lanes share what they have before them, their loads have returned and their writes arrive. -/
def releasing (s : State) : State := arriveAll (uniteActive s) (uniteActive s).g.ord (active s)

theorem landed_uniteActive {s : State} (hs : s.onAp = false) : landed (uniteActive s) (active s) =
    { s with g := { s.g with ord := unite s.g.ord (active s), wins := s.g.wins.map (Claims.land (active s)) } } := by
  have hunited : (uniteActive s).onAp = false := by rw [uniteActive_group hs]; exact hs
  rw [landed_group hunited, land_eq_claims, uniteActive_group hs]

theorem releasing_eq {s : State} (hs : s.onAp = false) : releasing s = { s with
    ms := { s.ms with hist := (releasing s).ms.hist }
    g := { s.g with ord := unite s.g.ord (active s), wins := s.g.wins.map (Claims.land (active s)) } } := by
  have h : releasing s = { landed (uniteActive s) (active s) with
    ms := { (landed (uniteActive s) (active s)).ms with hist := (releasing s).ms.hist } } := rfl
  rw [landed_uniteActive hs] at h
  exact h

theorem releasing_hist {s : State} (hs : s.onAp = false) {w : WriteRec} (h : w ∈ (releasing s).ms.hist)
    (hk : knows (releasing s).g.ord (active s) w.ev = true) :
    w.arrived ≠ none ∨ unreadable (releasing s) w = true ∨ early (releasing s) w = true := by
  refine arriveIf_hist h ?_
  rw [releasing_eq hs] at hk
  rw [uniteActive_group hs]
  exact hk

/-- What a form that pushes a record into a queue claims, of its operands' state and that of its checks. -/
def Pushed (i : Instr) (nas : Nas) (d : RegCode) (s t s' : State) (cluster data : Nat) : Prop :=
  ∀ u, pushCheck s' cluster data = .ok (none, u) → u.g.pend = t.g.pend →
    (queueOf t t.g.who.vf cluster data = none → Claims.Writes i nas d s (joinFor (qCount u (headerAt t t.g.who.vf cluster (recPrio data)) 20)
      (accOf t.g) cluster (recPrio data) (recJoin data) true 0x69 (knownIds t.g.ord (active t))) 0) ∧
    ∀ h, queueOf t t.g.who.vf cluster data = some h → qReserved t h = false → Claims.Released t →
      (qFull t h = true → Claims.Writes i nas d s u 1) ∧
      (qFull t h = false → ∃ (e e0 : State) (ids : List Nat),
        e0 = { u with
          ms := { u.ms with hist := e0.ms.hist }
          g := { u.g with ord := unite u.g.ord (active t), wins := u.g.wins.map (Claims.land (active t)) } } ∧
        (∀ w ∈ e0.ms.hist, knows e0.g.ord (active t) w.ev = true → w.arrived ≠ none ∨ unreadable e0 w = true ∨ early e0 w = true) ∧
        (∀ ev, ev ∈ ids ↔ ev ∈ knownIds e0.g.ord (active t)) ∧
        e = qWrite e0 h data t.g.who.ident (issuingCluster t.g.who.loc) ids ∧ Claims.Writes i nas d s e 0)

section
variable {s s' u : State} {d : RegCode} {cluster data : Nat} (hu : pushCheck s' cluster data = .ok (none, u))
include hu

theorem pushRecord_nowhere (hq : queueOf s s.g.who.vf cluster data = none) :
    pushRecord s s' d cluster data = .ok (putUniform (joinFor (qCount u (headerAt s s.g.who.vf cluster (recPrio data)) 20) (accOf s.g)
      cluster (recPrio data) (recJoin data) true 0x69 (knownIds s.g.ord (active s))) d.toNat 0) := by
  unfold pushRecord
  rw [hu]
  dsimp only
  rw [hq]

variable {h : Nat} (hq : queueOf s s.g.who.vf cluster data = some h) (hres : qReserved s h = false) (hrel : Claims.Released s)
include hq hres hrel

theorem pushRecord_full (hfull : qFull s h = true) : pushRecord s s' d cluster data = .ok (putUniform u d.toNat 1) := by
  unfold pushRecord
  rw [hu]
  dsimp only
  rw [hq]
  dsimp only
  rw [hres, if_neg Bool.false_ne_true, releaseStop_of_released hrel]
  dsimp only
  rw [hfull, if_pos rfl]

theorem pushRecord_queued (hact : active u = active s) (hroom : qFull s h = false) :
    pushRecord s s' d cluster data = withFiled s (.ok (putUniform (qWrite (releasing u) h data s.g.who.ident
      (issuingCluster s.g.who.loc) (knownIds (releasing u).g.ord (active s))) d.toNat 0)) := by
  unfold pushRecord
  rw [hu]
  dsimp only
  rw [hq]
  dsimp only
  rw [hres, if_neg Bool.false_ne_true, releaseStop_of_released hrel]
  dsimp only
  rw [hroom, if_neg Bool.false_ne_true, releasing, hact]

end

/-- A group's form that ends with the push of a record does what R43 says. -/
theorem pushed_of_body {i : Instr} {nas : Nas} {io : Io} {body : State → Res} {s t s' : State} {d : RegCode} {cluster data : Nat}
    (hi : exec i s = issue s nas io body) (hw : io.writes = codes d 1) (hc : Clear s nas io) (hd : isK d = true)
    (ht : t = closed s (codes d 1)) (hs : t.onAp = false) (htaken : OperandsTaken t s')
    (hbody : body t = pushRecord t s' d cluster data) : Pushed i nas d s t s' cluster data := by
  have hwrites {e : State} {x : Word} (he : e.onAp = false) (hb : pushRecord t s' d cluster data = .ok (putUniform e d.toNat x)) :
      Claims.Writes i nas d s e x := writes_of_body hi hw hc hd he (by rw [← ht, hbody, hb])
  intro u hu hpend
  have hissuer := sameIssuer_pushCheck hu
  have hu' : u.onAp = false := hissuer.onAp.trans (htaken.onAp.trans hs)
  have hact : active u = active t := hissuer.active.trans htaken.active
  refine ⟨fun hq => hwrites ?_ (pushRecord_nowhere hu hq), fun h hq hres hrel =>
    ⟨fun hfull => hwrites hu' (pushRecord_full hu hq hres hrel hfull), fun hroom => ?_⟩⟩
  · rw [(joinFor_beside ..).onAp]
    exact (memOnly_physPut ..).onAp.trans hu'
  · have heq := releasing_eq hu'
    have he0 : (releasing u).onAp = false := by rw [heq]; exact hu'
    have hpend0 : (releasing u).g.pend = t.g.pend := by rw [heq]; exact hpend
    obtain ⟨hap, hkept⟩ := qWrite_issuer he0 h data t.g.who.ident (issuingCluster t.g.who.loc) (knownIds (releasing u).g.ord (active t))
    refine ⟨_, releasing u, knownIds (releasing u).g.ord (active t), ?_, fun w hw hk => ?_, fun _ => .rfl, rfl,
      hwrites (hap.trans he0) ?_⟩
    · rw [← hact]; exact heq
    · exact releasing_hist hu' hw (by rw [hact]; exact hk)
    · rw [pushRecord_queued hu hq hres hrel hact hroom]
      obtain ⟨regs, -, hput⟩ := putUniform_k (hap.trans he0) hd 0
      refine withFiled_of_pend ?_
      rw [hput]
      exact hkept.trans hpend0

/-! ## The record -/

theorem natOfBytes_append (l r : List Byte) : natOfBytes (l ++ r) = natOfBytes l + 256 ^ l.length * natOfBytes r := by
  induction l with
  | nil => simp [natOfBytes]
  | cons b l ih =>
    simp only [List.cons_append, natOfBytes, ih, List.length_cons]
    ring

/-- Words in a row, lowest first, as one number. -/
theorem natOfBytes_words (f : Nat → Word) (n : Nat) :
    natOfBytes ((upto n).flatMap fun i => bytesOfNat 4 (f i).toNat) = ((List.range n).map fun i => (f i).toNat * 2 ^ (32 * i)).sum ∧
      ((upto n).flatMap fun i => bytesOfNat 4 (f i).toNat).length = 4 * n := by
  induction n with
  | zero => exact ⟨rfl, rfl⟩
  | succ n ih =>
    obtain ⟨hval, hlen⟩ := ih
    have hword : (f n).toNat % 256 ^ 4 = (f n).toNat := Nat.mod_eq_of_lt (f n).isLt
    have hpow : 256 ^ (4 * n) = 2 ^ (32 * n) := by rw [show 256 = 2 ^ 8 from rfl, ← pow_mul]; congr 1; omega
    simp only [upto, List.flatMap_append, List.flatMap_cons, List.flatMap_nil, List.append_nil, List.range_succ, List.map_append,
      List.map_cons, List.map_nil, List.sum_append, List.sum_singleton]
    constructor
    · rw [natOfBytes_append, hval, hlen, natOfBytes_bytesOfNat, hword, hpow, Nat.mul_comm]
    · rw [List.length_append, hlen, length_bytesOfNat]; omega

theorem recordOf_eq (s : State) (os : List Opnd) (n : Nat) :
    recordOf s os n = ((List.range 8).map fun i => (src s os n i 0).toNat * 2 ^ (32 * i)).sum :=
  (natOfBytes_words (fun i => uni s os n i) 8).1

theorem mkRecord_gang (frame join : DWord) (prio : Nat) :
    mkRecord 0 frame.toNat join.toNat prio 2 0 = 2 ^ 64 * frame.toNat + 2 ^ 128 * join.toNat + 2 ^ 192 * (prio + 8) := by
  unfold mkRecord
  rw [Nat.mod_eq_of_lt frame.isLt, Nat.mod_eq_of_lt join.isLt]
  omega

/-! ## gcpush and glaunch -/

/-- What gcpush does once it may issue. -/
def pushBody (f : FmtR) (s : State) : Res :=
  let named := f.x.getLsbD 0
  match takeAll ((1, f.a, 8) :: if named then [(2, f.b, 1)] else []) s with
  | .error e => portStop s e
  | .ok (os, s') =>
    let target := (uni s os 1 0).toNat
    if named && target / 64 != 0 then .trap (precise s 0x02)
    else pushRecord s s' f.d (if named then target else issuingCluster s.g.who.loc) (recordOf s os 0)

theorem pushBody_eq {f : FmtR} {t s' : State} {os : List Opnd}
    (hops : takeAll ((1, f.a, 8) :: if f.x.getLsbD 0 then [(2, f.b, 1)] else []) t = .ok (os, s'))
    (hcluster : f.x.getLsbD 0 = true → (if f.x.getLsbD 0 then (src t os 1 0 0).toNat else issuingCluster t.g.who.loc) < 64) :
    pushBody f t = pushRecord t s' f.d (if f.x.getLsbD 0 then (src t os 1 0 0).toNat else issuingCluster t.g.who.loc)
      ((List.range 8).map fun i => (src t os 0 i 0).toNat * 2 ^ (32 * i)).sum := by
  have hlow : (f.x.getLsbD 0 && (uni t os 1 0).toNat / 64 != 0) = false := by
    cases hnamed : f.x.getLsbD 0 with
    | false => rfl
    | true =>
      have hlt := hcluster hnamed
      rw [hnamed, if_pos rfl] at hlt
      simp [uni, Nat.div_eq_of_lt hlt]
  unfold pushBody
  dsimp only
  rw [hops]
  dsimp only
  rw [hlow, if_neg Bool.false_ne_true, recordOf_eq]
  rfl

/-- What glaunch does once it may issue. -/
def launchBody (f : FmtR) (s : State) : Res :=
  match takeAll [(1, f.a, 2), (2, f.b, 2)] s with
  | .error e => portStop s e
  | .ok (os, s') =>
    pushRecord s s' f.d (issuingCluster s.g.who.loc) (mkRecord 0 (uniPair s os 0).toNat (uniPair s os 1).toNat (f.x.toNat % 4) 2 0)

theorem launchBody_eq {f : FmtR} {t s' : State} {os : List Opnd} (hops : takeAll [(1, f.a, 2), (2, f.b, 2)] t = .ok (os, s')) :
    launchBody f t = pushRecord t s' f.d (issuingCluster t.g.who.loc) (2 ^ 64 * (pair (src t os 0 1 0) (src t os 0 0 0)).toNat +
      2 ^ 128 * (pair (src t os 1 1 0) (src t os 1 0 0)).toNat + 2 ^ 192 * (f.x.toNat % 4 + 8)) := by
  unfold launchBody
  rw [hops]
  dsimp only
  rw [mkRecord_gang]
  rfl

theorem onAp_of_closed {s t : State} {ws : List Nat} (ht : t = closed s ws) : t.onAp = s.onAp := by
  rw [ht, closed, setWins_onAp]

/-- Settles O38: both forms come to one push, which writes into its queue after what the group has done before it. -/
theorem recordPushes : Obligations.RecordPushes := by
  unfold Obligations.RecordPushes
  constructor
  · intro f s t s' os named data cluster ht hs hc hops hcluster
    have hbad := hc.2.1
    simp only [List.append_eq_nil_iff] at hbad
    obtain ⟨⟨⟨-, hd⟩, -⟩, -⟩ := hbad
    refine pushed_of_body (body := pushBody f) rfl rfl hc (isK_of_kBad hd) ht ((onAp_of_closed ht).trans hs)
      (operandsTaken_takeAll hops) ?_
    exact pushBody_eq hops hcluster
  · intro f s t s' os frame join ht hc hops
    have hbad := hc.2.1
    simp only [List.append_eq_nil_iff] at hbad
    obtain ⟨⟨⟨hcore, hd⟩, -⟩, -⟩ := hbad
    exact pushed_of_body (body := launchBody f) rfl rfl hc (isK_of_kBad hd) ht ((onAp_of_closed ht).trans (onAp_of_noAp hcore))
      (operandsTaken_takeAll hops) (launchBody_eq hops)

end Sys2Proof.Machine
end

section
/-! Group queues. -/

namespace Sys2Proof.Machine

/-! ## RMWs at vault objects -/

/-- `t` is what steps of the group on memory leave of `s`, whatever they do to its order and its windows; the side log, the translations
held and the counts of sectors are as they were. -/
def Stepped (s t : State) : Prop :=
  t = { s with
    ms := { t.ms with log := s.ms.log, tlb := s.ms.tlb, dirty := s.ms.dirty, turn := s.ms.turn }, fresh := t.fresh
    g := { s.g with ord := t.g.ord, wins := t.g.wins } }

theorem Stepped.trans {s t u : State} (h : Stepped s t) (k : Stepped t u) : Stepped s u := by
  unfold Stepped at *
  rw [h] at k
  exact k

theorem Stepped.onAp {s t : State} (h : Stepped s t) : t.onAp = s.onAp := by rw [show t = _ from h]

theorem BytesOnly.stepped {s t : State} (h : BytesOnly s t) : Stepped s t := by rw [show t = _ from h]; rfl

theorem bytesOnly_putBytes (s : State) (p : Party) (ev : Nat) (w : Option Nat) (b : Bool) (scope : Nat) (rels : List Rel) (ks : List Nat)
    (bs : List Byte) : BytesOnly s (putBytes s p ev w b scope rels ks bs) := BytesOnly.foldl _ (fun _ _ => BytesOnly.putRec ..) _ _

theorem stepped_learnFor {s : State} (hs : s.onAp = false) (ids : List Nat) (m : Mask) : Stepped s (learnFor s ids m) := by
  rw [learnFor_group hs]; rfl

theorem stepped_landed {s : State} (hs : s.onAp = false) (m : Mask) : Stepped s (landed s m) := by
  rw [landed_group hs]; rfl

/-- `t` is `s` after RMWs of its lanes `m` that write `ws`: their loads have returned. -/
def Puts (m : Mask) (ws : List (Nat × Byte)) (s t : State) : Prop :=
  Stepped s t ∧ t.g.wins = s.g.wins.map (Claims.land m) ∧ ∀ k, homeByte t k = Claims.writeAll (homeByte s) ws k

theorem map_land_land (m : Mask) (ws : List Window) : (ws.map (Claims.land m)).map (Claims.land m) = ws.map (Claims.land m) := by
  rw [List.map_map, ← land_eq_claims]
  exact List.map_congr_left fun w _ => land_land m w

theorem writeAll_append (f : Nat → Byte) (l r : List (Nat × Byte)) :
    Claims.writeAll f (l ++ r) = Claims.writeAll (Claims.writeAll f l) r := List.foldl_append

theorem Puts.trans {m : Mask} {l r : List (Nat × Byte)} {s t u : State} (h : Puts m l s t) (k : Puts m r t u) : Puts m (l ++ r) s u := by
  obtain ⟨hframe, hwins, hbyte⟩ := h
  obtain ⟨kframe, kwins, kbyte⟩ := k
  refine ⟨hframe.trans kframe, by rw [kwins, hwins, map_land_land], fun a => ?_⟩
  rw [kbyte, writeAll_append, funext hbyte]

/-- An RMW writes from a state in which the loads of its lanes have returned and no byte has changed. -/
theorem putObject_from {s : State} (hs : s.onAp = false) (m : Mask) (scope x : Nat) (release : Bool) (ks : List Nat) :
    ∃ t p ev rels, putObject s m scope release ks x =
        learnFor (noteStrong (strongPut t p ev scope rels ks (bytesOfNat ks.length x)) ks) [ev] m ∧
      Stepped s t ∧ t.g.wins = s.g.wins.map (Claims.land m) ∧ t.ms.mem = s.ms.mem := by
  have hmet : Stepped s (performAt (landed s m) m ks) := (stepped_landed hs m).trans rfl
  have hap : (performAt (landed s m) m ks).onAp = false := hmet.onAp.trans hs
  have hwins : (landed s m).g.wins = s.g.wins.map (Claims.land m) := by rw [landed_wins hs, land_eq_claims]
  refine ⟨_, _, _, _, rfl, ?_⟩
  cases release with
  | false => exact ⟨hmet.trans rfl, hwins, landed_mem hs m⟩
  | true =>
    refine ⟨(hmet.trans (stepped_landed hap m)).trans rfl, ?_, (landed_mem hap m).trans (landed_mem hs m)⟩
    calc (landed (performAt (landed s m) m ks) m).g.wins = (landed s m).g.wins.map (Window.land m) := landed_wins hap m
      _ = s.g.wins.map (Claims.land m) := by rw [hwins, land_eq_claims, map_land_land]

theorem putObject_puts {s : State} (hs : s.onAp = false) (m : Mask) (scope x : Nat) (release : Bool) (ks : List Nat) :
    Puts m (ks.zip (bytesOfNat ks.length x)) s (putObject s m scope release ks x) := by
  obtain ⟨t, p, ev, rels, he, hframe, hwins, hmem⟩ := putObject_from hs m scope x release ks
  have hput : Stepped s (noteStrong (strongPut t p ev scope rels ks (bytesOfNat ks.length x)) ks) :=
    (hframe.trans (bytesOnly_putBytes ..).stepped).trans rfl
  have hap := hput.onAp.trans hs
  rw [he]
  refine ⟨hput.trans (stepped_learnFor hap _ _), ?_, fun k => ?_⟩
  · rw [learnFor_wins hap]
    exact (putBytes_wins ..).trans hwins
  · have hk : homeByte t = homeByte s := by unfold homeByte; rw [hmem]
    rw [writeAll_eq, homeByte, learnFor_mem hap, ← hk]
    exact homeByte_putBytes ..

theorem vaultKeys_eq (die a n : Nat) : vaultKeys die a n = (List.range n).map fun i => vaultKey die (a + i) := by
  rw [vaultKeys, upto_eq_range]

theorem put_eq (die a n x : Nat) : (vaultKeys die a n).zip (bytesOfNat (vaultKeys die a n).length x) = Claims.put die a n x := by
  rw [Claims.put, vaultKeys_eq, List.length_map, List.length_range]

theorem putVault_puts {s : State} (hs : s.onAp = false) (m : Mask) (scope die a n x : Nat) (release : Bool) :
    Puts m (Claims.put die a n x) s (putObject s m scope release (vaultKeys die a n) x) := by
  rw [← put_eq]
  exact putObject_puts hs ..

/-! ## What a step meets -/

/-- What a step meets at a byte all of whose writes have arrived does not depend on who acts. -/
theorem metByte_of_arrived {s t : State} (hms : t.ms = s.ms) {key : Nat} (hdef : key ∉ s.ms.undef)
    (harr : ∀ w ∈ recsOf s key, w.arrived.isSome = true) (o o' : Order) (m m' : Mask) : metByte t o m key = metByte s o' m' key := by
  have hrecs : recsOf t key = recsOf s key := by unfold recsOf; rw [hms]
  have hhome (u : State) (hu : recsOf u key = recsOf s key) (o : Order) (m : Mask) :
      homeRecs u o m key = inHomeOrder (recsOf s key) := by
    unfold homeRecs
    rw [hu, List.filter_eq_self.2 fun w hw => ?_]
    obtain ⟨n, hn⟩ := Option.isSome_iff_exists.1 (harr w hw)
    simp [away, hn]
  have hnot : s.ms.undef.contains key = false := by simpa using hdef
  unfold metByte
  rw [hms, hnot, if_neg Bool.false_ne_true, if_neg Bool.false_ne_true, hhome t hrecs, hhome s rfl, homeByte, hms]
  rfl

theorem vaultNat_of_arrived {s t : State} (hms : t.ms = s.ms) {die a n : Nat} (h : Claims.Arrived s (vaultKeys die a n)) :
    vaultNat t die a n = vaultNat s die a n := by
  unfold vaultNat stepNat
  refine congrArg natOfBytes (List.map_congr_left fun key hkey => ?_)
  obtain ⟨hdef, harr⟩ := h key hkey
  exact metByte_of_arrived hms hdef harr ..

theorem Arrived.vaultKeys {s : State} {die base len a n : Nat}
    (h : Claims.Arrived s ((List.range len).map fun i => vaultKey die (base + i))) (hlow : base ≤ a) (hhigh : a + n ≤ base + len) :
    Claims.Arrived s (Machine.vaultKeys die a n) := by
  intro key hkey
  rw [vaultKeys_eq] at hkey
  obtain ⟨i, hi, rfl⟩ := List.mem_map.1 hkey
  rw [List.mem_range] at hi
  refine h _ (List.mem_map.2 ⟨a + i - base, List.mem_range.2 (by omega), ?_⟩)
  rw [show base + (a + i - base) = a + i by omega]

/-! ## The steps of a queue -/

/-- The bytes that a push writes. -/
def pushWrites (s : State) (q : QHead) (p data : Nat) : List (Nat × Byte) :=
  Claims.put q.die (q.allowAt p) 2 (vaultNat s q.die (q.allowAt p) 2 - 1) ++ Claims.put q.die (q.slotAt q.tail) q.size data ++
    Claims.put q.die (q.tagAt q.tail) 1 p ++
    Claims.put q.die (q.at_ + 4) 4 (q.head + 256 * ((q.tail + 1) % (q.ns + 1)) + 65536 * (q.occ + 1))

theorem qPush_puts {s : State} (hs : s.onAp = false) (q : QHead) (p scope data : Nat) :
    Puts (active s) (pushWrites s q p data) s (qPush s q p scope data) := by
  have hstep {m : Mask} {ws : List (Nat × Byte)} {t : State} (h : Puts m ws s t) (a n x : Nat) (release : Bool) :=
    h.trans (putVault_puts (h.1.onAp.trans hs) m scope q.die a n x release)
  exact hstep (hstep (hstep (putVault_puts hs (active s) scope q.die (q.allowAt p) 2 _ false) _ _ _ true) _ _ _ false) _ _ _ false

/-- The bytes that a pop writes to the queue. -/
def popWrites (s : State) (q : QHead) : List (Nat × Byte) :=
  let tag := vaultNat s q.die (q.tagAt q.head) 1 % 8
  Claims.put q.die (q.allowAt tag) 2 ((vaultNat s q.die (q.allowAt tag) 2 + 1) % 65536) ++
    Claims.put q.die (q.at_ + 4) 4 ((q.head + 1) % (q.ns + 1) + 256 * q.tail + 65536 * (q.occ - 1))

/-- The slots, tags and allowances of a queue have settled. -/
def Settled (s : State) (q : QHead) : Prop :=
  Claims.Arrived s ((List.range (64 + (q.ns + 64) / 64 * 64 + q.size * 256)).map fun i => vaultKey q.die (q.at_ + i))

theorem Settled.of_ms {s t : State} {q : QHead} (h : Settled s q) (hms : t.ms = s.ms) : Settled t q := by
  unfold Settled Claims.Arrived recsOf
  rw [hms]
  exact h

section
variable {s t : State} {q : QHead} (hms : t.ms = s.ms) (h : Settled s q)
include hms h

theorem vaultNat_slot {i : Nat} (hi : i < 256) : vaultNat t q.die (q.slotAt i) q.size = vaultNat s q.die (q.slotAt i) q.size := by
  have hle : q.size * i + q.size ≤ q.size * 256 := by rw [← Nat.mul_succ]; exact Nat.mul_le_mul_left _ hi
  exact vaultNat_of_arrived hms (Arrived.vaultKeys h (by unfold QHead.slotAt; omega) (by unfold QHead.slotAt; omega))

theorem vaultNat_tag {i : Nat} (hi : i < 256) (hsize : 8 ≤ q.size) :
    vaultNat t q.die (q.tagAt i) 1 = vaultNat s q.die (q.tagAt i) 1 :=
  vaultNat_of_arrived hms (Arrived.vaultKeys h (by unfold QHead.tagAt; omega) (by unfold QHead.tagAt; omega))

theorem vaultNat_allow {p : Nat} (hp : p < 8) : vaultNat t q.die (q.allowAt p) 2 = vaultNat s q.die (q.allowAt p) 2 :=
  vaultNat_of_arrived hms (Arrived.vaultKeys h (by unfold QHead.allowAt; omega) (by unfold QHead.allowAt; omega))

theorem pushWrites_of_settled {p : Nat} (hp : p < 8) (data : Nat) : pushWrites t q p data = pushWrites s q p data := by
  unfold pushWrites
  rw [vaultNat_allow hms h hp]

theorem popWrites_of_settled (hhead : q.head < 256) (hsize : 8 ≤ q.size) : popWrites t q = popWrites s q := by
  unfold popWrites
  dsimp only
  rw [vaultNat_tag hms h hhead hsize, vaultNat_allow hms h (Nat.mod_lt _ (by decide))]

end

theorem acquireFrom_ms {s : State} (hs : s.onAp = false) (scope key : Nat) : (acquireFrom s scope key).ms = s.ms := by
  unfold acquireFrom
  rw [learnFor_group hs]

theorem qPop_puts {s : State} (hs : s.onAp = false) {q : QHead} (hq : Settled s q) (hhead : q.head < 256) (hsize : 8 ≤ q.size) (scope : Nat) :
    Puts (active s) (popWrites s q) s (qPop s q scope).2 := by
  have hacq : Stepped s (acquireFrom s scope (vaultKey q.die (q.slotAt q.head))) := stepped_learnFor hs _ _
  have hap := hacq.onAp.trans hs
  have hms := acquireFrom_ms hs scope (vaultKey q.die (q.slotAt q.head))
  have hwins : (acquireFrom s scope (vaultKey q.die (q.slotAt q.head))).g.wins = s.g.wins := learnFor_wins hs _ _
  have hone (a n x : Nat) := putVault_puts hap (active s) scope q.die a n x false
  have htwo (a n x : Nat) (b k y : Nat) := (hone a n x).trans (putVault_puts ((hone a n x).1.onAp.trans hap) (active s) scope q.die b k y false)
  have hpop : Puts (active s) (popWrites (acquireFrom s scope (vaultKey q.die (q.slotAt q.head))) q)
      (acquireFrom s scope (vaultKey q.die (q.slotAt q.head))) (qPop s q scope).2 := htwo ..
  rw [popWrites_of_settled hms hq hhead hsize] at hpop
  obtain ⟨hframe, hlanded, hbyte⟩ := hpop
  refine ⟨hacq.trans hframe, by rw [hlanded, hwins], fun k => ?_⟩
  rw [hbyte]
  unfold homeByte
  rw [hms]

theorem qHead_head_lt (s : State) (die a : Nat) : (qHead s die a).head < 256 := Nat.mod_lt _ (by decide)

theorem le_qHead_size (s : State) (die a : Nat) : 8 ≤ (qHead s die a).size := Nat.le_mul_of_pos_right 8 (by positivity)

/-! ## Before and after a step -/

/-- The group is about to take a step at a queue: its lanes share what they have before them, it waits no longer, and the step is noted. -/
def stepping (t s' : State) (key : Nat) : State :=
  noteAudit (leaveWaiters (uniteActive s') t.g.iss) ⟨key, t.g.who.vf, false, 0⟩

theorem auditOne_eq (s : State) (x : Audit) : auditOne s x = { s with wk := { s.wk with marked := (auditOne s x).wk.marked } } := by
  unfold auditOne
  split <;> rfl

theorem noteAudit_eq (s : State) (x : Audit) :
    noteAudit s x = { s with wk := { s.wk with audits := (noteAudit s x).wk.audits, marked := (noteAudit s x).wk.marked } } := by
  unfold noteAudit
  dsimp only
  split
  · rw [auditOne_eq]; rfl
  · rfl

theorem stepping_eq {t s' : State} (hs : s'.onAp = false) (htaken : OperandsTaken t s') (key : Nat) :
    stepping t s' key = { s' with
      wk := { s'.wk with
        audits := (stepping t s' key).wk.audits, marked := (stepping t s' key).wk.marked
        waiters := s'.wk.waiters.filter fun x => ¬(x.vf = t.g.who.vf ∧ x.ident = t.g.who.ident ∧ x.other = t.g.iss) }
      g := { s'.g with ord := unite s'.g.ord (active s') } } := by
  have hwho : s'.g.who = t.g.who := by rw [show s' = _ from htaken]
  have hleave : leaveWaiters (uniteActive s') t.g.iss = { s' with
      wk := { s'.wk with
        waiters := s'.wk.waiters.filter fun x => ¬(x.vf = t.g.who.vf ∧ x.ident = t.g.who.ident ∧ x.other = t.g.iss) }
      g := { s'.g with ord := unite s'.g.ord (active s') } } := by
    have hkeep : (fun x : Waiter => !(x.vf == s'.g.who.vf && x.ident == s'.g.who.ident && x.other == t.g.iss)) =
        fun x => decide ¬(x.vf = t.g.who.vf ∧ x.ident = t.g.who.ident ∧ x.other = t.g.iss) := by
      funext x
      rw [hwho, Bool.eq_iff_iff]
      simp [or_assoc]
    rw [uniteActive_group hs, leaveWaiters]
    dsimp only
    rw [hkeep]
  have h := noteAudit_eq (leaveWaiters (uniteActive s') t.g.iss) ⟨key, t.g.who.vf, false, 0⟩
  change stepping t s' key = { leaveWaiters (uniteActive s') t.g.iss with wk := { (leaveWaiters (uniteActive s') t.g.iss).wk with
    audits := (stepping t s' key).wk.audits, marked := (stepping t s' key).wk.marked } } at h
  rw [hleave] at h
  exact h

theorem qTryMask_spec (form : QForm) (acted : Bool) (s : State) : RegsOnly s (qTryMask form acted s) ∧
    if form.try_ = true then MaskWritten s.g.regs (qTryMask form acted s).g.regs 7 (if acted then 0xFFFFFFFF else 0)
    else (qTryMask form acted s).g.regs = s.g.regs := by
  unfold qTryMask
  split
  · obtain ⟨hwritten, hregs⟩ := putMask_get s 7 (if acted then 0xFFFFFFFF else 0)
    exact ⟨hregs, hwritten⟩
  · exact ⟨rfl, rfl⟩

theorem uniWindow_eq {e : State} (he : e.onAp = false) (t : State) (la : BitVec 4) (regs keys : List Nat) :
    uniWindow t e la regs keys = { e with g := { e.g with
      wins := if regs = [] then e.g.wins else e.g.wins ++ [Claims.window t e la regs keys] } } := by
  cases regs with
  | nil => rfl
  | cons c regs =>
    unfold uniWindow openWindow openLoad setWins winsOf
    rw [he]
    rfl

theorem regAt_group {s : State} (hs : s.onAp = false) (key : Nat) : regAt s key = storeGet 0 s.g.regs key := by
  unfold regAt
  rw [hs]

section
variable {t s' v w : State} {key : Nat} {regs keys want : List Nat} (hs : t.onAp = false) (htaken : OperandsTaken t s')
  (hframe : Stepped (stepping t s' key) v) (hwins : v.g.wins = s'.g.wins.map (Claims.land (active t))) (hregs : RegsOnly v w)
include hs htaken hframe hwins hregs

/-- What a queue step leaves beside the bytes and registers that it writes. -/
theorem acted_frame (la : BitVec 4) (hkeys : ∀ k ∈ keys, k ∈ want) :
    let e := uniWindow t w la regs keys
    ∃ wins, e = { s' with
      ms := { e.ms with log := s'.ms.log, tlb := s'.ms.tlb, dirty := s'.ms.dirty, turn := s'.ms.turn }, fresh := e.fresh
      wk := { s'.wk with
        audits := e.wk.audits, marked := e.wk.marked
        waiters := s'.wk.waiters.filter fun x => ¬(x.vf = t.g.who.vf ∧ x.ident = t.g.who.ident ∧ x.other = t.g.iss) }
      g := { s'.g with regs := w.g.regs, ord := e.g.ord, wins := wins } } ∧
      (regs = [] → wins = s'.g.wins.map (Claims.land (active t))) ∧
      (regs ≠ [] → ∃ old, wins = s'.g.wins.map (Claims.land (active t)) ++
          [⟨la.toNat + 1, curPc t, regs, old, 0, 0, [], t.g.iss, active t, e.fresh⟩] ∧
        ∀ k ∈ old, k.1 ∈ want ∧ k.2 = storeGet 0 t.g.regs k.1) := by
  intro e
  have hs' := htaken.onAp.trans hs
  have hu := stepping_eq hs' htaken key
  have hv : v.onAp = false := by rw [hframe.onAp, hu]; exact hs'
  have he : e = { w with g := { w.g with wins := if regs = [] then w.g.wins else w.g.wins ++ [Claims.window t w la regs keys] } } :=
    uniWindow_eq (hregs.onAp.trans hv) t la regs keys
  have hww : w.g.wins = s'.g.wins.map (Claims.land (active t)) := by rw [← hwins, show w = _ from hregs]
  refine ⟨e.g.wins, ?_, fun hnil => ?_, fun hcons => ⟨keys.map fun k => (k, regAt t k), ?_, fun k hk => ?_⟩⟩
  · rw [he, show w = _ from hregs, show v = _ from hframe, hu]
  · rw [he, ← hww]
    exact if_pos hnil
  · rw [he, ← hww]
    exact if_neg hcons
  · obtain ⟨a, ha, rfl⟩ := List.mem_map.1 hk
    exact ⟨hkeys a ha, regAt_group hs a⟩

end

/-! ## What a queue form comes to -/

/-- The data of a push. -/
def pushedData (f : FmtE) (t s' : State) (os : List Opnd) (addr : Nat) : Nat :=
  let q := qHead t t.g.who.loc.die (addr / 8 * 8)
  let u := stepping t s' (vaultKey t.g.who.loc.die (addr / 8 * 8))
  if f.c.getLsbD 4 then
    natOfBytes ((vaultKeys t.g.who.loc.die (uni t os 0 0).toNat q.size).map (plainByte u u.g.ord (active t) (agentOf t.g) 0))
  else natOfBytes ((upto (q.size / 4)).flatMap fun i => bytesOfNat 4 (uni t os 0 i).toNat)

/-- The write of a pop's data to memory. -/
def popToMemory (t u : State) (mem size data : Nat) : State :=
  let (ev, u) := takeFresh u
  learnFor (quieten (plainPut u (partyFor u (active t)) ev (vaultKeys t.g.who.loc.die mem size) (bytesOfNat size data)) ev
    (quietLanes t (active t))) [ev] (active t)

/-- What a pop takes, and the state after. -/
def popped (f : FmtE) (t s' : State) (addr : Nat) : Nat × State :=
  qPop (stepping t s' (vaultKey t.g.who.loc.die (addr / 8 * 8))) (qHead t t.g.who.loc.die (addr / 8 * 8)) (f.c &&& 7).toNat

/-- The effect of a queue form whose turn it is. -/
def queueStep (form : QForm) (f : FmtE) (t s' : State) (os : List Opnd) (addr : Nat) : State :=
  let q := qHead t t.g.who.loc.die (addr / 8 * 8)
  let u := stepping t s' (vaultKey t.g.who.loc.die (addr / 8 * 8))
  let scope := (f.c &&& 7).toNat
  if form.push then
    uniWindow t (qTryMask form true (qPush u q (addr % 8) scope (pushedData f t s' os addr))) f.la (if form.try_ then [71] else []) [mKey 7]
  else
    let r := popped f t s' addr
    let v := if f.c.getLsbD 4 then popToMemory t r.2 (uni t os 0 0).toNat q.size r.1
      else putUniforms r.2 f.d.toNat (natWords (q.size / 4) r.1)
    let regs := if f.c.getLsbD 4 then [] else codes f.d (q.size / 4)
    uniWindow t (qTryMask form true v) f.la (regs ++ if form.try_ then [71] else [])
      ((if f.c.getLsbD 4 then [] else destKeys t f.d (q.size / 4)) ++ if form.try_ then [mKey 7] else [])

/-- The effect of a queue form that would wait. -/
def queueStuck (form : QForm) (f : FmtE) (t : State) (addr : Nat) : Res :=
  if form.try_ then .ok (uniWindow t (qTryMask form false t) f.la [71] [mKey 7])
  else .wait (.queue form.push f) (joinWaiters t ⟨vaultKey t.g.who.loc.die (addr / 8 * 8), t.g.who.vf, t.g.who.ident, t.g.iss, form.push,
    addr % 8, (qHead t t.g.who.loc.die (addr / 8 * 8)).size⟩)

theorem goneStop_none {s : State} (h : ∀ w ∈ winsOf s, w.gone &&& active s = 0) : goneStop s (active s) = none := by
  unfold goneStop
  rw [List.find?_eq_none.2 fun w hw => by rw [h w hw]; simp]
  rfl

section
variable {form : QForm} {f : FmtE} {t s' : State} {os : List Opnd} {addr : Nat}
  (hops : takeAll [(0, f.d, if form.push || f.c.getLsbD 4 then qRegs f (qHead t t.g.who.loc.die (addr / 8 * 8)) else 0), (1, f.a, 1)] t =
    .ok (os, s'))
  (haddr : qAddr form f t = .ok addr) (hok : Claims.QueueOk t f form.push form.try_ addr (src t os 0 0 0).toNat)
include hok

/-- An operation that passes its checks raises no cause of its operands. -/
theorem queueOk_causes : firstOf [(f.c.getLsbD 4 && ((uni t os 0 0).toNat % 8 != 0 || (uni t os 0 0).toNat / 2 ^ 29 != 0), 0x25),
    (bits addr 5 3 != 0 || (if form.push then (qHead t t.g.who.loc.die (addr / 8 * 8)).pushBad t (addr % 8)
      else addr % 8 != 0 || (qHead t t.g.who.loc.die (addr / 8 * 8)).bad t), 0x63),
    (lostPermit t (vaultKey t.g.who.loc.die (addr / 8 * 8)) false, 0x61),
    (!form.try_ && (t.g.who.recClass || t.g.who.origin == .record || t.g.who.origin == .graph), 0x64)] = none := by
  obtain ⟨-, -, -, -, hmem, hbits, hpop, hbad, hpush, hlost, -, -, -, hblock⟩ := hok
  have h1 : (f.c.getLsbD 4 && ((uni t os 0 0).toNat % 8 != 0 || (uni t os 0 0).toNat / 2 ^ 29 != 0)) = false := by
    cases hin : f.c.getLsbD 4 with
    | false => rfl
    | true =>
      obtain ⟨hmod, hlt⟩ := hmem hin
      simpa [uni, hmod] using hlt
  have h2 : (bits addr 5 3 != 0 || (if form.push then (qHead t t.g.who.loc.die (addr / 8 * 8)).pushBad t (addr % 8)
      else addr % 8 != 0 || (qHead t t.g.who.loc.die (addr / 8 * 8)).bad t)) = false := by
    cases hp : form.push with
    | false => simp [hbits, hpop hp, hbad]
    | true =>
      obtain ⟨hperm, hprod, -⟩ := hpush hp
      simp [hbits, QHead.pushBad, hbad, hperm, hprod]
  have h4 : (!form.try_ && (t.g.who.recClass || t.g.who.origin == .record || t.g.who.origin == .graph)) = false := by
    cases ht : form.try_ with
    | true => rfl
    | false =>
      obtain ⟨hrec, hno, hgraph⟩ := hblock ht
      simp [hrec, hno, hgraph]
  rw [h1, h2, hlost, h4]
  rfl

/-- Nothing older stops it. -/
theorem queueOk_stops : (if form.push then releaseStop t else (goneStop t (active t)).map .stop) = none := by
  obtain ⟨-, -, -, -, -, -, -, -, hpush, -, hgone, -⟩ := hok
  cases hp : form.push with
  | false => rw [if_neg Bool.false_ne_true, goneStop_none hgone]; rfl
  | true =>
    obtain ⟨-, -, hgone, hunres, hlog⟩ := hpush hp
    rw [if_pos rfl, releaseStop, releaseAfter, goneStop_none hgone, hunres, hlog]
    rfl

theorem queueOk_mixed : qMixed t (qHead t t.g.who.loc.die (addr / 8 * 8)) form.push (addr % 8) = false := by
  obtain ⟨-, -, -, -, -, -, -, -, -, -, -, -, hmsz, -⟩ := hok
  have hnone (ks : List Nat) : mixedSize t ks = false := by
    unfold mixedSize mixedFor mszOf
    rw [hmsz]
    rfl
  unfold qMixed
  simp [hnone]

include hops haddr

/-- An operation that passes its checks waits behind another, or has nothing to take yet, or takes its step. -/
theorem queueBody_eq : queueBody form f t =
    if qWaits t (vaultKey t.g.who.loc.die (addr / 8 * 8)) t.g.iss &&
        qBehind t (vaultKey t.g.who.loc.die (addr / 8 * 8)) form.push t.g.iss then .wait (.queue form.push f) t
    else if qBlocked t (qHead t t.g.who.loc.die (addr / 8 * 8)) form.push (addr % 8) ||
        qBehind t (vaultKey t.g.who.loc.die (addr / 8 * 8)) form.push t.g.iss then queueStuck form f t addr
    else .ok (queueStep form f t s' os addr) := by
  have hcauses := queueOk_causes hok
  have hstops := queueOk_stops hok
  have hmixed := queueOk_mixed hok
  obtain ⟨hsize, hdata, hscope, hlow, -⟩ := hok
  have hhigh : (addr / 2 ^ 29 != 0) = false := by simpa using hlow
  unfold queueBody
  rw [haddr]
  dsimp only
  rw [hsize, hdata, hscope, hhigh, if_neg Bool.false_ne_true, if_neg Bool.false_ne_true, if_neg Bool.false_ne_true,
    if_neg Bool.false_ne_true]
  refine if_congr .rfl rfl ?_
  rw [qReads, hops]
  dsimp only
  rw [hcauses]
  dsimp only
  rw [hstops]
  dsimp only
  refine if_congr .rfl rfl ?_
  rw [hmixed, if_neg Bool.false_ne_true]
  unfold queueStep
  cases form.push <;> rfl

end

/-! ## The effect of a step -/

theorem homeByte_uniWindow (t e : State) (la : BitVec 4) (regs keys : List Nat) : homeByte (uniWindow t e la regs keys) = homeByte e := by
  unfold uniWindow openWindow openLoad setWins homeByte
  split
  · rfl
  · split <;> rfl

theorem RegsOnly.homeByte {s t : State} (h : RegsOnly s t) : homeByte t = homeByte s := by
  unfold Machine.homeByte
  rw [show t = _ from h]

theorem homeByte_qTryMask (form : QForm) (acted : Bool) (s : State) : homeByte (qTryMask form acted s) = homeByte s :=
  (qTryMask_spec form acted s).1.homeByte

section
variable {t s' : State} (hs : s'.onAp = false) (htaken : OperandsTaken t s') (key : Nat)
include hs htaken

theorem stepping_onAp : (stepping t s' key).onAp = false := by rw [stepping_eq hs htaken key]; exact hs

theorem stepping_active : active (stepping t s' key) = active t := by
  rw [← htaken.active, stepping_eq hs htaken key]; rfl

theorem stepping_ms : (stepping t s' key).ms = t.ms := by
  rw [stepping_eq hs htaken key, show s' = _ from htaken]

theorem stepping_homeByte : homeByte (stepping t s' key) = homeByte s' := by
  rw [stepping_eq hs htaken key]; rfl

theorem stepping_wins : (stepping t s' key).g.wins = s'.g.wins := by rw [stepping_eq hs htaken key]

theorem stepping_regs : (stepping t s' key).g.regs = s'.g.regs := by rw [stepping_eq hs htaken key]

theorem pushedData_eq (f : FmtE) (os : List Opnd) (addr : Nat) : pushedData f t s' os addr =
    if f.c.getLsbD 4 then natOfBytes ((List.range (qHead t t.g.who.loc.die (addr / 8 * 8)).size).map fun i =>
      plainByte (uniteActive s') (uniteActive s').g.ord (active t) (agentOf t.g) 0 (vaultKey t.g.who.loc.die ((src t os 0 0 0).toNat + i)))
    else natOfBytes ((List.range ((qHead t t.g.who.loc.die (addr / 8 * 8)).size / 4)).flatMap fun i =>
      bytesOfNat 4 (src t os 0 i 0).toNat) := by
  unfold pushedData
  dsimp only
  rw [vaultKeys_eq, List.map_map, upto_eq_range, stepping_eq hs htaken, uniteActive_group hs]
  rfl

end

theorem natWords_eq (n x : Nat) : natWords n x = Claims.words n x := rfl

theorem length_words (n x : Nat) : (Claims.words n x).length = n := by
  rw [Claims.words, upto_eq_range, List.length_map, List.length_range]

theorem stepped_quieten (s : State) (ev : Nat) (m : Mask) : Stepped s (quieten s ev m) := by
  unfold quieten
  split <;> rfl

theorem quieten_mem (s : State) (ev : Nat) (m : Mask) : (quieten s ev m).ms.mem = s.ms.mem := by
  unfold quieten
  split <;> rfl

theorem quieten_wins (s : State) (ev : Nat) (m : Mask) : (quieten s ev m).g.wins = s.g.wins := by
  unfold quieten
  split <;> rfl

theorem popToMemory_from (t u : State) (mem size data : Nat) : ∃ p ev m, popToMemory t u mem size data =
    learnFor (quieten (putBytes (takeFresh u).2 p ev none false 7 [] (vaultKeys t.g.who.loc.die mem size) (bytesOfNat size data)) ev m)
      [ev] (active t) := ⟨_, _, _, rfl⟩

theorem popToMemory_spec {u : State} (hu : u.onAp = false) (t : State) (mem size data : Nat) :
    Stepped u (popToMemory t u mem size data) ∧ (popToMemory t u mem size data).g.wins = u.g.wins ∧
      ∀ k, homeByte (popToMemory t u mem size data) k = Claims.writeAll (homeByte u) (Claims.put t.g.who.loc.die mem size data) k := by
  obtain ⟨p, ev, m, he⟩ := popToMemory_from t u mem size data
  have hfresh : Stepped u (takeFresh u).2 := rfl
  have hput := (hfresh.trans (bytesOnly_putBytes _ p ev none false 7 [] (vaultKeys t.g.who.loc.die mem size) (bytesOfNat size data)).stepped).trans
    (stepped_quieten _ ev m)
  have hap := hput.onAp.trans hu
  rw [he]
  refine ⟨hput.trans (stepped_learnFor hap _ _), ?_, fun k => ?_⟩
  · rw [learnFor_wins hap, quieten_wins]
    exact putBytes_wins ..
  · rw [homeByte, learnFor_mem hap, quieten_mem, Claims.put, ← vaultKeys_eq, writeAll_eq]
    exact homeByte_putBytes ..

theorem queueOk_settled {t : State} {f : FmtE} {push try_ : Bool} {addr mem : Nat} (hok : Claims.QueueOk t f push try_ addr mem) :
    Settled t (qHead t t.g.who.loc.die (addr / 8 * 8)) := by
  obtain ⟨-, -, -, -, -, -, -, -, -, -, -, harr, -⟩ := hok
  exact harr

/-- What a pop leaves of a group that is about to take the step. -/
theorem stepping_pops {t s' : State} (hs' : s'.onAp = false) (htaken : OperandsTaken t s') {q : QHead} (hq : Settled t q)
    (hhead : q.head < 256) (hsize : 8 ≤ q.size) (key scope : Nat) :
    (qPop (stepping t s' key) q scope).1 = vaultNat t q.die (q.slotAt q.head) q.size ∧
      Stepped (stepping t s' key) (qPop (stepping t s' key) q scope).2 ∧
      (qPop (stepping t s' key) q scope).2.g.wins = s'.g.wins.map (Claims.land (active t)) ∧
      ∀ k, homeByte (qPop (stepping t s' key) q scope).2 k = Claims.writeAll (homeByte s') (popWrites t q) k := by
  have hms := stepping_ms hs' htaken key
  obtain ⟨hframe, hwins, hbyte⟩ := qPop_puts (stepping_onAp hs' htaken key) (hq.of_ms hms) hhead hsize scope
  rw [stepping_wins hs' htaken, stepping_active hs' htaken] at hwins
  rw [popWrites_of_settled hms hq hhead hsize, stepping_homeByte hs' htaken] at hbyte
  exact ⟨vaultNat_slot hms hq hhead, hframe, hwins, hbyte⟩

theorem popped_spec {f : FmtE} {t s' : State} {push try_ : Bool} {addr mem : Nat} (hs' : s'.onAp = false) (htaken : OperandsTaken t s')
    (hok : Claims.QueueOk t f push try_ addr mem) :
    let q := qHead t t.g.who.loc.die (addr / 8 * 8)
    (popped f t s' addr).1 = vaultNat t q.die (q.slotAt q.head) q.size ∧
      Stepped (stepping t s' (vaultKey t.g.who.loc.die (addr / 8 * 8))) (popped f t s' addr).2 ∧
      (popped f t s' addr).2.g.wins = s'.g.wins.map (Claims.land (active t)) ∧
      ∀ k, homeByte (popped f t s' addr).2 k = Claims.writeAll (homeByte s') (popWrites t q) k :=
  stepping_pops hs' htaken (queueOk_settled hok) (qHead_head_lt ..) (le_qHead_size ..) _ _

theorem popped_regs {f : FmtE} {t s' : State} {addr : Nat} (hs' : s'.onAp = false) (htaken : OperandsTaken t s')
    (h : Stepped (stepping t s' (vaultKey t.g.who.loc.die (addr / 8 * 8))) (popped f t s' addr).2) :
    (popped f t s' addr).2.g.regs = s'.g.regs := by
  rw [show (popped f t s' addr).2 = _ from h, stepping_regs hs' htaken]

theorem queueOk_data {t : State} {f : FmtE} {push try_ : Bool} {addr mem : Nat} (hok : Claims.QueueOk t f push try_ addr mem) :
    isK f.d = true ∧ f.d.toNat + qRegs f (qHead t t.g.who.loc.die (addr / 8 * 8)) ≤ 64 := by
  obtain ⟨-, hdata, -⟩ := hok
  unfold qDataBad at hdata
  simpa using hdata

/-- The registers that a pop's data go to. -/
theorem popped_written {f : FmtE} {t s' : State} {push try_ : Bool} {addr mem x : Nat} (hs' : s'.onAp = false)
    (hv : (popped f t s' addr).2.onAp = false) (htaken : OperandsTaken t s') (hok : Claims.QueueOk t f push try_ addr mem)
    (hframe : Stepped (stepping t s' (vaultKey t.g.who.loc.die (addr / 8 * 8))) (popped f t s' addr).2)
    (hdata : (popped f t s' addr).1 = x) :
    let n := (qHead t t.g.who.loc.die (addr / 8 * 8)).size / 4
    UniformWritten s'.g s'.g.regs (putUniforms (popped f t s' addr).2 f.d.toNat (natWords n (popped f t s' addr).1)).g.regs f.d n
      fun i => (Claims.words n x).getD i 0 := by
  intro n
  have hk := (queueOk_data hok).1
  have hnv : isV f.d = false := by simpa [isK] using hk
  rw [UniformWritten, if_neg (by simp [hnv]), hdata]
  intro key
  have h := putUniformsK_get hv (natWords n x) f.d.toNat (le_of_isK hk) key
  rw [natWords_eq, length_words, popped_regs hs' htaken hframe] at h
  exact h

section
variable {form : QForm} {f : FmtE} {t s' : State} {os : List Opnd} (hs : t.onAp = false) (htaken : OperandsTaken t s')
  (hok : Claims.QueueOk t f form.push form.try_ (src t os 1 0 0).toNat (src t os 0 0 0).toNat)
include hs htaken hok

/-- A push does what R57 says. -/
theorem queueStep_pushes (hp : form.push = true) :
    Claims.queueActs f true form.try_ t s' os (· = queueStep form f t s' os (src t os 1 0 0).toNat) := by
  have hs' := htaken.onAp.trans hs
  let q := qHead t t.g.who.loc.die ((src t os 1 0 0).toNat / 8 * 8)
  let key := vaultKey t.g.who.loc.die ((src t os 1 0 0).toNat / 8 * 8)
  let v := qPush (stepping t s' key) q ((src t os 1 0 0).toNat % 8) (f.c &&& 7).toNat (pushedData f t s' os (src t os 1 0 0).toNat)
  obtain ⟨hframe, hwins, hbyte⟩ : Puts _ _ _ v := qPush_puts (stepping_onAp hs' htaken key) q _ _ _
  rw [stepping_wins hs' htaken, stepping_active hs' htaken] at hwins
  rw [pushWrites_of_settled (stepping_ms hs' htaken key) (queueOk_settled hok) (Nat.mod_lt _ (by decide)), stepping_homeByte hs' htaken,
    pushedData_eq hs' htaken] at hbyte
  obtain ⟨hregs, hmask⟩ := qTryMask_spec form true v
  have hold : v.g.regs = s'.g.regs := by rw [show v = _ from hframe, stepping_regs hs' htaken]
  have he : queueStep form f t s' os (src t os 1 0 0).toNat =
      uniWindow t (qTryMask form true v) f.la (if form.try_ then [71] else []) [mKey 7] := by
    unfold queueStep
    dsimp only
    rw [if_pos hp]
  refine ⟨_, s'.g.regs, (qTryMask form true v).g.regs, rfl, hold ▸ hmask, fun k => ?_, ?_, he.symm⟩
  · rw [homeByte_uniWindow, homeByte_qTryMask]
    exact hbyte k
  · exact acted_frame hs htaken hframe hwins hregs f.la fun k hk => hk

/-- A pop whose data go to memory does what R57 says. -/
theorem queueStep_popsToMemory (hp : form.push = false) (hin : f.c.getLsbD 4 = true) :
    Claims.queueActs f false form.try_ t s' os (· = queueStep form f t s' os (src t os 1 0 0).toNat) := by
  have hs' := htaken.onAp.trans hs
  obtain ⟨hdata, hframe, hwins, hbyte⟩ := popped_spec hs' htaken hok
  have hv := hframe.onAp.trans (stepping_onAp hs' htaken _)
  let w := popToMemory t (popped f t s' (src t os 1 0 0).toNat).2 (src t os 0 0 0).toNat
    (qHead t t.g.who.loc.die ((src t os 1 0 0).toNat / 8 * 8)).size (popped f t s' (src t os 1 0 0).toNat).1
  obtain ⟨hmem, hmemWins, hmemByte⟩ : Stepped _ w ∧ w.g.wins = _ ∧ ∀ k, homeByte w k = _ := popToMemory_spec hv ..
  obtain ⟨hregs, hmask⟩ := qTryMask_spec form true w
  have hold : w.g.regs = s'.g.regs := by rw [show w = _ from hmem, popped_regs hs' htaken hframe]
  have he : queueStep form f t s' os (src t os 1 0 0).toNat = uniWindow t (qTryMask form true w) f.la
      (if form.try_ then [71] else []) (if form.try_ then [mKey 7] else []) := by
    unfold queueStep
    dsimp only
    rw [hp, hin, if_neg Bool.false_ne_true, if_pos rfl, if_pos rfl, if_pos rfl]
    rfl
  rw [hdata] at hmemByte
  unfold Claims.queueActs
  rw [hin]
  refine ⟨_, s'.g.regs, (qTryMask form true w).g.regs, rfl, hold ▸ hmask, fun k => ?_, ?_, he.symm⟩
  · rw [homeByte_uniWindow, homeByte_qTryMask, hmemByte, funext hbyte, ← writeAll_append]
    rfl
  · refine acted_frame hs htaken (hframe.trans hmem) (hmemWins.trans hwins) hregs f.la fun k hk => ?_
    cases ht : form.try_ with
    | false => rw [ht] at hk; exact nomatch hk
    | true => rw [ht] at hk; exact hk

/-- A pop whose data go to registers does what R57 says. -/
theorem queueStep_popsToRegs (hp : form.push = false) (hin : f.c.getLsbD 4 = false) :
    Claims.queueActs f false form.try_ t s' os (· = queueStep form f t s' os (src t os 1 0 0).toNat) := by
  have hs' := htaken.onAp.trans hs
  obtain ⟨hdata, hframe, hwins, hbyte⟩ := popped_spec hs' htaken hok
  have hv := hframe.onAp.trans (stepping_onAp hs' htaken _)
  let w := putUniforms (popped f t s' (src t os 1 0 0).toNat).2 f.d.toNat
    (natWords ((qHead t t.g.who.loc.die ((src t os 1 0 0).toNat / 8 * 8)).size / 4) (popped f t s' (src t os 1 0 0).toNat).1)
  have hput : RegsOnly _ w := putUniforms_regs hv ..
  obtain ⟨hregs, hmask⟩ := qTryMask_spec form true w
  have he : queueStep form f t s' os (src t os 1 0 0).toNat = uniWindow t (qTryMask form true w) f.la
      (codes f.d ((qHead t t.g.who.loc.die ((src t os 1 0 0).toNat / 8 * 8)).size / 4) ++ if form.try_ then [71] else [])
      (destKeys t f.d ((qHead t t.g.who.loc.die ((src t os 1 0 0).toNat / 8 * 8)).size / 4) ++ if form.try_ then [mKey 7] else []) := by
    unfold queueStep
    dsimp only
    rw [hp, hin, if_neg Bool.false_ne_true, if_neg Bool.false_ne_true, if_neg Bool.false_ne_true, if_neg Bool.false_ne_true]
  unfold Claims.queueActs
  rw [hin]
  refine ⟨_, w.g.regs, (qTryMask form true w).g.regs, ?_, hmask, fun k => ?_, ?_, he.symm⟩
  · rw [if_pos ⟨rfl, rfl⟩, if_neg Bool.false_ne_true, if_neg Bool.false_ne_true]
    exact popped_written hs' hv htaken hok hframe hdata
  · rw [homeByte_uniWindow, homeByte_qTryMask]
    refine (congrFun hput.homeByte k).trans ((hbyte k).trans ?_)
    rw [← List.append_nil (popWrites t _)]
    rfl
  · refine acted_frame hs htaken hframe hwins (hput.trans hregs) f.la fun k hk => ?_
    rw [if_pos ⟨rfl, rfl⟩]
    refine (List.mem_append.1 hk).elim (List.mem_append_left _) fun htry => List.mem_append_right _ ?_
    cases ht : form.try_ with
    | false => rw [ht] at htry; exact nomatch htry
    | true => rw [ht] at htry; exact htry

theorem queueStep_acts : Claims.queueActs f form.push form.try_ t s' os (· = queueStep form f t s' os (src t os 1 0 0).toNat) := by
  cases hp : form.push with
  | true => exact queueStep_pushes hs htaken hok hp
  | false =>
    cases hin : f.c.getLsbD 4 with
    | true => exact queueStep_popsToMemory hs htaken hok hp hin
    | false => exact queueStep_popsToRegs hs htaken hok hp hin

end

/-! ## Forms that issue -/

theorem queueActs_mono {f : FmtE} {push try_ : Bool} {t s' : State} {os : List Opnd} {p q : State → Prop}
    (h : Claims.queueActs f push try_ t s' os p) (hpq : ∀ e, p e → q e) : Claims.queueActs f push try_ t s' os q := by
  obtain ⟨e, r1, r2, hregs, hmask, hbytes, hframe, hp⟩ := h
  exact ⟨e, r1, r2, hregs, hmask, hbytes, hframe, hpq e hp⟩

theorem joinWaiters_of_waits {s : State} {w : Waiter} (hvf : w.vf = s.g.who.vf) (hident : w.ident = s.g.who.ident)
    (h : qWaits s w.key w.other = true) : joinWaiters s w = s := by
  unfold joinWaiters
  rw [hvf, hident]
  exact if_pos h

section
variable {form : QForm} {f : FmtE} {t s' : State} {os : List Opnd}
  (hops : takeAll [(0, f.d, if form.push || f.c.getLsbD 4 then
    qRegs f (qHead t t.g.who.loc.die ((src t os 1 0 0).toNat / 8 * 8)) else 0), (1, f.a, 1)] t = .ok (os, s'))
  (haddr : qAddr form f t = .ok (src t os 1 0 0).toNat)
  (hok : Claims.QueueOk t f form.push form.try_ (src t os 1 0 0).toNat (src t os 0 0 0).toNat)
include hops haddr hok

/-- An operation that may act takes its step. -/
theorem queueBody_free (hblocked : qBlocked t (qHead t t.g.who.loc.die ((src t os 1 0 0).toNat / 8 * 8)) form.push
      ((src t os 1 0 0).toNat % 8) = false)
    (hbehind : qBehind t (vaultKey t.g.who.loc.die ((src t os 1 0 0).toNat / 8 * 8)) form.push t.g.iss = false) :
    queueBody form f t = .ok (queueStep form f t s' os (src t os 1 0 0).toNat) := by
  rw [queueBody_eq hops haddr hok, hblocked, hbehind, Bool.and_false, if_neg Bool.false_ne_true, Bool.or_false, if_neg Bool.false_ne_true]

variable (hstuck : (qBlocked t (qHead t t.g.who.loc.die ((src t os 1 0 0).toNat / 8 * 8)) form.push ((src t os 1 0 0).toNat % 8) ||
  qBehind t (vaultKey t.g.who.loc.die ((src t os 1 0 0).toNat / 8 * 8)) form.push t.g.iss) = true)
include hstuck

/-- A try form that would wait clears m7. -/
theorem queueBody_stuckTry (htry : form.try_ = true)
    (hwaits : qWaits t (vaultKey t.g.who.loc.die ((src t os 1 0 0).toNat / 8 * 8)) t.g.iss = false) :
    queueBody form f t = .ok (uniWindow t (qTryMask form false t) f.la [71] [mKey 7]) := by
  rw [queueBody_eq hops haddr hok, hstuck, hwaits, Bool.false_and, if_neg Bool.false_ne_true, if_pos rfl, queueStuck, if_pos htry]

/-- Another form that would wait is among the waiters then. -/
theorem queueBody_stuckWait (htry : form.try_ = false) :
    queueBody form f t = .wait (.queue form.push f) (joinWaiters t ⟨vaultKey t.g.who.loc.die ((src t os 1 0 0).toNat / 8 * 8), t.g.who.vf,
      t.g.who.ident, t.g.iss, form.push, (src t os 1 0 0).toNat % 8, (qHead t t.g.who.loc.die ((src t os 1 0 0).toNat / 8 * 8)).size⟩) := by
  rw [queueBody_eq hops haddr hok, hstuck]
  split
  · next h => rw [joinWaiters_of_waits rfl rfl (Bool.and_eq_true_iff.1 h).1]
  · rw [if_pos rfl, queueStuck, htry, if_neg Bool.false_ne_true]

end

/-- What the queue forms claim where they issue. -/
theorem queueForm_settles {i : Instr} {form : QForm} {f : FmtE} {s t s' : State} {os : List Opnd} (hi : exec i s = queueForm form f s)
    (ht : t = closed s (queueIo form f s).writes) (hc : Clear s f.nas (queueIo form f s))
    (hops : takeAll [(0, f.d, if form.push || f.c.getLsbD 4 then
      qRegs f (qHead t t.g.who.loc.die ((src t os 1 0 0).toNat / 8 * 8)) else 0), (1, f.a, 1)] t = .ok (os, s'))
    (haddr : qAddr form f t = .ok (src t os 1 0 0).toNat)
    (hok : Claims.QueueOk t f form.push form.try_ (src t os 1 0 0).toNat (src t os 0 0 0).toNat) :
    let q := qHead t t.g.who.loc.die ((src t os 1 0 0).toNat / 8 * 8)
    let key := vaultKey t.g.who.loc.die ((src t os 1 0 0).toNat / 8 * 8)
    let stuck := qBlocked t q form.push ((src t os 1 0 0).toNat % 8) || qBehind t key form.push t.g.iss
    (stuck = false → Claims.queueActs f form.push form.try_ t s' os (Claims.Ends i f.nas (queueIo form f s).writes s)) ∧
    (stuck = true → form.try_ = true → qWaits t key t.g.iss = false →
      ∃ regs, MaskWritten t.g.regs regs 7 0 ∧ Claims.Ends i f.nas (queueIo form f s).writes s
        { t with g := { t.g with regs := regs, wins := t.g.wins ++ [Claims.window t t f.la [71] [mKey 7]] } }) ∧
    (stuck = true → form.try_ = false → exec i s =
      .next (setWait (joinWaiters t ⟨key, t.g.who.vf, t.g.who.ident, t.g.iss, form.push, (src t os 1 0 0).toNat % 8, q.size⟩)
        (.queue form.push f))) := by
  intro q key stuck
  have hbad := hc.2.1
  simp only [queueIo, List.append_eq_nil_iff] at hbad
  obtain ⟨⟨hcore, -⟩, -⟩ := hbad
  have hs : t.onAp = false := by rw [ht, closed, setWins_onAp]; exact onAp_of_coreOnly hcore
  have hends {e : State} (hb : queueBody form f t = .ok e) : Claims.Ends i f.nas (queueIo form f s).writes s e := by
    intro u hu
    rw [hi]
    exact issue_completes hc (ht ▸ hb) hu
  refine ⟨fun hfree => ?_, fun hstuck htry hwaits => ?_, fun hstuck htry => ?_⟩
  · obtain ⟨hblocked, hbehind⟩ := Bool.or_eq_false_iff.1 hfree
    refine queueActs_mono (queueStep_acts hs (operandsTaken_takeAll hops) hok) fun e he => hends ?_
    rw [he]
    exact queueBody_free hops haddr hok hblocked hbehind
  · obtain ⟨hregs, hmask⟩ := qTryMask_spec form false t
    rw [if_pos htry] at hmask
    refine ⟨_, hmask, hends ?_⟩
    rw [queueBody_stuckTry hops haddr hok hstuck htry hwaits, uniWindow_eq (hregs.onAp.trans hs)]
    generalize qTryMask form false t = w at hregs
    rw [show w = _ from hregs]
    rfl
  · rw [hi, queueForm, issue_clear hc, ← ht, queueBody_stuckWait hops haddr hok hstuck htry]
    rfl

/-! ## Waiters that are served -/

theorem oldIn_land (m : Mask) (wins : List Window) (reg key : Nat) : oldIn (wins.map (Claims.land m)) reg key = oldIn wins reg key := by
  unfold oldIn
  rw [List.findSome?_map]
  rfl

theorem oldIn_append {wins : List Window} {w : Window} {reg : Nat} (h : reg ∉ w.regs) (key : Nat) :
    oldIn (wins ++ [w]) reg key = oldIn wins reg key := by
  unfold oldIn
  simp [List.findSome?_append, h]

/-- m7 reads the same where neither it nor a window on it has been written. -/
theorem selectorMask_congr {s t : State} (hfree : t.free = s.free) (hold : oldValue t.g 71 (mKey 7) = oldValue s.g 71 (mKey 7))
    (hregs : storeGet 0 t.g.regs (mKey 7) = storeGet 0 s.g.regs (mKey 7)) : selectorMask t = selectorMask s := by
  unfold selectorMask readMask
  rw [hfree, hold, hregs]

/-- The slot of a context brought to issue. -/
def atSlot (b : State) (other : Bool) : State := { b with onAp := false, g := { b.g with iss := other } }

theorem resume_eq {s b : State} {vf ident : Nat} {other : Bool} {nas : Nas} {io : Io} {body : State → Res}
    {pick : State → Wait → Option (Nas × Io × (State → Res))} {e : State} (hb : bring s vf ident = some b)
    (hvalid : (curSlot (atSlot b other).g).valid = true) (hpick : pick (atSlot b other) (curSlot (atSlot b other).g).wait = some (nas, io, body))
    (hbody : body (closed (atSlot b other) io.writes) = .ok e) :
    resume s vf ident other pick = some
      ((bring { issueEffect (atSlot b other) nas io body with onAp := s.onAp } s.g.who.vf s.g.who.ident).getD
        { issueEffect (atSlot b other) nas io body with onAp := s.onAp }) := by
  unfold resume
  rw [hb]
  change (if !(curSlot (atSlot b other).g).valid then none else match pick (atSlot b other) (curSlot (atSlot b other).g).wait with
    | none => none
    | some (nas, io, body) => match body (closed (atSlot b other) io.writes) with
      | .wait _ _ => none
      | _ => some ((bring { issueEffect (atSlot b other) nas io body with onAp := s.onAp } s.g.who.vf s.g.who.ident).getD
          { issueEffect (atSlot b other) nas io body with onAp := s.onAp })) = _
  rw [hvalid, Bool.not_true, if_neg Bool.false_ne_true, hpick]
  dsimp only
  rw [hbody]

/-- A waiter whose effect completes, and which leaves m7 alone, is resumed. -/
theorem resumed_of_body {i : Instr} {s t b e : State} {vf ident : Nat} {other : Bool} {w : Wait} {nas : Nas} {io : Io} {body : State → Res}
    {pick : State → Wait → Option (Nas × Io × (State → Res))} (hi : exec i s = dueOr s (resume s vf ident other pick))
    (hb : bring s vf ident = some b) (hw : Claims.Waiting s t vf ident other w nas io)
    (hpick : pick (atSlot b other) w = some (nas, io, body)) (hbody : body t = .ok e)
    (hm : selectorMask e = selectorMask t) : Claims.Resumed i nas io.writes s e := by
  obtain ⟨b', u, hb', hu, hvalid, hwait, ht, hc⟩ := hw
  obtain rfl : b = b' := Option.some.inj (hb.symm.trans hb')
  change u = atSlot b other at hu
  subst hu
  intro v hv
  have heffect : issueEffect (atSlot b other) nas io body = finished v io.writes := by
    have hdebug : debugRead t nas io.reads = false := by rw [ht]; exact hc.2.2.2
    unfold issueEffect
    rw [clear_find (io := { io with bad := [] }) hc]
    dsimp only
    rw [← ht, hdebug, if_neg Bool.false_ne_true, hbody]
    unfold conclude
    dsimp only
    rw [← hm, hv]
  rw [hi, resume_eq hb hvalid (by rw [hwait]; exact hpick) (ht ▸ hbody), heffect]
  rfl

theorem not_mem_codes {d : RegCode} {n c : Nat} (h : d.toNat + n ≤ c) : c ∉ codes d n := by
  unfold codes
  rw [upto_eq_range, List.mem_map]
  rintro ⟨i, hi, rfl⟩
  rw [List.mem_range] at hi
  omega

/-- A uniform result in k registers leaves the masks. -/
theorem uniformWritten_mask {c : Ctx} {old new : Store Word} {d : RegCode} {n : Nat} {val : Nat → Word} (hk : isK d = true)
    (hn : d.toNat + n ≤ 64) (h : UniformWritten c old new d n val) (i : Nat) : storeGet 0 new (mKey i) = storeGet 0 old (mKey i) := by
  have hk48 := le_of_isK hk
  have hnv : isV d = false := by simpa [isK] using hk
  rw [UniformWritten, if_neg (by simp [hnv])] at h
  rw [h, if_neg]
  unfold kKey mKey
  omega

/-- A queue step without a try leaves m7 as it reads. -/
theorem queueStep_selectorMask {push : Bool} {f : FmtE} {t s' e : State} {os : List Opnd} {mem : Nat}
    (htaken : OperandsTaken t s') (hok : Claims.QueueOk t f push false (src t os 1 0 0).toNat mem)
    (h : Claims.queueActs f push false t s' os (· = e)) : selectorMask e = selectorMask t := by
  obtain ⟨e', r1, r2, hregs, hmask, -, ⟨wins, he, hnil, hcons⟩, rfl⟩ := h
  obtain ⟨hk, hrange⟩ := queueOk_data hok
  have hfree : s'.free = t.free := by rw [show s' = _ from htaken]
  have hwins : s'.g.wins = t.g.wins := by rw [show s' = _ from htaken]
  have hold : s'.g.regs = t.g.regs := by rw [show s' = _ from htaken]
  have hdata (h : push = false ∧ f.c.getLsbD 4 = false) :
      f.d.toNat + (qHead t t.g.who.loc.die ((src t os 1 0 0).toNat / 8 * 8)).size / 4 ≤ 64 := by
    rw [qRegs, h.2, if_neg Bool.false_ne_true] at hrange
    exact hrange
  have hlanded : oldIn (s'.g.wins.map (Claims.land (active t))) 71 (mKey 7) = oldIn t.g.wins 71 (mKey 7) := by
    rw [oldIn_land, hwins]
  refine selectorMask_congr (by rw [he]; exact hfree) ?_ ?_
  · have hew : e'.g.wins = wins := by rw [he]
    unfold oldValue
    rw [hew]
    by_cases hnew : wins = s'.g.wins.map (Claims.land (active t))
    · rw [hnew, hlanded]
    · obtain ⟨old, happend, -⟩ := hcons (mt hnil hnew)
      rw [happend, oldIn_append, hlanded]
      rw [if_neg Bool.false_ne_true, List.append_nil]
      split
      · next h => exact not_mem_codes (Nat.le_trans (hdata h) (by decide))
      · exact List.not_mem_nil
  · have her : e'.g.regs = r2 := by rw [he]
    rw [if_neg Bool.false_ne_true] at hmask
    rw [her, hmask, ← hold]
    split at hregs
    · next h => exact uniformWritten_mask hk (hdata h) hregs 7
    · rw [hregs]

/-- Settles O30: where the forms may act they come to one step, whose reads of the queue do not depend on who makes them. -/
theorem queueForms : Obligations.QueueForms := by
  unfold Obligations.QueueForms
  constructor
  · intro p hp f s t s' os addr die q key stuck io ht hc hops haddr hok
    simp only [List.mem_cons, List.not_mem_nil, or_false] at hp
    rcases hp with rfl | rfl | rfl | rfl
    · exact queueForm_settles rfl ht hc hops haddr hok
    · exact queueForm_settles rfl ht hc hops haddr hok
    · exact queueForm_settles rfl ht hc hops haddr hok
    · exact queueForm_settles rfl ht hc hops haddr hok
  · intro vf ident other push f s t s' b os addr q io hb hw hops haddr hok hblocked hbehind
    obtain ⟨b', u, -, hu, -, -, ht, -⟩ := id hw
    have hon : t.onAp = false := by rw [ht, closed, setWins_onAp, hu]
    have hiss : t.g.iss = other := by rw [ht, hu]; rfl
    have hacts := queueStep_acts (form := ⟨push, false⟩) hon (operandsTaken_takeAll hops) hok
    have hm := queueStep_selectorMask (operandsTaken_takeAll hops) hok hacts
    refine queueActs_mono hacts fun e he => ?_
    rw [he]
    rw [← hiss] at hbehind
    exact resumed_of_body rfl hb hw rfl (queueBody_free (form := ⟨push, false⟩) hops haddr hok hblocked hbehind) hm

end Sys2Proof.Machine
end

section
/-! What contexts do as they end, are saved and are restored leaves the management unit. -/

namespace Sys2Proof.Machine

theorem foldl_mg {β : Type} (f : State → β → State) (hf : ∀ s x, (f s x).mg = s.mg) (l : List β) (s : State) : (l.foldl f s).mg = s.mg := by
  induction l generalizing s with
  | nil => rfl
  | cons x l ih => exact (ih _).trans (hf s x)

theorem getD_mg {o : Option State} {s u : State} (ho : SomeWith (fun t => t.mg = u.mg) o) (hs : s.mg = u.mg) : (o.getD s).mg = u.mg := by
  cases o with
  | none => exact hs
  | some t => exact ho

/-! ## Contexts that end -/

@[simp] theorem logError_mg (s : State) (cause source ident unit addr count : Nat) :
    (logError s cause source ident unit addr count).mg = s.mg := by
  unfold logError
  dsimp only
  split
  · rw [setDevReg_mg]
  · rw [setDevReg_mg, physPut_mg]

@[simp] theorem endGang_mg (s : State) (gang : Nat) : (endGang s gang).mg = s.mg := by
  unfold endGang
  split
  · rfl
  · split
    · rfl
    · exact (joinFor_beside ..).mg

theorem noteEnd_mg (s : State) (gang : Nat) (ids : List Nat) : (noteEnd s gang ids).mg = s.mg := rfl

theorem failGang_mg (s : State) (gang cause : Nat) : (failGang s gang cause).mg = s.mg := rfl

theorem finishCtx_mg (s : State) (c : Ctx) : (finishCtx s c).mg = s.mg := by
  have hclosed : (closeCmds (removeCtx s c.who.vf c.who.ident) c.who.uid).mg = s.mg := rfl
  unfold finishCtx
  dsimp only
  split
  · split
    · exact (joinFor_beside ..).mg.trans hclosed
    · exact hclosed
  · rw [endGang_mg, noteEnd_mg]
    split
    · exact hclosed
    · exact hclosed

theorem sweep_mg (s : State) : (sweep s).mg = s.mg := foldl_mg _ finishCtx_mg _ s

/-! ## Causes and issue -/

@[simp] theorem endContext_mg (s : State) (cause : Nat) : (endContext s cause).mg = s.mg := logError_mg ..

@[simp] theorem takeTrap_mg (s : State) (r : Raise) (m : Mask) : (takeTrap s r m).mg = s.mg := by
  unfold takeTrap
  split
  · exact endContext_mg ..
  · rfl

@[simp] theorem takeLate_mg (s : State) (r : Raise) (was : Bool) (own path : Mask) : (takeLate s r was own path).mg = s.mg :=
  takeTrap_mg ..

@[simp] theorem stopSlice_mg (s : State) (r : Raise) : (stopSlice s r).mg = s.mg := by
  unfold stopSlice
  split <;> rfl

@[simp] theorem raiseNow_mg (s : State) (r : Raise) (m : Mask) : (raiseNow s r m).mg = s.mg := by
  unfold raiseNow
  split
  · exact stopSlice_mg ..
  · exact takeTrap_mg ..

@[simp] theorem raiseAfter_mg (s : State) (r : Raise) (was : Bool) (own : Mask) : (raiseAfter s r was own).mg = s.mg := by
  unfold raiseAfter
  split
  · exact stopSlice_mg ..
  · exact takeLate_mg ..

@[simp] theorem touchArrays_mg (s : State) (writes : List Nat) : (touchArrays s writes).mg = s.mg := by
  unfold touchArrays
  split <;> rfl

@[simp] theorem finished_mg (s : State) (writes : List Nat) : (finished s writes).mg = s.mg := (touchArrays_mg ..).trans (issued_mg s)

theorem Sequenced.mg {s t : State} (h : Sequenced s t) : t.mg = s.mg := by rw [show t = _ from h]

theorem applyNas_mg {s t : State} {m7 : Mask} {nas : Nas} (h : applyNas m7 s nas = .ok t) : t.mg = s.mg := by
  unfold applyNas settled at h
  split at h
  · cases h
  · next hselect =>
    split at h
    · cases h
      exact (sequenced_select hselect).mg
    · exact (sequenced_settle h).mg.trans (sequenced_select hselect).mg

/-- The state in which an effect leaves the machine has a management unit as it was. -/
def ResApart (m : Mgmt) : Res → Prop
  | .ok s | .after s _ | .wait _ s | .over s | .stop s => s.mg = m
  | .trap _ => True

theorem resApart_withDebug {s : State} {m : Mgmt} {r : Res} (h : ResApart m r) : ResApart m (withDebug s r) := by
  unfold withDebug
  split
  · exact h
  · exact h
  · split <;> exact trivial
  · exact trivial

theorem resApart_portStop {s : State} {e : PortStop} : ResApart s.mg (portStop s e) := by
  cases e with
  | notReady => exact rfl
  | drained => exact trivial
  | fault _ _ => exact trivial

theorem conclude_mg {s : State} {nas : Nas} {writes : List Nat} {r : Res} (h : ResApart s.mg r) : (conclude s nas writes r).mg = s.mg := by
  have hcollapse (pte : Nat) : (setWait (collapseAt s pte) .held).mg = s.mg := (setWait_mg ..).trans (collapseAt_beside s pte).mg
  unfold conclude
  dsimp only
  split
  · exact (issued_mg _).trans h
  · exact h
  · exact (setWait_mg ..).trans h
  · split
    · split <;> exact raiseNow_mg ..
    · exact raiseNow_mg ..
  · split
    · exact raiseNow_mg ..
    · exact hcollapse _
    · next hnas => exact (finished_mg ..).trans ((applyNas_mg hnas).trans h)
  · split
    · exact raiseNow_mg ..
    · exact hcollapse _
    · next hnas => exact (raiseAfter_mg ..).trans ((finished_mg ..).trans ((applyNas_mg hnas).trans h))

theorem issueEffect_mg {s : State} {nas : Nas} {io : Io} {body : State → Res} (h : ∀ t, ResApart t.mg (body t)) :
    (issueEffect s nas io body).mg = s.mg := by
  unfold issueEffect
  split
  · exact (takeLate_mg ..).trans (setWins_mg ..)
  · refine (conclude_mg ?_).trans (setWins_mg ..)
    split
    · exact resApart_withDebug (h _)
    · exact h _

theorem bring_mg (s : State) (vf ident : Nat) : SomeWith (fun t => t.mg = s.mg) (bring s vf ident) := by
  unfold bring
  refine someWith_ite rfl ?_
  split
  · exact trivial
  · exact rfl

theorem onCtx_mg {s : State} {vf ident : Nat} {f : State → State} (hf : ∀ t, (f t).mg = t.mg) :
    SomeWith (fun t => t.mg = s.mg) (onCtx s vf ident f) := by
  unfold onCtx
  split
  · exact trivial
  · next t hbring =>
    have ht := (bring_mg s vf ident).get hbring
    have hu : ({ f { t with onAp := false } with onAp := s.onAp } : State).mg = s.mg := (hf _).trans ht
    exact (getD_mg (bring_mg ..) rfl).trans hu

theorem resume_mg {s : State} {vf ident : Nat} {other : Bool} {pick : State → Wait → Option (Nas × Io × (State → Res))}
    (h : ∀ t w, SomeWith (fun x => ∀ u : State, ResApart u.mg (x.2.2 u)) (pick t w)) :
    SomeWith (fun t => t.mg = s.mg) (resume s vf ident other pick) := by
  unfold resume
  split
  · exact trivial
  · next hbring =>
    have ht := (bring_mg s vf ident).get hbring
    refine someWith_ite trivial ?_
    split
    · exact trivial
    · next hpick =>
      have hbody := (h _ _).get hpick
      split
      · exact trivial
      · exact (getD_mg (bring_mg ..) rfl).trans ((issueEffect_mg hbody).trans ht)

theorem putUniform_mg (s : State) (c : Nat) (x : Word) : (putUniform s c x).mg = s.mg := by
  unfold putUniform putLanes putK
  split
  · exact foldl_mg (fun s l => putV s c l x) (fun _ _ => rfl) _ s
  · split <;> rfl

theorem deadlineEnd_mg (s : State) (vf ident : Nat) (other : Bool) : SomeWith (fun t => t.mg = s.mg) (deadlineEnd s vf ident other) := by
  unfold deadlineEnd
  refine resume_mg fun _ w => ?_
  split
  · intro u
    dsimp only
    split
    · exact rfl
    · split
      · exact resApart_portStop
      · next htake => exact (putUniform_mg ..).trans (by rw [show _ = _ from operandsTaken_takeAll htake])
  · exact trivial

/-! ## Contexts that are saved -/

theorem updCtx_mg (s : State) (vf ident : Nat) (f : Ctx → Ctx) : (updCtx s vf ident f).mg = s.mg := by
  unfold updCtx
  split <;> rfl

theorem finishWrite_mg (s : State) (vf ident : Nat) : SomeWith (fun t => t.mg = s.mg) (finishWrite s vf ident) := by
  unfold finishWrite
  split
  · exact trivial
  · exact someWith_map (P := fun _ => True) someWith_true fun _ _ => updCtx_mg ..

theorem finishRow_mg (s : State) (part : Nat) : SomeWith (fun t => t.mg = s.mg) (finishRow s part) := by
  unfold finishRow
  dsimp only
  split
  · exact trivial
  · exact updCtx_mg ..

theorem takeEntry_mg (s : State) (part : Nat) : SomeWith (fun t => t.mg = s.mg) (takeEntry s part) := by
  unfold takeEntry
  dsimp only
  split
  · exact trivial
  · exact someWith_ite rfl (someWith_ite trivial rfl)

theorem drainStep_mg (s : State) (part vf ident : Nat) : SomeWith (fun t => t.mg = s.mg) (drainStep s part vf ident) := by
  refine someWith_orElse (finishWrite_mg ..) (someWith_orElse (finishRow_mg ..) (someWith_orElse (takeEntry_mg ..) ?_))
  split
  · exact trivial
  · exact finishWrite_mg ..

theorem drainMatrix_mg (part vf ident n : Nat) (s : State) : (drainMatrix part vf ident n s).mg = s.mg := by
  induction n generalizing s with
  | zero => rfl
  | succ n ih =>
    unfold drainMatrix
    split
    · rfl
    · split
      · split
        · next hstep => exact (ih _).trans ((drainStep_mg ..).get hstep)
        · rfl
      · rfl

theorem countWritten_mg (s : State) (d : DirtySector) : (countWritten s d).mg = s.mg := by
  unfold countWritten
  split
  · rfl
  · dsimp only
    split
    · exact (sameIssuer_notifyFiled ..).mg.trans (sameIssuer_countSector ..).mg
    · exact (sameIssuer_countSector ..).mg

theorem countArrived_mg (s : State) : (countArrived s).mg = s.mg := foldl_mg _ countWritten_mg _ s

theorem bringToRest_mg (s : State) (coll : Bool) (vf ident : Nat) : (bringToRest s coll vf ident).mg = s.mg := by
  have hends : ((deadlineEnd ((deadlineEnd s vf ident false).getD s) vf ident true).getD ((deadlineEnd s vf ident false).getD s)).mg =
      s.mg := (getD_mg (deadlineEnd_mg ..) rfl).trans (getD_mg (deadlineEnd_mg ..) rfl)
  unfold bringToRest
  dsimp only
  split
  · exact hends
  · exact (countArrived_mg _).trans ((arriveAll_mg ..).trans ((updCtx_mg ..).trans ((drainMatrix_mg ..).trans hends)))

theorem putArea_mg (s : State) (c : Ctx) (key : Nat → Nat) (lo hi : Nat) : (putArea s c key lo hi).mg = s.mg := by
  refine foldl_mg _ (fun t j => ?_) _ s
  split
  · rfl
  · exact devPutKeys_mg ..

theorem saveCtx_mg (s : State) (vf ident by_ unit area : Nat) : (saveCtx s vf ident by_ unit area).mg = s.mg := by
  unfold saveCtx
  dsimp only
  split
  · rfl
  · exact (putArea_mg ..).trans (bringToRest_mg ..)

/-- A unit whose contexts are captured is halted; the management unit keeps the rest. -/
theorem captureUnit_mg (s : State) (unit cause : Nat) :
    (captureUnit s unit cause).mg = { s.mg with halted := s.mg.halted.filter (· != unit) ++ [unit] } := by
  unfold captureUnit
  dsimp only
  rw [foldl_mg _ (fun _ _ => saveCtx_mg ..), physPut_mg, sweep_mg]

/-! ## Contexts that are restored -/

theorem logOfArea_mg (rd : Nat → Nat → Nat) (s : State) (c : Ctx) (old : List LogEntry) : (logOfArea rd s c old).1.mg = s.mg := by
  refine List.foldlRecOn (motive := fun x : State × Ctx => x.1.mg = s.mg) _ _ rfl fun x hx i _ => ?_
  dsimp only
  split <;> exact hx

theorem rereadTop_mg (s : State) (vf ident : Nat) : (rereadTop s vf ident).mg = s.mg := by
  unfold rereadTop
  refine getD_mg (onCtx_mg fun t => ?_) rfl
  split
  · next htop => exact (sequenced_loadTop htop).mg
  · rfl

theorem loseSaved_mg (s : State) (x : Saved) : (loseSaved s x).mg = s.mg := by
  unfold loseSaved
  dsimp only
  split
  · rw [endGang_mg, noteEnd_mg, failGang_mg, logError_mg]
  · rw [(joinFor_beside ..).mg, logError_mg]

theorem restoreSaved_mg (s : State) (x : Saved) (loc : Loc) : (restoreSaved s x loc).mg = s.mg := by
  unfold restoreSaved
  dsimp only
  split
  · exact loseSaved_mg ..
  · exact (rereadTop_mg ..).trans (logOfArea_mg ..)

theorem restoreNear_mg (s : State) (x : Saved) : SomeWith (fun t => t.mg = s.mg) (restoreNear s x) := by
  unfold restoreNear
  refine someWith_ite (restoreSaved_mg ..) ?_
  exact someWith_map (P := fun _ => True) someWith_true fun _ _ => restoreSaved_mg ..

theorem resumeCore_mg (unit : Nat) (s : State) : (resumeCore unit s).mg = s.mg := 
  foldl_mg (fun s c => resumeCmds s (savedOf s c 0 0 0)) (fun _ _ => rfl) _ s

end Sys2Proof.Machine
end

section
/-! Audits, array errors, link errors, heartbeats, and the units that they halt. -/

namespace Sys2Proof.Machine

/-! ## Counts and the error log -/

/-- `t` is `s` but for bytes that the device wrote and its registers: what an entry of the error log leaves. -/
def Logged (s t : State) : Prop :=
  t = { s with
    ms := { s.ms with mem := t.ms.mem, hist := t.ms.hist, undef := t.ms.undef }, fresh := t.fresh, dev := t.dev }

theorem logError_logged (s : State) (cause source ident unit addr count : Nat) : Logged s (logError s cause source ident unit addr count) := by
  have hput (pa n x y : Nat) (v : DWord) : Logged s (setDevReg (physPut s pa n x) y v) := by
    have h : BytesOnly { s with fresh := s.fresh + 1 } (physPut s pa n x) := bytesOnly_devPutKeys ..
    rw [show physPut s pa n x = _ from h]
    rfl
  have hset (y : Nat) (v : DWord) : Logged s (setDevReg s y v) := rfl
  unfold logError
  dsimp only
  split
  · exact hset ..
  · exact hput ..

theorem fleetReg_countFleet (s : State) (i j n : Nat) : fleetReg (countFleet s j n) (0x400 + 8 * i) =
    if i = j then min (fleetReg s (0x400 + 8 * i) + n) (2 ^ 64 - 1) else fleetReg s (0x400 + 8 * i) := by
  unfold countFleet counterAt
  rw [fleetReg_set]
  by_cases h : i = j
  · subst h
    rw [if_pos rfl, if_pos rfl, Nat.mod_eq_of_lt (by omega)]
  · rw [if_neg (by omega), if_neg h]

/-! ## Array errors -/

theorem scrubRead_untimed (s : State) (err : ArrayError) (e : ArrayEntryAt) : execScrubRead false err e s = .next (match err with
    | .none => s
    | .correctable =>
      match classCounter (arrayClass e) with
      | some i => countFleet (countClass s (arrayClass e) (arrayAddr e)) i 1
      | none => countClass s (arrayClass e) (arrayAddr e)
    | .uncorrectable => treatEntry s e) := by
  cases err <;> rfl

/-- The entry of a class that a pass reads next, once it has read one. -/
def nextScrub (s : State) (cls : Nat) : Store Nat :=
  let (at_, since, size, pass) := Claims.pass s cls
  let x := storeSet 0 s.mg.scrub (2 * cls) (if size ≤ at_ + 1 then 0 else at_ + 1)
  if size ≤ at_ + 1 then storeSet 0 x (2 * cls + 1) (since + pass) else x

theorem fettle_eq (s : State) (cls : Nat) : let (at_, since, size, pass) := Claims.pass s cls
    fettle s cls = if s.acnt.toNat < since + at_ * pass / size then none
      else some { s with mg := { s.mg with scrub := nextScrub s cls } } := by
  have hpass : bits (devNat s 0x1C5) 7 0 * 4320000000000 = (devReg s 0x1C5).toNat % 256 * 4320000000000 := rfl
  unfold fettle nextScrub Claims.pass
  dsimp only
  rw [hpass]
  generalize (devReg s 0x1C5).toNat % 256 * 4320000000000 = pass
  simp only [decide_eq_true_eq]
  rfl

theorem nextScrub_get (s : State) (cls : Nat) : let (at_, since, size, pass) := Claims.pass s cls
    storeGet 0 (nextScrub s cls) (2 * cls) = (if size ≤ at_ + 1 then 0 else at_ + 1) ∧
      storeGet 0 (nextScrub s cls) (2 * cls + 1) = if size ≤ at_ + 1 then since + pass else since := by
  unfold nextScrub Claims.pass
  dsimp only
  constructor
  · split <;> simp [storeGet_set]
  · split <;> simp [storeGet_set]

theorem classCounter_eq (cls i : Nat) : classCounter cls = some i ↔
    (i = 0 ∧ cls ∈ [0, 1, 3, 6]) ∨ (i = 1 ∧ cls ∈ [4, 5, 8, 9]) := by
  unfold classCounter
  split
  · next h =>
    have h0 : cls ∈ [0, 1, 3, 6] := by simpa using h
    have h1 : cls ∉ [4, 5, 8, 9] := by simp at h0 ⊢; omega
    simp [h0, h1, eq_comm]
  · next h =>
    have h0 : cls ∉ [0, 1, 3, 6] := by simpa using h
    split
    · next h =>
      have h1 : cls ∈ [4, 5, 8, 9] := by simpa using h
      simp only [h0, h1, and_false, and_true, false_or, Option.some.injEq, eq_comm]
    · next h =>
      have h1 : cls ∉ [4, 5, 8, 9] := by simpa using h
      simp only [h0, h1, and_false, or_self, reduceCtorEq]

section
variable {s : State} {cls at_ : Nat}

theorem countClass_logged (s : State) (cls at_ : Nat) : Logged { s with mg := { s.mg with
    counts := storeSet 0 s.mg.counts cls (min (storeGet 0 s.mg.counts cls + 1) (2 ^ 64 - 1)) } } (countClass s cls at_) :=
  logError_logged ..

theorem countClass_get (s : State) (cls at_ : Nat) :
    storeGet 0 (countClass s cls at_).mg.counts cls = min (storeGet 0 s.mg.counts cls + 1) (2 ^ 64 - 1) := by
  rw [show countClass s cls at_ = _ from countClass_logged s cls at_]
  exact storeGet_set_self ..

theorem countClass_fleet (s : State) (cls at_ off : Nat) : fleetReg (countClass s cls at_) off = fleetReg s off := by
  rw [show countClass s cls at_ = _ from countClass_logged s cls at_]
  rfl

theorem countClass_g (s : State) (cls at_ : Nat) : (countClass s cls at_).g = s.g := by
  rw [show countClass s cls at_ = _ from countClass_logged s cls at_]

theorem countClass_others (s : State) (cls at_ : Nat) : (countClass s cls at_).others = s.others := by
  rw [show countClass s cls at_ = _ from countClass_logged s cls at_]

theorem countClass_tlb (s : State) (cls at_ : Nat) : (countClass s cls at_).ms.tlb = s.ms.tlb := by
  rw [show countClass s cls at_ = _ from countClass_logged s cls at_]

end

/-- A count of an error that its ECC corrects, with the fleet's counter of its class. -/
def corrected (s : State) (e : ArrayEntryAt) : State :=
  match classCounter (arrayClass e) with
  | some i => countFleet (countClass s (arrayClass e) (arrayAddr e)) i 1
  | none => countClass s (arrayClass e) (arrayAddr e)

theorem corrected_fleet (s : State) (e : ArrayEntryAt) (i : Nat) : fleetReg (corrected s e) (0x400 + 8 * i) =
    if (i = 0 ∧ arrayClass e ∈ [0, 1, 3, 6]) ∨ (i = 1 ∧ arrayClass e ∈ [4, 5, 8, 9]) then
      min (fleetReg s (0x400 + 8 * i) + 1) (2 ^ 64 - 1) else fleetReg s (0x400 + 8 * i) := by
  rw [if_congr (classCounter_eq (arrayClass e) i).symm rfl rfl]
  unfold corrected
  split
  · next j hj =>
    rw [hj, fleetReg_countFleet, countClass_fleet]
    exact if_congr (by rw [Option.some.injEq, eq_comm]) rfl rfl
  · next hnone => rw [hnone, if_neg nofun, countClass_fleet]

theorem corrected_counts (s : State) (e : ArrayEntryAt) : (corrected s e).g = s.g ∧ (corrected s e).others = s.others ∧
    storeGet 0 (corrected s e).mg.counts (arrayClass e) = min (storeGet 0 s.mg.counts (arrayClass e) + 1) (2 ^ 64 - 1) := by
  unfold corrected
  split
  · exact ⟨countClass_g .., countClass_others .., countClass_get ..⟩
  · exact ⟨countClass_g .., countClass_others .., countClass_get ..⟩

/-! ## Entries that are zeroed -/

theorem lastWrite_zeros (ks : List Nat) (k : Nat) :
    lastWrite (ks.zip (ks.map fun _ => (0 : Byte))) k = if k ∈ ks then some 0 else none := by
  induction ks with
  | nil => rfl
  | cons a ks ih =>
    rw [List.map_cons, List.zip_cons_cons, lastWrite_cons, ih]
    by_cases hin : k ∈ ks
    · simp [hin]
    · by_cases ha : a = k
      · simp [hin, ha]
      · simp [hin, ha, Ne.symm ha]

theorem mem_distinct (l : List Nat) (x : Nat) : x ∈ distinct l ↔ x ∈ l := by
  have hfold (acc : List Nat) : x ∈ l.foldl (fun acc x => if acc.contains x then acc else acc ++ [x]) acc ↔ x ∈ acc ∨ x ∈ l := by
    induction l generalizing acc with
    | nil => simp
    | cons a l ih =>
      rw [List.foldl_cons, ih]
      split
      · next h =>
        have ha : a ∈ acc := by simpa using h
        rw [List.mem_cons]
        constructor
        · exact Or.imp_right Or.inr
        · rintro (h | rfl | h)
          · exact .inl h
          · exact .inl ha
          · exact .inr h
      · simp [or_assoc]
  exact (hfold []).trans (by simp)

theorem dirtyIn_iff (c : Nat) (w : WriteRec) : dirtyIn c w = true ↔ w.arrived = none ∧ w.strong = none ∧ w.key / 64 = c := by
  simp [dirtyIn, and_assoc]

theorem homeByte_zeroEntry_line {s : State} {level c : Nat} {w : WriteRec} (hw : w ∈ s.ms.hist) (hd : dirtyIn c w = true) :
    homeByte (zeroEntry s (.line level c)) w.key = 0 := by
  have hkey : w.key ∈ distinct ((s.ms.hist.filter (dirtyIn c)).map (·.key)) :=
    (mem_distinct ..).2 (List.mem_map.2 ⟨w, List.mem_filter.2 ⟨hw, hd⟩, rfl⟩)
  unfold zeroEntry
  dsimp only
  rw [homeByte_devPutKeys, lastWrite_zeros, if_pos hkey]
  rfl

theorem homeByte_zeroEntry_vault (s : State) (k key : Nat) :
    homeByte (zeroEntry s (.vault k)) key = if key = k then 0 else homeByte s key := by
  have h := homeByte_devPutKeys s [k] ([k].map fun _ => (0 : Byte)) key
  rw [lastWrite_zeros] at h
  refine h.trans ?_
  by_cases hk : key = k
  · simp [hk]
  · simp [hk]

/-! ## Heartbeats -/

/-- The entry of a unit in the heartbeat table. -/
def beatEntry (s : State) (unit : Nat) : Nat := physNat s ((devReg s 0x1C2).toNat % 2 ^ 56 / 4096 * 4096 + 8 * unit) 8

theorem unitStopped_iff (s : State) (unit : Nat) :
    unitStopped s unit = false ↔ unit ∉ s.mg.halted ∧ ∀ c ∈ s.mg.cores, coreOfUnit unit c = false := by
  simp [unitStopped]

theorem bit_eq_testBit (x i : Nat) : bit x i = x.testBit i := by
  rw [Nat.testBit_eq_decide_div_mod_eq, bit, Nat.shiftRight_eq_div_pow, beq_eq_decide]

theorem bits_page (x : Nat) : bits x 55 12 * 4096 = x % 2 ^ 56 / 4096 * 4096 := by
  unfold bits
  rw [Nat.shiftRight_eq_div_pow]
  omega

/-- A unit whose beat is expected shows the one that it showed last. -/
def missedBeat (s : State) (unit : Nat) : Bool :=
  (beatEntry s unit).testBit 32 && !unitStopped s unit && storeGet 0 s.mg.beats unit == beatEntry s unit % 2 ^ 32 + 1

theorem missedBeat_iff (s : State) (unit : Nat) : missedBeat s unit = true ↔ (beatEntry s unit).testBit 32 = true ∧ unit ∉ s.mg.halted ∧
    (∀ c ∈ s.mg.cores, coreOfUnit unit c = false) ∧ storeGet 0 s.mg.beats unit = beatEntry s unit % 2 ^ 32 + 1 := by
  unfold missedBeat
  rw [Bool.and_eq_true, Bool.and_eq_true, Bool.not_eq_true', unitStopped_iff, beq_iff_eq]
  simp only [and_assoc]

/-- The table as the sample of an entry leaves it. -/
def sampled (s : State) (unit misses : Nat) : State := { s with mg := { s.mg with
  beats := storeSet 0 s.mg.beats unit (if (beatEntry s unit).testBit 32 then beatEntry s unit % 2 ^ 32 + 1 else 0)
  misses := storeSet 0 s.mg.misses unit misses } }

/-- The second miss in a row halts a unit. -/
theorem sampleBeat_eq (s : State) (unit : Nat) : sampleBeat s unit =
    let misses := if missedBeat s unit then storeGet 0 s.mg.misses unit + 1 else 0
    if misses = 2 then haltByBeat (sampled s unit 0) unit else sampled s unit misses := by
  have hentry : physNat s (bits (devNat s 0x1C2) 55 12 * 4096 + 8 * unit) 8 = beatEntry s unit := by
    rw [bits_page]
    rfl
  have hmissed : (bit (beatEntry s unit) 32 && !unitStopped s unit &&
      storeGet 0 s.mg.beats unit == if bit (beatEntry s unit) 32 then bits (beatEntry s unit) 31 0 + 1 else 0) = missedBeat s unit := by
    unfold missedBeat
    rw [bit_eq_testBit]
    cases (beatEntry s unit).testBit 32 <;> rfl
  unfold sampleBeat
  dsimp only
  rw [hentry, hmissed, bit_eq_testBit]
  generalize (if missedBeat s unit = true then storeGet 0 s.mg.misses unit + 1 else 0) = misses
  by_cases h : misses = 2
  · rw [if_pos h, if_pos h, if_pos h]
    rfl
  · rw [if_neg h, if_neg h, if_neg h]
    rfl

/-- A unit that has missed no beat before misses one, or none. -/
theorem sampleBeat_first {s : State} {unit : Nat} (h : missedBeat s unit = true → storeGet 0 s.mg.misses unit = 0) :
    sampleBeat s unit = sampled s unit (if missedBeat s unit then 1 else 0) := by
  rw [sampleBeat_eq]
  cases hm : missedBeat s unit with
  | false => rfl
  | true =>
    dsimp only
    rw [if_pos rfl, h hm]
    rfl

/-- The first `n` entries have been sampled without a halt. -/
def SampledTo (s t : State) (n : Nat) : Prop := t = { s with mg := { s.mg with beats := t.mg.beats, misses := t.mg.misses } } ∧
  (∀ unit < n, storeGet 0 t.mg.misses unit = if missedBeat s unit then 1 else 0) ∧
  ∀ unit, n ≤ unit → storeGet 0 t.mg.beats unit = storeGet 0 s.mg.beats unit ∧ storeGet 0 t.mg.misses unit = storeGet 0 s.mg.misses unit

theorem SampledTo.missedBeat {s t : State} {n unit : Nat} (h : SampledTo s t n) (hn : n ≤ unit) :
    missedBeat t unit = missedBeat s unit := by
  obtain ⟨hframe, -, hlater⟩ := h
  have hentry : beatEntry t unit = beatEntry s unit := by rw [hframe]; rfl
  have hstopped : unitStopped t unit = unitStopped s unit := by rw [hframe]; rfl
  unfold Machine.missedBeat
  rw [hentry, hstopped, (hlater unit hn).1]

theorem SampledTo.step {s t : State} {n : Nat} (h : SampledTo s t n)
    (hfirst : Machine.missedBeat s n = true → storeGet 0 s.mg.misses n = 0) : SampledTo s (sampleBeat t n) (n + 1) := by
  have hm := h.missedBeat (Nat.le_refl n)
  obtain ⟨hframe, hdone, hlater⟩ := h
  have hsample : sampleBeat t n = sampled t n (if Machine.missedBeat s n then 1 else 0) := by
    rw [sampleBeat_first (by rw [hm, (hlater n (Nat.le_refl n)).2]; exact hfirst), hm]
  rw [hsample]
  refine ⟨?_, fun unit hu => ?_, fun unit hu => ?_⟩
  · rw [hframe]; rfl
  · refine (storeGet_set ..).trans ?_
    by_cases hun : unit = n
    · rw [if_pos hun, hun]
    · rw [if_neg hun]
      exact hdone unit (by omega)
  · obtain ⟨hbeats, hmisses⟩ := hlater unit (by omega)
    exact ⟨(storeGet_set_ne 0 _ _ (by omega)).trans hbeats, (storeGet_set_ne 0 _ _ (by omega)).trans hmisses⟩

theorem sampledTo_upto {s : State} {n : Nat} (h : ∀ unit < n, Machine.missedBeat s unit = true → storeGet 0 s.mg.misses unit = 0) :
    SampledTo s ((upto n).foldl sampleBeat s) n := by
  induction n with
  | zero => exact ⟨rfl, fun _ hu => absurd hu (Nat.not_lt_zero _), fun _ _ => ⟨rfl, rfl⟩⟩
  | succ n ih =>
    rw [upto, List.foldl_append]
    exact (ih fun unit hu => h unit (Nat.lt_succ_of_lt hu)).step (h n (Nat.lt_succ_self n))

/-- A sample of the whole table without a halt, at whatever tick. -/
theorem samples_last {s : State} {n : Nat} (x : Store Nat)
    (h : ∀ unit < n, missedBeat s unit = true → storeGet 0 s.mg.misses unit = 0) :
    ∃ u, (upto n).foldl sampleBeat { s with mg := { s.mg with last := x } } = u ∧
      u = { s with mg := { s.mg with last := u.mg.last, beats := u.mg.beats, misses := u.mg.misses } } ∧ u.mg.last = x ∧
      ∀ unit < n, storeGet 0 u.mg.misses unit = if missedBeat s unit then 1 else 0 := by
  refine ⟨_, rfl, ?_⟩
  obtain ⟨hframe, hdone, -⟩ := sampledTo_upto (s := { s with mg := { s.mg with last := x } }) h
  generalize (upto n).foldl sampleBeat { s with mg := { s.mg with last := x } } = u at hframe hdone ⊢
  have hlast : u.mg.last = x := by rw [hframe]
  exact ⟨by rw [hlast]; exact hframe, hlast, hdone⟩

theorem heartbeatSample_due {s : State} (h : storeGet 0 s.mg.last 2 < nanos s.tnow / 1000000) :
    exec .heartbeatSample s = .next ((upto 160).foldl sampleBeat
      { s with mg := { s.mg with last := storeSet 0 s.mg.last 2 (nanos s.tnow / 1000000) } }) := if_neg (Nat.not_le.2 h)

/-- A unit halted by its heartbeat is halted, and the rest of the management unit is as it was. -/
theorem haltByBeat_mg (s : State) (unit : Nat) :
    (haltByBeat s unit).mg = { s.mg with halted := s.mg.halted.filter (· != unit) ++ [unit] } := by
  have h : (countFleet (countHalt (logError s 0xE3 2 0xFFFF unit 0 1) unit true) 7 1).mg = s.mg := logError_mg ..
  unfold haltByBeat
  dsimp only
  rw [captureUnit_mg, h]

theorem sampleBeat_second {s : State} {unit : Nat} (hm : missedBeat s unit = true) (h : storeGet 0 s.mg.misses unit = 1) :
    unit ∈ (sampleBeat s unit).mg.halted ∧ (sampleBeat s unit).mg.misses = storeSet 0 s.mg.misses unit 0 := by
  have hhalt : sampleBeat s unit = haltByBeat (sampled s unit 0) unit := by
    rw [sampleBeat_eq, hm, h]
    rfl
  rw [hhalt, haltByBeat_mg]
  exact ⟨List.mem_append_right _ (List.mem_singleton_self unit), rfl⟩

/-! ## Units that are resumed and discarded -/

theorem foldlM_mg {s : State} {f : State → Saved → Option State} (hf : ∀ s x, SomeWith (fun t => t.mg = s.mg) (f s x)) (xs : List Saved) :
    SomeWith (fun t => t.mg = s.mg) (xs.foldl (fun s x => s.bind fun s => f s x) (some s)) := by
  have h (o : Option State) (ho : SomeWith (fun t => t.mg = s.mg) o) :
      SomeWith (fun t => t.mg = s.mg) (xs.foldl (fun s x => s.bind fun s => f s x) o) := by
    induction xs generalizing o with
    | nil => exact ho
    | cons x xs ih =>
      refine ih _ (someWith_bind ho fun t ht => ?_)
      rw [← ht]
      exact hf t x
  exact h (some s) rfl

/-- A resumed unit is not halted, and none of its cores is. -/
theorem resumeUnit_mg {s : State} {unit : Nat} (h : unitStopped s unit = true) : (resumeUnit s unit).mg =
    { s.mg with halted := s.mg.halted.filter (· != unit), cores := s.mg.cores.filter fun c => !coreOfUnit unit c } := by
  unfold resumeUnit
  rw [h, Bool.not_true, if_neg Bool.false_ne_true]
  dsimp only
  split
  · next hfold => exact ((foldlM_mg restoreNear_mg _).get hfold).trans (by dsimp only; rw [resumeCore_mg])
  · dsimp only
    rw [resumeCore_mg]

theorem resumeUnit_running {s : State} {unit : Nat} (h : unitStopped s unit = false) : resumeUnit s unit = s := by
  unfold resumeUnit
  rw [h]
  rfl

/-- What ends with a context that was captured of a discarded unit. -/
def discardSaved (s : State) (x : Saved) : State :=
  match x.who.gang with
  | some g => endGang (noteEnd (failGang s g 0xE3) g x.ids) g
  | none => joinFor s ⟨x.who.vf, x.who.ident, x.mode, x.who.loc.die⟩ (issuingCluster x.who.loc)
      (bits (physNat s x.area 4) 24 23) x.who.join true 0xE3 x.ids

theorem discardSaved_eq (s : State) (x : Saved) : discardSaved s x = match x.who.gang with
    | some g => endGang (noteEnd (failGang s g 0xE3) g x.ids) g
    | none => joinFor s ⟨x.who.vf, x.who.ident, x.mode, x.who.loc.die⟩ (issuingCluster x.who.loc)
        (physNat s x.area 4 / 2 ^ 23 % 4) x.who.join true 0xE3 x.ids := by
  have hprio : bits (physNat s x.area 4) 24 23 = physNat s x.area 4 / 2 ^ 23 % 4 := by
    unfold bits
    rw [Nat.shiftRight_eq_div_pow]
    rfl
  unfold discardSaved
  rw [hprio]

theorem discardUnit_halted {s : State} {unit : Nat} (h : unit ∈ s.mg.halted) : discardUnit s unit =
    (s.en.saved.filter fun x => x.by_ = 2 ∧ x.unit = unit).foldl discardSaved
      { s with en := { s.en with saved := s.en.saved.filter fun x => ¬(x.by_ = 2 ∧ x.unit = unit) } } := by
  have hown : (fun x : Saved => x.by_ == 2 && x.unit == unit) = fun x => decide (x.by_ = 2 ∧ x.unit = unit) := by
    funext x
    rw [Bool.eq_iff_iff]
    simp
  have hrest : (fun x : Saved => !(x.by_ == 2 && x.unit == unit)) = fun x => decide ¬(x.by_ = 2 ∧ x.unit = unit) := by
    funext x
    rw [Bool.eq_iff_iff]
    simp [imp_iff_not_or]
  have hhalted : s.mg.halted.contains unit = true := by simpa using h
  unfold discardUnit
  rw [hhalted, Bool.not_true, if_neg Bool.false_ne_true]
  dsimp only
  rw [hown, hrest]
  rfl

/-! ## Corrupt packets -/

/-- The retries of a corrupt packet have been counted and logged. -/
def packetCounted (s : State) (port tries : Nat) : State :=
  logError (countFleet s 4 (min tries 3)) 0 1 0xFFFF port 0 (min (fleetReg s 0x420 + min tries 3) (2 ^ 64 - 1))

/-- What a packet that stays corrupt after its retries cuts from a window. -/
def lostCut (vf ident win : Nat) (lanes : Mask) (v : State) : Option (Window × Store Word) :=
  (ctxOf v vf ident).bind fun c => c.wins[win]?.bind (cutWindow fun l _ => l == 32 || lanes.getLsbD l)

/-- The request of a packet that stays corrupt after its retries fails. -/
def packetLost (vf ident win : Nat) (lanes : Mask) (v : State) : State :=
  match lostCut vf ident win lanes v with
  | some (w, old) => updCtx v vf ident fun c => withOld { c with wins := setAt c.wins win w } old
  | none => { v with hub := { v.hub with lost := some ⟨vf, ident, lanes, v.free + 1⟩ } }

theorem linkPacketCorrupt_retried (s : State) (port : Nat) {tries : Nat} (vf ident win : Nat) (lanes : Mask) (h : tries ≤ 3) :
    exec (.linkPacketCorrupt port tries vf ident win lanes) s = .next (packetCounted s port tries) := if_pos h

theorem linkPacketCorrupt_spent {s : State} {port tries vf ident win : Nat} {lanes : Mask} (h : 3 < tries) :
    exec (.linkPacketCorrupt port tries vf ident win lanes) s =
      .next (packetLost vf ident win lanes (countFleet (packetCounted s port tries) 5 1)) := by
  refine (if_neg (Nat.not_le.2 h)).trans ?_
  unfold packetLost
  dsimp only
  split
  · next w old hcut =>
    rw [show lostCut vf ident win lanes (countFleet (packetCounted s port tries) 5 1) = some (w, old) from hcut]
    rfl
  · next hcut =>
    rw [show lostCut vf ident win lanes (countFleet (packetCounted s port tries) 5 1) = none from hcut]
    rfl

theorem packetLost_cut {v : State} {vf ident win : Nat} {lanes : Mask} {c : Ctx} {w : Window} {x : Window × Store Word}
    (hctx : ctxOf v vf ident = some c) (hwin : c.wins[win]? = some w)
    (hcut : cutWindow (fun l _ => l == 32 || lanes.getLsbD l) w = some x) :
    packetLost vf ident win lanes v = updCtx v vf ident fun c => withOld { c with wins := setAt c.wins win x.1 } x.2 := by
  unfold packetLost lostCut
  rw [hctx, Option.bind_some, hwin, Option.bind_some, hcut]

theorem packetLost_whole {v : State} {vf ident win : Nat} {lanes : Mask}
    (h : ∀ c w, ctxOf v vf ident = some c → c.wins[win]? = some w → cutWindow (fun l _ => l == 32 || lanes.getLsbD l) w = none) :
    packetLost vf ident win lanes v = { v with hub := { v.hub with lost := some ⟨vf, ident, lanes, v.free + 1⟩ } } := by
  have hnone : lostCut vf ident win lanes v = none :=
    Option.bind_eq_none_iff.2 fun c hctx => Option.bind_eq_none_iff.2 fun w hwin => h c w hctx hwin
  unfold packetLost
  rw [hnone]

/-! ## The statement -/

/-- An audit whose period is over takes every object operated on since the last, and logs each link loop whose sum differs. -/
theorem assayAudit_due {s : State} {links : List (Nat × Nat × Nat × Nat)}
    (hdue : storeGet 0 s.mg.last 1 + (devReg s 0x1C4).toNat % 256 * 120000 ≤ s.acnt.toNat) :
    let t := s.wk.audits.foldl auditOne { s with mg := { s.mg with last := storeSet 0 s.mg.last 1 s.acnt.toNat } }
    execAssayAudit links s = .next ((links.filter fun l => l.2.1 + l.2.2.1 + l.2.2.2 ≠ Config.linkCredits l.1).foldl
      (fun t l => logError t 0xE4 1 0xFFFF l.1 0 1) { t with wk := { t.wk with audits := [] } }) := by
  have hhours : bits (devNat s 0x1C4) 7 0 = (devReg s 0x1C4).toNat % 256 := rfl
  have hoff : (links.filter fun l => l.2.1 + l.2.2.1 + l.2.2.2 != Config.linkCredits l.1) =
      links.filter fun l => l.2.1 + l.2.2.1 + l.2.2.2 ≠ Config.linkCredits l.1 := List.filter_congr fun l _ => by rw [Bool.eq_iff_iff]; simp
  unfold execAssayAudit periodDue assayTimer now
  rw [hhours, if_pos hdue, ← hoff]
  rfl

theorem scrubRead_early {s : State} {err : ArrayError} {e : ArrayEntryAt} (h : fettle s (arrayClass e) = none) :
    execScrubRead true err e s = .next s := by
  unfold execScrubRead
  rw [if_pos rfl, h]
  rfl

theorem scrubRead_turn {s u : State} {err : ArrayError} {e : ArrayEntryAt} (h : fettle s (arrayClass e) = some u) :
    execScrubRead true err e s = execScrubRead false err e u := by
  unfold execScrubRead
  rw [if_pos rfl, h, if_neg Bool.false_ne_true]
  rfl

theorem discardCopy_eq (s : State) (e : ArrayEntryAt) : discardCopy s e =
    { s with ms := { s.ms with tlb := match e with | .translation n => s.ms.tlb.eraseIdx n | _ => s.ms.tlb } } := by
  cases e <;> rfl

theorem treatEntry_clean {s : State} {e : ArrayEntryAt} (h : heldAt s e = .clean) :
    treatEntry s e = discardCopy (countClass s (arrayClass e) (arrayAddr e)) e := by
  unfold treatEntry
  rw [h]

/-- The context that owns an entry ends, if one does. -/
def endOwner (z : State) (who : Option (Nat × Nat)) : Option State :=
  who.bind fun w => onCtx z w.1 w.2 fun t => endContext t (if hmode t.g then 0xE2 else 0xE1)

theorem treatEntry_owned {s : State} {e : ArrayEntryAt} {who : Option (Nat × Nat)} (h : heldAt s e = .owned who) :
    treatEntry s e = match endOwner (zeroEntry s e) who with
      | some t => countFleet t 2 1
      | none => zeroEntry s e := by
  unfold treatEntry
  rw [h]
  rfl

theorem captureUnit_halted (s : State) (unit cause : Nat) : unit ∈ (captureUnit s unit cause).mg.halted := by
  rw [captureUnit_mg]
  exact List.mem_append_right _ (List.mem_singleton_self unit)

theorem any_dirtyIn (s : State) (c : Nat) : s.ms.hist.any (dirtyIn c) = true ↔
    ∃ w ∈ s.ms.hist, w.arrived = none ∧ w.strong = none ∧ w.key / 64 = c := by
  rw [List.any_eq_true]
  exact exists_congr fun w => and_congr_right fun _ => dirtyIn_iff c w

/-- Settles O57: what the device does for health is as its rules say, and the contexts that end, are captured or come back with it do not
touch what the management unit knows of halted units. -/
theorem healthEvents : Obligations.HealthEvents := by
  unfold Obligations.HealthEvents
  refine ⟨?audit, ?turn, ?corrected, ?clean, ?owned, ?directory, ?device, ?held, ?link, ?beats, ?beat, ?second, ?resume, ?discard⟩
  case audit =>
    intro s links hdue
    exact assayAudit_due hdue
  case turn =>
    intro s err e
    have hfettle := fettle_eq s (arrayClass e)
    have hnext := nextScrub_get s (arrayClass e)
    generalize Claims.pass s (arrayClass e) = p at hfettle hnext ⊢
    obtain ⟨at_, since, size, pass⟩ := p
    dsimp only at hfettle hnext ⊢
    refine ⟨fun hearly => scrubRead_early (by rw [hfettle, if_pos hearly]), fun hdue => ?_⟩
    rw [if_neg (Nat.not_lt.2 hdue)] at hfettle
    exact ⟨_, (scrubRead_turn hfettle).trans (scrubRead_untimed _ .none e), scrubRead_turn hfettle, rfl, hnext⟩
  case corrected =>
    intro s e cls
    obtain ⟨hg, hothers, hcounts⟩ := corrected_counts s e
    exact ⟨rfl, corrected s e, scrubRead_untimed s .correctable e, hg, hothers, hcounts, fun i _ => corrected_fleet s e i⟩
  case clean =>
    intro s e hheld
    refine ⟨_, (scrubRead_untimed s .uncorrectable e).trans (congrArg _ (treatEntry_clean hheld)), ?_⟩
    rw [discardCopy_eq]
    refine ⟨countClass_g .., countClass_others .., fun i _ => countClass_fleet .., countClass_get .., ?_⟩
    have htlb := countClass_tlb s (arrayClass e) (arrayAddr e)
    cases e with
    | translation n => exact congrArg (·.eraseIdx n) htlb
    | _ => exact htlb
  case owned =>
    intro s e who hheld z ends
    have hends : endOwner (zeroEntry s e) who = ends := rfl
    have htreat : exec (.scrubRead false .uncorrectable e) s = .next (treatEntry s e) := scrubRead_untimed s .uncorrectable e
    rw [htreat, treatEntry_owned hheld, hends]
    exact ⟨fun t ht => by rw [ht], fun hnone => by rw [hnone]⟩
  case directory =>
    intro s a
    rfl
  case device =>
    intro s unit a
    exact ⟨_, rfl, captureUnit_halted ..⟩
  case held =>
    intro s vf ident n level c k dirty
    refine ⟨rfl, rfl, rfl, rfl, rfl, rfl, fun hclean => ?_, fun hdirty => ⟨_, if_pos ((any_dirtyIn s c).2 hdirty)⟩,
      fun w hw hd => homeByte_zeroEntry_line hw ((dirtyIn_iff c w).2 hd), rfl, homeByte_zeroEntry_vault s k⟩
    exact if_neg fun h => by
      obtain ⟨w, hw, hd⟩ := (any_dirtyIn s c).1 h
      exact hclean w hw hd
  case link =>
    intro s port tries vf ident win lanes n t v hit
    exact ⟨fun hfew => linkPacketCorrupt_retried s port vf ident win lanes hfew,
      fun c w x hmany hctx hwin hcut => (linkPacketCorrupt_spent hmany).trans (congrArg _ (packetLost_cut hctx hwin hcut)),
      fun hmany hnone => (linkPacketCorrupt_spent hmany).trans (congrArg _ (packetLost_whole hnone))⟩
  case beats =>
    intro s tick entry missed htick hfirst
    have hmissed (unit : Nat) : missedBeat s unit = true ↔ missed unit := missedBeat_iff s unit
    obtain ⟨u, hu, hframe, hlast, hdone⟩ := samples_last (n := 160) (storeSet 0 s.mg.last 2 (nanos s.tnow / 1000000))
      fun unit hunit hm => hfirst unit hunit ((hmissed unit).1 hm)
    refine ⟨u, (heartbeatSample_due htick).trans (congrArg _ hu), hframe, (congrArg (storeGet 0 · 2) hlast).trans (storeGet_set_self ..),
      fun unit hunit => ⟨fun hm => ?_, fun hm => ?_⟩⟩
    · rw [hdone unit hunit, if_pos ((hmissed unit).2 hm)]
    · rw [hdone unit hunit, if_neg (mt (hmissed unit).1 hm)]
  case beat =>
    intro s htick
    exact heartbeatSample_due htick
  case second =>
    intro s unit x hexpect hrun hcores hsame hone
    exact sampleBeat_second ((missedBeat_iff s unit).2 ⟨hexpect, hrun, hcores, hsame⟩) hone
  case resume =>
    intro s unit
    refine ⟨fun hrun hcores => congrArg _ (resumeUnit_running ((unitStopped_iff s unit).2 ⟨hrun, hcores⟩)), _, rfl, ?_⟩
    cases hstop : unitStopped s unit with
    | false => rw [resumeUnit_running hstop]; exact (unitStopped_iff s unit).1 hstop
    | true => rw [resumeUnit_mg hstop]; simp
  case discard =>
    intro s unit
    refine ⟨fun hrun => congrArg _ (if_pos (by simpa using hrun)), fun hhalted => ?_⟩
    have hdiscard := congrArg (Host.Outcome.next (φ := Fault) (ρ := Refusal)) (discardUnit_halted hhalted)
    refine ⟨fun hnone => hdiscard.trans ?_, fun x hx => hdiscard.trans ?_⟩
    · rw [List.filter_eq_nil_iff.2 fun x hx => fun h => hnone x hx (of_decide_eq_true h)]
      rfl
    · rw [hx]
      exact congrArg _ (discardSaved_eq ..)

end Sys2Proof.Machine
end
